-- ==== Sys2Proof/Word.lean ====
section
/-!
DEFINITION. Sys2Proof/Word.lean: the 36-bit Ramua word (R53), the octet, and the sparse map
every memory and numbered array of the device is held in.
-/
namespace Sys2Proof

/-- A Ramua word (R53). -/
abbrev Word := BitVec 36

/-- A host octet (R9). -/
abbrev Byte := BitVec 8

/-- A host register (R9). -/
abbrev Word64 := BitVec 64

/-- A numbered store: key and value pairs, keys strictly rising. -/
abbrev Assoc (α : Type) := List (Nat × α)

/-- A word memory: `Assoc` of words, unlisted addresses reading as the memory's own default. -/
abbrev Memory := Assoc Word

end Sys2Proof
end

