-- ==== Sys2Proof/Config.lean ====
section
/-!
DEFINITION. Sys2Proof/Config.lean: what one device fixes and the values the spec leaves free.
Every constant is opaque: no proof can see a value of it.
-/
namespace Sys2Proof.Config

/-- A free value: the n-th word the model takes where the spec leaves a value open (log 10). -/
opaque freeWord : Nat → Nat

/-- What a read of an undefined flash cell gives the n-th time: its word, and 0 for no ECC indication, 1 for
a corrected word, 2 for an uncorrectable one (R12, R13; log 10). -/
opaque flashWord : Nat → Nat → BitVec 36
opaque flashEcc : Nat → Nat → Fin 3

/-- What becomes by the n-th start of a programmed word: 0 nothing, 1 one bit in error, 2 an uncorrectable word
(R486; log 121). -/
opaque flashDecay : Nat → Nat → Fin 3

/-- Which of the two rule sets an unfenced access meets, true the new one (R480; log 10). -/
opaque acuNew : Nat → Bool

/-- The Device Unique Key, 32 octets (R416). -/
opaque duk : List Byte

/-- The Device Unique Key fuses are programmed (R574). -/
opaque dukProgrammed : Bool

/-- The device serial of the fuses (HL_SERIAL). -/
opaque serial : BitVec 64

/-- STEP_MAJOR, STEP_MINOR and ROM_REV of HL_ID. -/
opaque stepMajor : BitVec 4
opaque stepMinor : BitVec 4
opaque romRev : BitVec 8

/-- The release index IDCODE shows (R582). -/
opaque releaseIndex : BitVec 4

/-- Fuse hashes: customer boot key, debug authority, microcode key, 48 octets each (R505, R586, R407). -/
opaque bootKeyHash : List Byte
opaque debugKeyHash : List Byte
opaque ucodeKeyHash : List Byte

/-- The boot-key and debug authority hashes are programmed (R574). -/
opaque hashesProgrammed : Bool

/-- The Device Attestation Key is in the provisioning records (R574). -/
opaque dakProvisioned : Bool

/-- The minimum microcode version in fuses (R407). -/
opaque ucodeMinimum : Nat

/-- The 32 token slots of the fuses, 32 octets each (R579). -/
opaque tokenSlot : Nat → List Byte

/-- The fixed conditioner key of the boot ROM, 32 octets (R453). -/
opaque conditionerKey : List Byte

/-- SHA-384 of the boot ROM, SPDM measurement block 1 (R214). -/
opaque romHash : List Byte

/-- The security fuse configuration as measurement block 4 shows it (SPDM measurement blocks). -/
opaque securityFuses : List Byte

/-- The Device Attestation Key: private value and public key (R443). -/
opaque dakPrivate : List Byte
opaque dakPublic : List Byte

/-- The certificate chain of the Device Attestation Key to Sohoeth's device certificate authority (R214). -/
opaque dakChain : List Byte

/-- Subsystem Vendor ID and Subsystem ID of the provisioning records, if any (Configuration identity table). -/
opaque subsystem : Option (BitVec 16 × BitVec 16)

/-- The scan chains' captured bits: chain, bit count, data shifted (SCAN). -/
opaque scanCapture : Nat → Nat → List Bool → List Bool

/-- A raw sample of a noise source, by source and number (R450; log 10). -/
opaque noiseBit : Nat → Nat → Bool

/-- The measured one-way delay of the link to a member, by its path, in Tally ticks (R534; log 117). -/
opaque linkDelay : BitVec 36 → Nat

/-- The 36-bit check value of key octets that form no AES key (R425 states none; log 35). -/
opaque oddKcv : List Byte → Nat
/-- The combined SPDM prefix of a version and context code (R443 names SPDM 1.2 and 1.3; log 36). -/
opaque spdmPrefix : BitVec 36 → List Byte

end Sys2Proof.Config
end

