-- ==== Sys2Proof/Machine/Assoc.lean ====
section
/-!
DEFINITION. Sys2Proof/Machine/Assoc.lean: the operations of a numbered store: a list of key and
value pairs with keys strictly rising.
-/
namespace Sys2Proof.Machine

/-- The value stored under a key. -/
def afind {α : Type} : Assoc α → Nat → Option α
  | [], _ => none
  | (k', v) :: m, k => if k' = k then some v else afind m k

/-- The value under a key, or the default an unlisted key reads as. -/
def aget {α : Type} (d : α) (m : Assoc α) (k : Nat) : α := (afind m k).getD d

/-- Store a value under a key, keeping the keys rising. -/
def aput {α : Type} : Assoc α → Nat → α → Assoc α
  | [], k, v => [(k, v)]
  | (k', v') :: m, k, v =>
    if k < k' then (k, v) :: (k', v') :: m
    else if k = k' then (k, v) :: m
    else (k', v') :: aput m k v

/-- Forget a key. -/
def aerase {α : Type} (m : Assoc α) (k : Nat) : Assoc α := m.filter fun kv => decide (kv.1 ≠ k)

/-- Store a value in a memory whose unlisted keys read `d`: writing `d` unlists the key. -/
def aset {α : Type} [DecidableEq α] (d : α) (m : Assoc α) (k : Nat) (v : α) : Assoc α :=
  if v = d then aerase m k else aput m k v

/-- Change the value under a key. -/
def amod {α : Type} (d : α) (m : Assoc α) (k : Nat) (f : α → α) : Assoc α := aput m k (f (aget d m k))

/-- Store a run of values at successive keys. -/
def asetRun {α : Type} [DecidableEq α] (d : α) (m : Assoc α) (k : Nat) : List α → Assoc α
  | [] => m
  | v :: vs => asetRun d (aset d m k v) (k + 1) vs

/-- The run of `n` values from key `k`. -/
def agetRun {α : Type} (d : α) (m : Assoc α) (k n : Nat) : List α :=
  (List.range n).map fun i => aget d m (k + i)

/-- The canonical form of a memory: keys strictly rising, no listed value equal to the default. -/
def memWf {α : Type} [DecidableEq α] (d : α) : Assoc α → Bool
  | [] => true
  | [(_, v)] => decide (v ≠ d)
  | (k, v) :: (k', v') :: m => decide (v ≠ d) && decide (k < k') && memWf d ((k', v') :: m)

/-- The canonical form of a numbered store: keys strictly rising. -/
def keysWf {α : Type} : Assoc α → Bool
  | [] => true
  | [_] => true
  | (k, _) :: (k', v') :: m => decide (k < k') && keysWf ((k', v') :: m)

end Sys2Proof.Machine
end

