-- ==== Sys2Proof/Machine/Bits.lean ====
section
/-!
DEFINITION. Sys2Proof/Machine/Bits.lean: fields of words, octet strings, the packings of host
data (R93) and CRC-32C.
-/
namespace Sys2Proof.Machine

/-- Bits hi to lo of a number. -/
def bitsOf (x hi lo : Nat) : Nat := (x >>> lo) % 2 ^ (hi + 1 - lo)

/-- Bit i of a number. -/
def bitOf (x i : Nat) : Bool := x.testBit i

/-- A flag as a number. -/
def b2n (b : Bool) : Nat := if b then 1 else 0

/-- The word of a number, modulo 2^36 (R53). -/
def wd (n : Nat) : Word := BitVec.ofNat 36 n

/-- Field hi to lo of a word, as a number. -/
def wfield (w : Word) (hi lo : Nat) : Nat := bitsOf w.toNat hi lo

/-- Set bit i of a word. -/
def wsetBit (w : Word) (i : Nat) (b : Bool) : Word :=
  if b then w ||| (1#36 <<< i) else w &&& ~~~(1#36 <<< i)

/-- Replace field hi to lo of a word with the low bits of a number. -/
def wput (w : Word) (hi lo n : Nat) : Word :=
  let mask : Word := wd ((2 ^ (hi + 1 - lo) - 1) <<< lo)
  (w &&& ~~~mask) ||| (wd (n <<< lo) &&& mask)

/-- Keep the bits of `old` outside `mask` and take those of `new` inside it. -/
def wmask (mask old new : Word) : Word := (old &&& ~~~mask) ||| (new &&& mask)

/-- A saturating increment. -/
def satInc (n max : Nat) : Nat := if n < max then n + 1 else max

/-- Octets as a number, most significant first. -/
def beNat (bs : List Byte) : Nat := bs.foldl (fun a b => a * 256 + b.toNat) 0

/-- A number as n octets, most significant first. -/
def beOctets : Nat → Nat → List Byte
  | 0, _ => []
  | n + 1, x => BitVec.ofNat 8 (x >>> (8 * n)) :: beOctets n x

/-- Octets as a number, least significant first (R9). -/
def leNat : List Byte → Nat
  | [] => 0
  | b :: bs => b.toNat + 256 * leNat bs

/-- A number as n octets, least significant first (R9). -/
def leOctets : Nat → Nat → List Byte
  | 0, _ => []
  | n + 1, x => BitVec.ofNat 8 x :: leOctets n (x / 256)

/-- Pad an octet string with zeros to n octets. -/
def padTo (n : Nat) (bs : List Byte) : List Byte := bs ++ List.replicate (n - bs.length) 0#8

/-- Cut a list into pieces of n elements; the fuel is the list's length. -/
def chunksAux {α : Type} (n : Nat) : Nat → List α → List (List α)
  | 0, _ => []
  | _ + 1, [] => []
  | fuel + 1, l => l.take n :: chunksAux n fuel (l.drop n)

/-- Cut a list into pieces of n elements, the last one shorter. -/
def chunks {α : Type} (n : Nat) (l : List α) : List (List α) := chunksAux n l.length l

/-- Element-wise exclusive or. -/
def xorOctets (a b : List Byte) : List Byte := List.zipWith (· ^^^ ·) a b

/-- The packing modes of R93. -/
inductive Packing where
  | loose | dense | raw36
deriving DecidableEq, Repr

/-- The words that n octets fill (Packing as seen by code table). -/
def packWords (p : Packing) (n : Nat) : Nat :=
  match p with
  | .loose => (n + 3) / 4
  | .dense => 2 * ((n + 8) / 9)
  | .raw36 => (n + 7) / 8

/-- Octets to words (Packing as seen by code and DENSE pair layout tables). -/
def packIn (p : Packing) (bs : List Byte) : List Word :=
  match p with
  | .loose => (chunks 4 bs).map fun c => wd (beNat (padTo 4 c))
  | .dense => (chunks 9 bs).flatMap fun c =>
      let x := beNat (padTo 9 c)
      [wd (x >>> 36), wd x]
  | .raw36 => (chunks 8 bs).map fun c => wd (leNat (padTo 8 c))

/-- Words to octets, the first n of them (R93); RAW36 slots are little-endian 64-bit (R9, R47). -/
def packOut (p : Packing) (ws : List Word) (n : Nat) : List Byte :=
  let all : List Byte := match p with
    | .loose => ws.flatMap fun (w : Word) => beOctets 4 (w.toNat % 2 ^ 32)
    | .dense => (chunks 2 ws).flatMap fun (c : List Word) =>
        beOctets 9 (((c.getD 0 0).toNat <<< 36) + (c.getD 1 0).toNat)
    | .raw36 => ws.flatMap fun (w : Word) => leOctets 8 w.toNat
  all.take n

/-- One bit of the reflected CRC-32C, polynomial 82F63B78h (R144, R626). -/
def crcBit (c : BitVec 32) : BitVec 32 :=
  if c.getLsbD 0 then (c >>> 1) ^^^ 0x82F63B78#32 else c >>> 1

/-- One octet into the CRC register. -/
def crcByte (c : BitVec 32) (b : Byte) : BitVec 32 :=
  let c := c ^^^ b.zeroExtend 32
  crcBit (crcBit (crcBit (crcBit (crcBit (crcBit (crcBit (crcBit c)))))))

/-- Octets into the CRC register. -/
def crcUpdate (c : BitVec 32) (bs : List Byte) : BitVec 32 := bs.foldl crcByte c

/-- The standard CRC-32C: preset ones, inverted at the end (R626). -/
def crc32c (bs : List Byte) : BitVec 32 := ~~~(crcUpdate 0xFFFFFFFF#32 bs)

/-- A word as five octets, right-aligned in 40 bits, most significant first (R253). -/
def word40 (w : Word) : List Byte := beOctets 5 w.toNat

/-- Words serialised as R253 gives. -/
def words40 (ws : List Word) : List Byte := ws.flatMap word40

/-- All ones, the erased flash word (R486). -/
def erasedWord : Word := 0xFFFFFFFFF#36

end Sys2Proof.Machine
end

