-- ==== Sys2Proof/Machine/StateVault.lean ====
section
/-!
DEFINITION. Sys2Proof/Machine/StateVault.lean: the Key Vault and the entropy block (spec files
11 and 12).
-/
namespace Sys2Proof.Machine

/-- A key the Vault holds (files 10 and 11). -/
structure KeyObj where
  /-- attribute word; R422 (11). -/
  attr : Word
  /-- key material: raw octets, or the private value of an asymmetric key; Backing object (11). -/
  material : List Byte
  /-- public key in SEQUENCER operand form, for an asymmetric key; R425 (11). -/
  pub : List Byte := []
deriving DecidableEq, Repr

/-- Vault modes (file 11). -/
inductive VaultMode where
  | sealed | opened | hold | trial | none
deriving DecidableEq, Repr

/-- The Store keys as a system backing object under a CKEK (R442). -/
structure StoreObject where
  /-- the CKEK that wraps it; R442 (11). -/
  kek : List Byte
  /-- tree key; R442 (11). -/
  tree : List Byte
  /-- record key; R442 (11). -/
  record : List Byte
  /-- epoch keys by EPOCH; R442 (11). -/
  epochs : Assoc (List Byte)
deriving DecidableEq, Repr

/-- The Key Vault (file 11). -/
structure Vault where
  /-- VLT_STATE.MODE; Vault modes (11); SEALED. -/
  mode : VaultMode := .sealed
  /-- the 4,096 resident slots; R420 (11); all free. -/
  slots : Assoc KeyObj := []
  /-- generation of each slot, 16 bits; R420 (11); 0 at device reset. -/
  gens : Assoc Nat := []
  /-- staging slots, 24 words each, 8 per Hand; R434 (11); zero. -/
  staging : Assoc (List Word) := []
  /-- the 16 lane wrap keys, 32 octets each; R436 (11); none before key formation. -/
  lwks : Assoc (List Byte) := []
  /-- LWK_CUR, 4 bits; VLT_STATE (11); 0. -/
  lwkCur : Nat := 0
  /-- VLT_QUOTA.COMMON, 13 bits; VLT_QUOTA (11); 1,024. -/
  quota : Nat := 1024
  /-- the seeds taken for the 16 lane wrap keys while their draw waits for more; R436 (11), R454 (12); none. -/
  lwkDraw : Option (List (List Byte)) := none
  /-- keys are to be formed again once a source is HEALTHY; R418 (11), R468 (12); false. -/
  formOwed : Bool := false
  /-- number of the next command, in arrival order; R446 (11); DESIGN CHOICE 0 (log 45). -/
  nextCmd : Nat := 0
  /-- IKEK, 32 octets; R417 (11); not formed. -/
  ikek : Option (List Byte) := none
  /-- CKEK, 32 octets; R417 (11); not formed. -/
  ckek : Option (List Byte) := none
  /-- the DAK's system slot; R443 (11); empty before key formation. -/
  dak : Option KeyObj := none
  /-- the Store's record key, 32 octets; R442 (11); none. -/
  recordKey : Option (List Byte) := none
  /-- the Store's backing object, kept through device reset; R442 (11); none. -/
  storeObject : Option StoreObject := none
deriving DecidableEq, Repr

/-- Noise source states (R451). -/
inductive SourceState where
  | off | healthy | failed | testPattern
deriving DecidableEq, Repr

/-- One noise source (file 12). -/
structure NoiseSource where
  /-- state; Source state transitions (12); OFF. -/
  state : SourceState := .off
  /-- ENT_EST.FAILS, 4 bits saturating; ENT_EST (12); 0. -/
  fails : Nat := 0
  /-- test pattern LFSR, 31 bits; R466 (12); 1 when the PATTERN bit is set. -/
  lfsr : BitVec 31 := 1
  /-- samples taken, which index the free samples; the model's own, DESIGN CHOICE 0 (log 10). -/
  taken : Nat := 0
  /-- the last sample, and how many in a row were equal to it; R450 (12); none yet. -/
  last : Bool := false
  run : Nat := 0
  /-- the proportion window: its samples so far, its first value, and how often that occurred; R450 (12); empty. -/
  window : Nat := 0
  first : Bool := false
  hits : Nat := 0
  /-- the refresh period under way: samples, ones and equal adjacent pairs; ENT_EST (12); 0. -/
  period : Nat := 0
  ones : Nat := 0
  agree : Nat := 0
  /-- ENT_EST.ONES and ENT_EST.AGREE of the last period; ENT_EST (12); 0. -/
  estOnes : Nat := 0
  estAgree : Nat := 0
deriving DecidableEq, Repr

/-- One CTR_DRBG instance (R455). -/
structure Drbg where
  /-- instantiated; R456 (12); false. -/
  live : Bool := false
  /-- Key, 32 octets; R455 (12); zero. -/
  key : List Byte := []
  /-- V, 16 octets; R455 (12); zero. -/
  v : List Byte := []
  /-- reseed counter; R458 (12); 0. -/
  calls : Nat := 0
  /-- due; R458 (12); false. -/
  due : Bool := false
  /-- stalled; R459 (12); false. -/
  stalled : Bool := false
  /-- waits for its instantiation seed; R456 (12); false. -/
  waiting : Bool := false
deriving DecidableEq, Repr

/-- The entropy block (file 12). -/
structure Entropy where
  /-- sources 0 to 3; R450 (12); OFF. -/
  sources : Assoc NoiseSource := []
  /-- the seed pool, 48 octets each, at most 64; R454 (12); empty. -/
  pool : List (List Byte) := []
  /-- the 1,024 instances; R455 (12); uninstantiated. -/
  drbgs : Assoc Drbg := []
  /-- ENT_STATUS.SELFTEST; ENT_STATUS (12); 0. -/
  selftest : Bool := false
  /-- ENT_TEST.RAWSEL, 2 bits; ENT_TEST (12); 0. -/
  rawsel : Nat := 0
  /-- ENT_RAW samples collected for a waiting read, none when none were given; ENT_RAW (12); none. -/
  raw : Option (BitVec 32) := none
  /-- ENT_TEST.PATTERN, 4 bits; ENT_TEST (12); 0. -/
  pattern : BitVec 4 := 0
  /-- the known-answer tests passed at start-up; R468 (12); false. -/
  katOk : Bool := false
deriving DecidableEq, Repr

end Sys2Proof.Machine
end

