-- ==== Sys2Proof/Machine/StateCore.lean ====
section
/-!
DEFINITION. Sys2Proof/Machine/StateCore.lean: the state of Hands, cores and Hamlets
(spec files 01 to 04 and 13).
-/
namespace Sys2Proof.Machine

/-- Where a D-space word physically stands, which names a reservation granule (R104). -/
inductive Loc where
  | workspace (core idx : Nat)
  | commons (hamlet idx : Nat)
  | frame (frame idx : Nat)
  | window (hand idx : Nat)
deriving DecidableEq, Repr

/-- The events WAIT selects (R141). -/
inductive WaitSel where
  | lane | slice | grant | timer | steward
deriving DecidableEq, Repr

/-- What a BLOCKED Hand waits for (Hand states table). -/
inductive BlockReason where
  /-- an Aperture access to a page that is not resident. -/
  | pageIn (page : Nat)
  /-- WAIT, with the register that takes the event word. -/
  | wait (sel : WaitSel) (dest : BitVec 5)
  /-- an access to a lane (false) or slice (true) taken back (R277). -/
  | unit (slice : Bool)
  /-- a grant request that cannot be met at once (Hand state transitions table, R272). -/
  | grant
deriving DecidableEq, Repr

/-- The Hand states of file 01. -/
inductive HandState where
  | free | loading | ready | running
  | blocked (why : BlockReason)
  | releasing
deriving DecidableEq, Repr

/-- A return stack bank (R87, R88). -/
structure RetStack where
  /-- 16 entries of 16 bits; R87 (02); 0 at errand start (R76). -/
  entries : Assoc (BitVec 16) := []
  /-- TOP index, 4 bits; R88 (02); 0 at errand start. -/
  top : BitVec 4 := 0
  /-- DEPTH, 0 to 16; R88 (02); 0 at errand start. -/
  depth : Nat := 0
deriving DecidableEq, Repr

/-- A held reservation (R104): the effective address and the granule. -/
structure Reservation where
  /-- effective address of the LWR; R104 (02); none held at errand start. -/
  ea : Nat
  /-- the granule; R104 (02); none held at errand start. -/
  loc : Loc
deriving DecidableEq, Repr

/-- A pending imprecise arithmetic exception (R165). -/
structure Imprecise where
  /-- cause code 10q or 11q; R162 (04); none pending at errand start. -/
  cause : BitVec 6
  /-- address of the arithmetic instruction; R166 (04). -/
  addr : BitVec 16
  /-- instructions of the Hand still allowed before it is taken, 8 down to 0; R165 (04). -/
  left : Nat
deriving DecidableEq, Repr

/-- CAUSE_C or CAUSE_W. -/
structure CauseReg where
  /-- ORIG[11:6]; CAUSE table (04); 0. -/
  orig : BitVec 6 := 0
  /-- CODE[5:0]; CAUSE table (04); 0. -/
  code : BitVec 6 := 0
deriving DecidableEq, Repr

/-- A Hand's Aperture slot (R63, R320). -/
structure Aperture where
  /-- the open page; R63 (02), R320 (08); no page open at errand start. -/
  page : Nat
  /-- opened read-only; R320 (08). -/
  readOnly : Bool
  /-- the world of the opening Hand, true Warden; R312 (08). -/
  warden : Bool
deriving DecidableEq, Repr

/-- A Vault command in flight with what its end will show (R427, R446). -/
structure VaultRun where
  /-- OP, 0 for DERIVE; Commands (11). -/
  op : Nat
  /-- VLT_ARG0 to VLT_ARG3 as the command took them; Commands (11). -/
  args : List Word := []
  /-- STATUS to report; VLT_RESULT (11). -/
  status : Nat := 0
  /-- VALUE to report; VLT_RESULT (11). -/
  value : Nat := 0
  /-- the word VLT_BLOB will hold; VLT_BLOB (11). -/
  blob : Option Word := none
  /-- what INFO puts in ARG0 and ARG1; Commands (11). -/
  info : Option (Word × Word) := none
  /-- the D-space run the command writes: first address and words; Commands (11). -/
  writes : Nat × List Word := (0, [])
  /-- a resident slot the command created; R447 (11). -/
  created : Option Nat := none
  /-- the generation of the slot it created; R447 (11). -/
  gen : Nat := 0
  /-- its number in arrival order; R446 (11). -/
  seq : Nat := 0
  /-- what DERIVE or ISSUE puts in a staging slot: its number and words; R433, R437 (11). -/
  stage : Option (Nat × List Word) := none
  /-- the slot kept for the key of a GENERATE; R429 (11). -/
  keep : Option Nat := none
  /-- the attribute word of a GENERATE; Commands (11). -/
  attr : Word := 0
  /-- the key that ATTEST and SPLIT took; R440, R444 (11). -/
  key : Option KeyObj := none
  /-- octets read from D-space: the nonce of ATTEST, the hash of SPDM_SIGN; Commands (11). -/
  data : List Byte := []
  /-- a D-space page the command reads is not resident: it starts when it is; R428 (11; log 45). -/
  due : Bool := false
  /-- the 8 places of the hardened path are taken; R445 (11). -/
  queued : Bool := false
deriving DecidableEq, Repr

/-- The Vault's own copy of a Hand's registers (Vault window, file 11). -/
structure HandVault where
  /-- VLT_CTX, 36 bits; Vault window (11); 0 (errand start). -/
  ctx : Word := 0
  /-- VLT_LABEL, 36 bits; Vault window (11); 0. -/
  label : Word := 0
  /-- VLT_DSPEC, 36 bits; VLT_DSPEC (11); TYPE 12h, BULK 1, WORLD the Hand's (errand start). -/
  dspec : Word := 0x121400000#36
  /-- VLT_ARG0, 36 bits; Vault window (11); 0. -/
  arg0 : Word := 0
  /-- VLT_ARG1, 36 bits; Vault window (11); 0. -/
  arg1 : Word := 0
  /-- VLT_ARG2, 36 bits; Vault window (11); 0. -/
  arg2 : Word := 0
  /-- VLT_ARG3, 36 bits; Vault window (11); 0. -/
  arg3 : Word := 0
  /-- the command in flight; R427 (11); none. -/
  running : Option VaultRun := none
  /-- VLT_RESULT, 36 bits; Vault window (11); 0. -/
  result : Word := 0
  /-- VLT_BLOB, 36 bits; Vault window (11); 0. -/
  blob : Word := 0
deriving DecidableEq, Repr

/-- One hardware context of a core (file 01, file 02). -/
structure Hand where
  /-- w1 to w31, 36 bits each, w0 never listed; R68, R69 (02); 0 (R76). -/
  regs : Assoc Word := []
  /-- PC, 16 bits; Special registers (02); DESIGN CHOICE 0 before an errand starts (log 3). -/
  pc : BitVec 16 := 0
  /-- ST, 36 bits; R73 (02); DESIGN CHOICE 0 before an errand starts (log 3). -/
  st : Word := 0
  /-- FAA, 36 bits; R72 (02); 0 (R76). -/
  faa : Word := 0
  /-- FAA was recorded by a delivery to WS; R72 (02); DESIGN CHOICE false (log 3). -/
  faaWs : Bool := false
  /-- ERA.C, 16 bits; Special registers (02); 0 (R76). -/
  eraC : BitVec 16 := 0
  /-- EST.C, 36 bits; Special registers (02); 0 (R76). -/
  estC : Word := 0
  /-- SCR.C, 36 bits; Special registers (02); 0 (R76). -/
  scrC : Word := 0
  /-- ERA.W, 16 bits; Special registers (02); 0 (R76). -/
  eraW : BitVec 16 := 0
  /-- EST.W, 36 bits; Special registers (02); 0 (R76). -/
  estW : Word := 0
  /-- SCR.W, 36 bits, kept from errand to errand (R77); Special registers (02); DESIGN CHOICE 0 (log 3). -/
  scrW : Word := 0
  /-- the Common return stack bank (RSC.C, RSE.C); R87 (02); zero (R76). -/
  rsC : RetStack := {}
  /-- the Warden return stack bank (RSC.W, RSE.W); R87 (02); zero (R76). -/
  rsW : RetStack := {}
  /-- the reservation; R104 (02); none (R76). -/
  resv : Option Reservation := none
  /-- accepted stores to RELAXED regions that no other observer sees yet, oldest first; R98 (02); none. -/
  posted : List (Loc × Word) := []
  /-- WS entries nested since the WS interrupt whose handler has not yet returned; R175 (04); no handler. -/
  irqDepth : Option Nat := none
  /-- the load in its delay slot: register and value; R82 (02); none. -/
  delay : Option (BitVec 5 × Word) := none
  /-- the pending imprecise exception; R165 (04); none. -/
  imp : Option Imprecise := none
  /-- CAUSE_C; CAUSE table (04); 0. -/
  causeC : CauseReg := {}
  /-- CAUSE_W; CAUSE table (04); 0. -/
  causeW : CauseReg := {}
  /-- HGUARD.GC, 1 bit; HGUARD (04); 0. -/
  gc : Bool := false
  /-- HGUARD.GW, 1 bit; HGUARD (04); 0. -/
  gw : Bool := false
  /-- HT_COUNT, 32 bits; HT_COUNT (04); 0. -/
  htCount : BitVec 32 := 0
  /-- HT_RELOAD, 32 bits; HT_RELOAD (04); 0. -/
  htReload : BitVec 32 := 0
  /-- HT_CTRL.EXPIRED, 1 bit; HT_CTRL (04); 0. -/
  htExpired : Bool := false
  /-- HT_CTRL.INTEN, 1 bit; HT_CTRL (04); 0. -/
  htInten : Bool := false
  /-- HT_CTRL.RUN, 1 bit; HT_CTRL (04); 0. -/
  htRun : Bool := false
  /-- TIMER event count, 16 bits saturating; R183 (04); 0. -/
  timerEvents : BitVec 16 := 0
  /-- the latched LANE event word; R141 (03); none. -/
  laneEv : Option Word := none
  /-- the latched SLICE event word; R141 (03); none. -/
  sliceEv : Option Word := none
  /-- the latched GRANT event word; R275 (07); none. -/
  grantEv : Option Word := none
  /-- HANDBACK of the STEWARD event word; R277 (07); 0. -/
  evHandback : Bool := false
  /-- DEADLINE_PASSED of the STEWARD event word; R267 (07); 0. -/
  evDeadline : Bool := false
  /-- the Hand state; Hand states table (01); FREE, but Hand 0 of the Reeve core once the boot ROM runs (R693). -/
  state : HandState := .free
  /-- the errand the Hand runs (the model's errand number); R24 (01); none. -/
  errand : Option Nat := none
  /-- the boot ROM runs on this Hand; R138 (03); false. -/
  boot : Bool := false
  /-- Warden housekeeping runs on this Hand; R37 (01); false. -/
  housekeeping : Bool := false
  /-- halted by a debug session; R601 (17); false. -/
  halted : Bool := false
  /-- a DBG_STEP is owed: halt again after one instruction; DBG_STEP (17); false. -/
  stepOne : Bool := false
  /-- Workspace partition base within the core, words; R30 (01); 0. -/
  wsBase : Nat := 0
  /-- Workspace partition size, words; R30 (01); 0. -/
  wsSize : Nat := 0
  /-- ARG_WORDS of the argument block; R248 (06); 0. -/
  argWords : Nat := 0
  /-- the Errand Window: words 0 to 63 descriptor copy and device facts, then the argument block; R248 (06); 0. -/
  window : Memory := []
  /-- the 64 Aperture slots; R63 (02); no page open. -/
  slots : Assoc Aperture := []
  /-- GR_PAGE, 30 bits; Granary window (08); 0. -/
  grPage : Nat := 0
  /-- GR_RESULT, 36 bits; Granary window (08); 0. -/
  grResult : Word := 0
  /-- the pending grant request: KIND and AMOUNT; R273 (07); none. -/
  request : Option (Nat × Nat) := none
  /-- the granted lane held (in name), and whether a unit is present; R277 (07); none. -/
  laneHeld : Bool := false
  /-- the lane now mapped at 020000q; R26 (01); none. -/
  lane : Option Nat := none
  /-- the granted slice held (in name); R277 (07); none. -/
  sliceHeld : Bool := false
  /-- the slice now mapped at 030000q; R26 (01); none. -/
  slice : Option Nat := none
  /-- the mode in which the slice was granted, true MAC; R385 (10); false. -/
  sliceMac : Bool := false
  /-- the first Release Buffer granule held; R272 (07); none. -/
  rbBase : Option Nat := none
  /-- Release Buffer granules held; R272 (07); 0. -/
  rbGranules : Nat := 0
  /-- Release Buffer KiB requested so far by the errand; R279 (07); 0. -/
  rbUsed : Nat := 0
  /-- the DRBG instance held; R272 (07); none. -/
  drbg : Option Nat := none
  /-- octets of a DR_OUT word still unread (LOOSE), with how many; DR_OUT (12); none. -/
  drbgBuf : List Byte := []
  /-- SW_IDESC0 to SW_IDESC15, 36 bits each; Steward window (07); 0. -/
  idesc : Memory := []
  /-- Vault registers of the Hand; Vault window (11); 0. -/
  vault : HandVault := {}
  /-- release waits for the lane's operation to end; SW_RELEASE (07); false. -/
  laneReleasing : Bool := false
  /-- release waits for the slice's operation to end; SW_RELEASE (07); false. -/
  sliceReleasing : Bool := false
deriving DecidableEq, Repr

/-- The kinds of image in I-space (file 02). -/
inductive ImageKind where
  | wardenResident | commonHandler | almanac (index : Nat)
deriving DecidableEq, Repr

/-- An image region of a core's I-RAM (file 02, R56 to R58). -/
structure Region where
  /-- first I-space address; I-space (02); none placed at core reset. -/
  base : Nat
  /-- length in words; I-space (02). -/
  size : Nat
  /-- which image; I-space (02). -/
  kind : ImageKind
deriving DecidableEq, Repr

/-- One ACU rule (file 13). -/
structure AcuRule where
  /-- BASE; ACU rule registers (13); 0. -/
  base : Word := 0
  /-- LIMIT; ACU rule registers (13); 0. -/
  limit : Word := 0
  /-- PERM; ACU rule registers (13); 0. -/
  perm : Word := 0
deriving DecidableEq, Repr

/-- The rule set an ACU applies: its 16 rules and its control word (R475). -/
structure AcuRules where
  /-- BASE, LIMIT and PERM of rules 0 to 15; ACU registers (13); 0. -/
  rules : Assoc AcuRule := []
  /-- CA_CTRL, HA_CTRL or DA_CTRL: CBASE 16, DORDER 1, DCACHE 0, DEFAULT 300q; ACU registers (13); 004020_300q's bits, 1220300q. -/
  ctrl : Word := 0x1020C0#36
deriving DecidableEq, Repr

/-- One access control unit: core, Hamlet or device (file 13). -/
structure Acu where
  /-- the rule set as last written; R475 (13); reset values. -/
  rules : AcuRules := {}
  /-- the rule set before the writes not yet fenced, which an access may still be checked against; R480 (13); reset values. -/
  old : AcuRules := {}
  /-- writes no PFENCE of their Hand has covered: Hand, register offset, data; R480 (13); none. -/
  writers : List (Nat × Nat × Word) := []
  /-- VADDR, 30 bits; R481 (13); 0. -/
  vaddr : Nat := 0
  /-- VWORD, 30 bits; R481 (13); 0. -/
  vword : Nat := 0
  /-- VINFO, 36 bits; R481 (13); 0. -/
  vinfo : Word := 0
  /-- VCOUNT, 32 bits saturating; R481 (13); 0. -/
  vcount : Nat := 0
deriving DecidableEq, Repr

/-- One core (files 01, 04, 07). -/
structure Core where
  /-- I-RAM, 64 Ki words; I-space (02); DESIGN CHOICE zero words (log 4). -/
  iram : Memory := []
  /-- image regions; R56 (02); none. -/
  regions : List Region := []
  /-- Workspace, 32 Ki words; file 01; DESIGN CHOICE zero words (log 4). -/
  workspace : Memory := []
  /-- VEC_C.ENTRY, 16 bits; VEC_C (04); 0. -/
  vecC : BitVec 16 := 0
  /-- VEC_W.ENTRY, 16 bits; VEC_W (04); 0. -/
  vecW : BitVec 16 := 0
  /-- DELEG, 36 bits; DELEG (04); 0. -/
  deleg : Word := 0
  /-- IC_PEND.PEND bits 31:4; IC_PEND (04); 0. -/
  icPend : BitVec 32 := 0
  /-- IC_ROUTE4 to 31: HAND and EN; IC_ROUTE (04); 0. -/
  icRoute : Assoc Word := []
  /-- the core ACU; file 13; reset rules all 0. -/
  acu : Acu := {}
  /-- SW_CORE.IN_SERVICE is 0; SW_CORE (07); false (IN_SERVICE 1). -/
  outOfService : Bool := false
  /-- SW_CORE.EXPIRED; SW_CORE (07); 0. -/
  expired : Bool := false
  /-- SW_CORE.PERIOD, 32 bits; SW_CORE (07); 0. -/
  period : BitVec 32 := 0
  /-- ticks the watchdog has counted since the last instruction; R296 (07); 0. -/
  wdCount : Nat := 0
  /-- the Hand last run, for the rotation; R27 (01); DESIGN CHOICE 0 (log 5). -/
  lastHand : Nat := 0
deriving DecidableEq, Repr

/-- One Hamlet's shared state (file 01). -/
structure Hamlet where
  /-- Commons, 128 Ki words; file 01; DESIGN CHOICE zero words (log 4). -/
  commons : Memory := []
  /-- the Hamlet ACU; file 13; reset rules all 0. -/
  acu : Acu := {}
deriving DecidableEq, Repr

end Sys2Proof.Machine
end

