-- ==== Sys2Proof/Syntax.lean ====
section
/-!
DEFINITION. Sys2Proof/Syntax.lean: the commands the block takes, one constructor for each row of
the opcode table. The table gives its rows no operand fields: the operands below are the fields
the owning chapter's text gives the command, and what the outside world supplies with an event
(log 6).
-/
namespace Sys2Proof

/-- A device-wide Hand number, (Hamlet × 16 + core) × 4 + Hand (R433). -/
abbrev HandId := Fin 512
/-- A register field of an instruction (R109). -/
abbrev Reg := BitVec 5
/-- An 18-bit immediate or IO offset (R109). -/
abbrev Imm18 := BitVec 18
/-- A ring number (R225). -/
abbrev RingId := Fin 256

/-- The fields of configuration space the spec names (file 05). -/
inductive CfgField where
  /-- Configuration identity table. -/
  | vendorId | deviceId | revisionId | classCode | subVendorId | subsystemId | serialNumber
  /-- the lower and upper half of BAR0, BAR2 or BAR4 (R190). -/
  | bar (n : Fin 3) (high : Bool)
  /-- Bus Master Enable (R189), PME_En and No_Soft_Reset of PMCSR (R204, R207). -/
  | busMaster | pmeEn | noSoftReset
  /-- Message Control of MSI-X (R196, R199). -/
  | msixTableSize | msixEnable | msixFunctionMask
  /-- AER: status, mask and severity, and a word of the header log (R200). -/
  | aerUncor | aerUncorMask | aerSeverity | aerCor | aerCorMask | aerHeader (i : Fin 4)
  /-- PTM Enable (R218) and the completion timeout (R202). -/
  | ptmEnable | cplTimeout
  /-- DOE Status: Busy and Error (R211, R212). -/
  | doeBusy | doeError
  /-- the link as it trained (R187, R188). -/
  | linkSpeed | linkWidth | flitMode
  /-- the IDE stream: Secure state, PCRC (R215). -/
  | ideSecure | idePcrc
  /-- an end of its RID association block, the base or the limit (R215). -/
  | ideRid (limit : Bool)
  /-- an end of one of its address association blocks. -/
  | ideAddr (block limit : Bool)
  /-- L1 and L1.2 enabled (R188). -/
  | aspmL1 | l12
deriving DecidableEq, Repr

/-- The errors PCIe has an Endpoint report, but for those the device's own reads and refusals meet (R200). -/
inductive PcieError where
  | dataLink | flowControl | unexpectedCompletion | receiverOverflow | malformed | ecrc
  | receiver | badTlp | badDllp | replayRollover | replayTimeout
deriving DecidableEq, Repr

/-- A configuration request (R209). -/
inductive CfgReq where
  | read (field : CfgField)
  /-- a BAR's host address (R190). -/
  | bar (n : Fin 3) (address : Word64)
  /-- Bus Master Enable (R189). -/
  | busMaster (on : Bool)
  /-- PME_En (R207). -/
  | pmeEn (on : Bool)
  /-- MSI-X Enable and Function Mask (R199). -/
  | msix (enable mask : Bool)
  /-- AER masks and severity; the status bits written 1 clear (R200). -/
  | aerMask (uncor cor : BitVec 32)
  | aerSeverity (severity : BitVec 32)
  | aerClear (uncor cor : BitVec 32)
  /-- PTM Enable (R218). -/
  | ptmEnable (on : Bool)
  /-- completion timeout: disabled, else the default range or range A to D (R202). -/
  | cplTimeout (disabled : Bool) (range : Option (BitVec 2))
  /-- DOE Abort. -/
  | doeAbort
  /-- the IDE stream's RID association block, an address association block, and PCRC (R215). -/
  | ideRid (block : Option (BitVec 16 × BitVec 16))
  | ideAddr (block : Bool) (range : Word64 × Word64)
  | idePcrc (on : Bool)
  /-- L1 and L1.2 enabled (R188; Power states table). -/
  | aspm (l1 l12 : Bool)
  /-- the error kinds reported: correctable, non-fatal, fatal in bits 0 to 2 (R200). -/
  | report (kinds : BitVec 3)
  /-- no request: an error on the link, which has no row of its own (R200; log 8). -/
  | faulty (e : PcieError)
deriving DecidableEq, Repr

/-- The arrival is a link error. -/
def CfgReq.isFault (r : CfgReq) : Bool :=
  match r with
  | .faulty _ => true
  | _ => false

/-- What Warden firmware sets up by FW_READY for which the spec gives no register (log 93): the IDE policy
(HL_STATUS.IDE_REQUIRED) and certificate slot 1 (R214). -/
structure FirmwareSetup where
  ideRequired : Bool := false
  certSlot1 : Option (List Byte) := none
deriving DecidableEq, Repr

/-- A device read of host memory that gets no completion (R202). -/
inductive DmaRead where
  /-- a descriptor read by its number. -/
  | descriptors (n : RingId) (read : Nat)
  | buffer0 (h : HandId)
  | page (page : Nat)
  | laneSource (lane : Fin 16)
  | image (errand : Nat)
  | levels (share : Fin 4096)
  | recovery
deriving DecidableEq, Repr

/-- The grantable resource classes (R272). -/
inductive GrantClass where
  | lane | slice | rb | drbg
deriving DecidableEq, Repr

/-- What an owner reports of its share after OPEN or OPEN_NEW (R344, R347): this device's own
reads of levels 7 to 9, or a member's outcome. -/
inductive ShareReport where
  /-- the node octets of levels 7, 8 and 9 in order; none when a host read failed. -/
  | own (nodes : Option (List (List Byte)))
  /-- the state a member reports (0 CLOSED, 1 OPEN, 2 ABSENT, 3 STALE, 4 NO_RECORD, 5 NEW_REFUSED), a failed
  read of its levels 7 to 9, a record with FINAL 0, and its newest committed SEQ. -/
  | member (state : Fin 6) (readFailed rolledBack : Bool) (seq : BitVec 32)
deriving DecidableEq, Repr

/-- What WRITE_BACK writes (R327). -/
inductive WriteBackTarget where
  | page (page : Nat)
  | node (level index : Nat)
deriving DecidableEq, Repr

/-- The fields of LN_GO that the mode and direction do not fix. -/
structure LaneGo where
  afcont : Bool
  taglen : BitVec 4
  nonce : BitVec 4
  pack : BitVec 2
  dst : BitVec 2
  srck : BitVec 2
  words : BitVec 7
deriving DecidableEq, Repr

/-- The fields of PK_CMD that the operation does not fix. -/
structure PkFlags where
  pset : Byte
  outv : Bool
  ksrc : Bool
  purp : Bool
  scheme : Bool
  dlen : BitVec 2
deriving DecidableEq, Repr

/-- The continuous health tests (R450). -/
inductive HealthTest where
  | repetition | proportion
deriving DecidableEq, Repr

/-- The ACU whose control register is written (file 13): the Hand's core's, its Hamlet's, or the device's. -/
inductive AcuUnit where
  | core | hamlet | device
deriving DecidableEq, Repr

/-- A received flit's header, and what the link layer found of it (R512 to R515). A message of several
flits takes effect with its last one, whose MORE is 0. -/
structure FlitHead where
  seq : BitVec 10
  ack : BitVec 10
  crcOk : Bool
  tagOk : Bool
  /-- CLASS: 0 CONTROL, 1 CONTRACTED, 2 BEST_EFFORT. -/
  cls : Fin 3 := 0
  /-- LEN, 0 to 234. -/
  len : Fin 235 := 0
  /-- MORE: the message goes on in the next flit of the class. -/
  more : Bool := false
deriving DecidableEq, Repr

/-- The messages CONTROL flits carry (R519). -/
inductive ControlMsg where
  /-- PREPARE of a checkpoint (Checkpoint ladder). -/
  | prepare (seq : Nat) (final : Bool)
  /-- an owner reports ready. -/
  | ready (path : Word)
  /-- COMMIT of a checkpoint. -/
  | commit (seq : Nat)
  /-- stop of a forwarded errand (R532). -/
  | stop (htag : BitVec 16)
  /-- a member's capacity report (R533). -/
  | capacity (path : Word) (gov : BitVec 2) (cores lanes seqSlices macSlices frames : Nat)
  /-- the loss of the device below a link (R537). -/
  | loss (path : Word)
  /-- the smallest tolerance in force (R535). -/
  | tolerance (ns : Nat)
  /-- step 6 of JOIN at the member: path, device number, Tally and the wrapped group key (R525). -/
  | joined (path : Word) (devnum : BitVec 12) (tally : Nat) (groupKey : List Byte)
  /-- an Almanac for the device at a path, to be loaded at an index (R255, R257, JOIN ladder step 8). -/
  | almanac (path : Word) (index : BitVec 16) (image : List Byte)
  /-- how a member's loader ended (JOIN ladder step 8). -/
  | loaded (path : Word) (index : BitVec 16) (ok : Bool)
  /-- an Almanac is unloading (R259). -/
  | unload (index : BitVec 16)
  /-- OPEN or OPEN_NEW, for the device at a path or, with 0, for every owner: base, pages and the valid map
  entries as index, FIRST, COUNT and PATH (R344, R347, R540). -/
  | store (target : Word) (new : Bool) (base : Word64) (pages : Nat) (shares : List (BitVec 12 × BitVec 30 × BitVec 31 × Word))
  /-- CLOSE (Store states table). -/
  | closing
  /-- a checkpoint is abandoned (R335). -/
  | abandon (seq : Nat)
  /-- ROTATE (R348). -/
  | rotate
  /-- the CT_MEMLAT figure in force (R350). -/
  | memlat (ns : BitVec 32)
  /-- the outcome of an owner's opening and its newest committed SEQ (R344 to R347). -/
  | share (path : Word) (report : ShareReport)
  /-- an owner's live epochs and the pages its sweeper has left (R348, EP_STATUS). -/
  | epochs (path : Word) (two : Bool) (left : Nat)
  /-- an owner holds a checkpoint token (R339). -/
  | token (path : Word)
  /-- a miss waited for a checkpoint's end (R292, R334). -/
  | late (path : Word)
  /-- a JOIN offer that a PRESENT parent relays (JOIN). -/
  | offer (path : Word) (serial : Word64)
  /-- the master has refused the JOIN of the device below a parent (R524). -/
  | refused (path : Word)
  /-- a forwarded errand has taken its Hand (R269). -/
  | started (htag : BitVec 16)
  /-- the contract of a forwarded errand has become BROKEN, or is so no more (R289). -/
  | rank (htag : BitVec 16) (demoted : Bool)
  /-- a member's part of the Store has a failure code (R310, ST_STATUS.CODE). -/
  | storeCode (path : Word) (code : Byte)
  /-- an owner has dropped its part of a checkpoint (R343). -/
  | dropped (path : Word) (seq : Nat)
  /-- an owner has programmed its record of a checkpoint (R333, R337). -/
  | committed (path : Word) (seq : Nat)
  /-- one end of a link takes new keys in step with the other (R517). -/
  | keyUpdate
deriving DecidableEq, Repr

/-- An errand carried over Baton (R528). -/
structure ErrandMsg where
  target : Word
  htag : BitVec 16
  descriptor : List Byte
  deadline : Option Nat
  /-- the SQ the errand came from, which the Errand Window shows (R248). -/
  sq : BitVec 8
deriving DecidableEq, Repr

/-- A completion carried over Baton (R529). -/
structure CompletionMsg where
  device : Word
  htag : BitVec 16
  status : Byte
  result : Word
  execPath : Word
  detail : BitVec 32
deriving DecidableEq, Repr

/-- A tunnel read, its answer, or a tunnel write (R530). -/
structure TunnelMsg where
  device : Word
  htag : BitVec 16
  address : Word64
  length : Nat
  data : Option (List Byte)
deriving DecidableEq, Repr

/-- A remote register access or its answer (R543). -/
inductive RemoteMsg where
  | request (target : Word) (address : Word) (write : Option Word)
  | answer (status : Byte) (data : Word)
deriving DecidableEq, Repr

/-- A JOIN offer (R521). -/
structure JoinOffer where
  path : Word
  serial : Word64
deriving DecidableEq, Repr

/-- What the JOIN engine's SPDM session established (R522). -/
structure JoinSession where
  signaturesOk : Bool
  chainsOk : Bool
  lc : Byte
  mode : BitVec 4
  meas : List Byte
  /-- the session's export master secret (R525). -/
  secret : List Byte
deriving DecidableEq, Repr

/-- Who asks for a life-cycle advance (R574). -/
inductive LcRequester where
  /-- an OUT of LC_ADVANCE with its CONFIRM octet. -/
  | hand (h : HandId) (confirm : Byte)
  /-- the mailbox command. -/
  | mailbox
deriving DecidableEq, Repr

/-- The mailbox TRACE command's action. -/
inductive TraceOp where
  | start | stop | read
deriving DecidableEq, Repr

/-- What the boot ROM's tests find after the debug window (Start-up ladder, steps 5 to 9). -/
structure BootTests where
  katOk : Bool
  badLanes : List (Fin 16)
  badSlices : List (Fin 16)
  badMonitors : List (Fin 28)
deriving DecidableEq, Repr

/-- One card as SEAT finds it. -/
structure CardFound where
  serial : Word64
  count : BitVec 32
deriving DecidableEq, Repr

/-- How a gate operation ended at the card (file 20). -/
inductive CardAnswer where
  /-- success, with the octets the card returned. -/
  | ok (octets : List Byte)
  /-- ISO ACTIVATE succeeded: class, protocol T=1, clock stop allowed at level. -/
  | atr (cls : BitVec 2) (t1 : Bool) (clockStop : Option Bool) (octets : List Byte)
  /-- SEAT found these cards, with the width, divider and whether a ninth card stayed unseated. -/
  | seated (cards : List CardFound) (width4 : Bool) (clkdiv : BitVec 7) (ninth : Bool)
  /-- a WRITE was acknowledged after the seal edge with the new COUNT. -/
  | committed (count : BitVec 32)
  /-- no answer. -/
  | noAnswer
  /-- a protocol or frame failure with the card present. -/
  | protocol
  /-- the card refused. -/
  | denied
  /-- the card was removed before the INTENT line verified, or in a read. -/
  | removedEarly
  /-- the card was removed after the intent and before the seal edge. -/
  | removed
deriving DecidableEq, Repr

/-- How far a tag page write ran (R677, R678). -/
inductive WriteStage where
  /-- all three steps, and the check passed. -/
  | complete
  /-- all three steps, and the check failed. -/
  | checkFailed
  /-- interrupted in step 1 or 2. -/
  | beforeMarker
  /-- interrupted in step 3: the marker is torn. -/
  | torn
deriving DecidableEq, Repr

/-- The BARs of R190. -/
inductive Bar where
  | bar0 | bar2 | bar4
deriving DecidableEq, Repr

/-- A plain register access (R18): a write through the IO space, or a host write or read of a BAR. -/
inductive RegWrite where
  /-- an OUT of a Hand. -/
  | io (h : HandId) (address : BitVec 18) (data : Word)
  /-- a host write of some octets, inside the IDE stream or outside it (R191, R194, R216). -/
  | write (bar : Bar) (offset : Nat) (size : Nat) (data : Word64) (inStream : Bool)
  /-- a host read (R191, R192, R216). -/
  | read (bar : Bar) (offset : Nat) (size : Nat) (inStream : Bool)
deriving DecidableEq, Repr

/-- The commands of the block. -/
inductive Instr where
  -- Ramua instructions: (hand, fields a b c in the encoding's order) (file 03).
  /-- NOP (R136): Executes no operation. -/
  | nop (h : HandId)
  /-- MFENCE (R100): Completes only after every earlier D-space access of the Hand has been performed and is visible. -/
  | mfence (h : HandId)
  /-- IOFENCE (R101): Completes only after every earlier IN and OUT of the Hand has been accepted by its block. -/
  | iofence (h : HandId)
  /-- PFENCE (R480): Waits until every ACU the Hand has written applies the new rules. -/
  | pfence (h : HandId)
  /-- ERET (R169): Returns from a supervisor level by restoring PC and ST from ERA and EST after the forge checks. -/
  | eret (h : HandId)
  /-- RET (R88): Pops the return stack of the current world and jumps to the popped address. -/
  | ret (h : HandId)
  /-- JR (R134): Jumps to the address in b[15:0]. -/
  | jr (h : HandId) (b : Reg)
  /-- CALLR (R134): Pushes PC+1 on the return stack and jumps to b[15:0]. -/
  | callr (h : HandId) (b : Reg)
  /-- MFS (R70): Copies a special register into a general register, subject to the level checks. -/
  | mfs (h : HandId) (a c : Reg)
  /-- MTS (R74): Copies a general register into a special register, changing only the fields the level may write. -/
  | mts (h : HandId) (b c : Reg)
  /-- DONE (R138): Fences, ends the errand with a status and a result word, and moves the Hand to RELEASING. -/
  | done (h : HandId) (a b : Reg)
  /-- YIELD (R140): Moves the Hand to READY. -/
  | yield (h : HandId)
  /-- WAIT (R141): Returns a latched event word at once, or blocks the Hand until the selected event arrives. -/
  | wait (h : HandId) (a b : Reg)
  /-- SYSCALL (R136): Places b in FAA and raises the system call exception. -/
  | syscall (h : HandId) (b : Reg)
  /-- BRK (R136): Raises the breakpoint exception, or halts the Hand under debug. -/
  | brk (h : HandId)
  /-- PKCLR (R143): Zero-fills the operand memory of the granted PK slice. -/
  | pkclr (h : HandId)
  /-- ADD (R116): Adds two registers modulo 2^36 and writes the carry. -/
  | add (h : HandId) (a b c : Reg)
  /-- ADDV (R117): Adds two registers and raises overflow on signed overflow. -/
  | addv (h : HandId) (a b c : Reg)
  /-- SUB (R116): Subtracts two registers modulo 2^36 and writes the borrow. -/
  | sub (h : HandId) (a b c : Reg)
  /-- SUBV (R117): Subtracts two registers and raises overflow on signed overflow. -/
  | subv (h : HandId) (a b c : Reg)
  /-- ADC (R116): Adds two registers and CY. -/
  | adc (h : HandId) (a b c : Reg)
  /-- SBC (R116): Subtracts a register and CY from a register. -/
  | sbc (h : HandId) (a b c : Reg)
  /-- AND (R116): Bitwise AND of two registers. -/
  | and (h : HandId) (a b c : Reg)
  /-- OR (R116): Bitwise OR of two registers. -/
  | or (h : HandId) (a b c : Reg)
  /-- XOR (R116): Bitwise XOR of two registers. -/
  | xor (h : HandId) (a b c : Reg)
  /-- ANDN (R116): Bitwise AND of b with the complement of c. -/
  | andn (h : HandId) (a b c : Reg)
  /-- SLL (R116): Shifts left by a register count. -/
  | sll (h : HandId) (a b c : Reg)
  /-- SRL (R116): Shifts right with zero fill by a register count. -/
  | srl (h : HandId) (a b c : Reg)
  /-- SRA (R116): Shifts right with sign fill by a register count. -/
  | sra (h : HandId) (a b c : Reg)
  /-- ROR (R116): Rotates right by a register count modulo 36. -/
  | ror (h : HandId) (a b c : Reg)
  /-- SLT (R116): Sets 1 when b is less than c, signed. -/
  | slt (h : HandId) (a b c : Reg)
  /-- SLTU (R116): Sets 1 when b is less than c, unsigned. -/
  | sltu (h : HandId) (a b c : Reg)
  /-- SEQ (R116): Sets 1 when b equals c. -/
  | seq (h : HandId) (a b c : Reg)
  /-- CLZ (R116): Counts the leading zero bits of b. -/
  | clz (h : HandId) (a b : Reg)
  /-- MUL (R119): Writes the low 36 bits of the product. -/
  | mul (h : HandId) (a b c : Reg)
  /-- MULH (R119): Writes the high 36 bits of the signed product. -/
  | mulh (h : HandId) (a b c : Reg)
  /-- MULHU (R119): Writes the high 36 bits of the unsigned product. -/
  | mulhu (h : HandId) (a b c : Reg)
  /-- MULV (R121): Multiplies and raises overflow when the signed product does not fit. -/
  | mulv (h : HandId) (a b c : Reg)
  /-- DIV (R120): Signed division truncated toward zero. -/
  | div (h : HandId) (a b c : Reg)
  /-- DIVU (R119): Unsigned division. -/
  | divu (h : HandId) (a b c : Reg)
  /-- REM (R119): Signed remainder with the sign of b. -/
  | rem (h : HandId) (a b c : Reg)
  /-- REMU (R119): Unsigned remainder. -/
  | remu (h : HandId) (a b c : Reg)
  /-- DADD (R122): BCD addition digit by digit. -/
  | dadd (h : HandId) (a b c : Reg)
  /-- DSUB (R122): BCD subtraction digit by digit. -/
  | dsub (h : HandId) (a b c : Reg)
  /-- DADC (R122): BCD addition with carry in. -/
  | dadc (h : HandId) (a b c : Reg)
  /-- DSBC (R122): BCD subtraction with borrow in. -/
  | dsbc (h : HandId) (a b c : Reg)
  /-- DCVT_BD (R123): Converts binary to nine-digit BCD and flags an overflow in CY. -/
  | dcvtBd (h : HandId) (a b : Reg)
  /-- DCVT_DB (R123): Converts BCD to binary. -/
  | dcvtDb (h : HandId) (a b : Reg)
  /-- EXT (R125): Extracts a bit field zero-extended. -/
  | ext (h : HandId) (a b : Reg) (pos widthM1 : BitVec 6)
  /-- INS (R125): Inserts the low bits of b into a bit field of a. -/
  | ins (h : HandId) (a b : Reg) (pos widthM1 : BitVec 6)
  /-- ADDI (R118): Adds a sign-extended immediate. -/
  | addi (h : HandId) (a b : Reg) (imm : Imm18)
  /-- ADDIV (R118): Adds an immediate and raises overflow on signed overflow. -/
  | addiv (h : HandId) (a b : Reg) (imm : Imm18)
  /-- ANDI (R118): ANDs a zero-extended immediate. -/
  | andi (h : HandId) (a b : Reg) (imm : Imm18)
  /-- ORI (R118): ORs a zero-extended immediate. -/
  | ori (h : HandId) (a b : Reg) (imm : Imm18)
  /-- XORI (R118): XORs a zero-extended immediate. -/
  | xori (h : HandId) (a b : Reg) (imm : Imm18)
  /-- LUI (R118): Loads an immediate into bits 35:18. -/
  | lui (h : HandId) (a : Reg) (imm : Imm18)
  /-- SLTI (R118): Signed compare with an immediate. -/
  | slti (h : HandId) (a b : Reg) (imm : Imm18)
  /-- SLTIU (R118): Unsigned compare with an immediate. -/
  | sltiu (h : HandId) (a b : Reg) (imm : Imm18)
  /-- SLLI (R118): Shifts left by an immediate count. -/
  | slli (h : HandId) (a b : Reg) (imm : Imm18)
  /-- SRLI (R118): Shifts right with zero fill by an immediate count. -/
  | srli (h : HandId) (a b : Reg) (imm : Imm18)
  /-- SRAI (R118): Shifts right with sign fill by an immediate count. -/
  | srai (h : HandId) (a b : Reg) (imm : Imm18)
  /-- RORI (R118): Rotates right by an immediate count. -/
  | rori (h : HandId) (a b : Reg) (imm : Imm18)
  /-- LD (R127): Loads a D-space word with the load delay. -/
  | ld (h : HandId) (a b : Reg) (imm : Imm18)
  /-- ST (R127): Stores a word to D-space. -/
  | st (h : HandId) (a b : Reg) (imm : Imm18)
  /-- LWR (R127): Loads a word and sets the reservation on its address. -/
  | lwr (h : HandId) (a b : Reg) (imm : Imm18)
  /-- SWC (R106): Stores only when the reservation is held, writes the success flag, and clears the reservation. -/
  | swc (h : HandId) (a b : Reg) (imm : Imm18)
  /-- ILD (R60): Reads an I-space word at WS. -/
  | ild (h : HandId) (a b : Reg) (imm : Imm18)
  /-- IN (R130): Reads an IO-space register with the load delay. -/
  | inp (h : HandId) (a b : Reg) (io : Imm18)
  /-- OUT (R130): Writes an IO-space register. -/
  | out (h : HandId) (a b : Reg) (io : Imm18)
  /-- JMP (R134): Jumps to an absolute target. -/
  | jmp (h : HandId) (target : BitVec 16)
  /-- CALL (R88): Pushes the return address and jumps to the target. -/
  | call (h : HandId) (target : BitVec 16)
  /-- BEQ (R134): Branches when a equals b. -/
  | beq (h : HandId) (a b : Reg) (target : BitVec 16)
  /-- BNE (R134): Branches when a differs from b. -/
  | bne (h : HandId) (a b : Reg) (target : BitVec 16)
  /-- BLT (R134): Branches when a is less than b, signed. -/
  | blt (h : HandId) (a b : Reg) (target : BitVec 16)
  /-- BGE (R134): Branches when a is at least b, signed. -/
  | bge (h : HandId) (a b : Reg) (target : BitVec 16)
  /-- BLTU (R134): Branches when a is less than b, unsigned. -/
  | bltu (h : HandId) (a b : Reg) (target : BitVec 16)
  /-- BGEU (R134): Branches when a is at least b, unsigned. -/
  | bgeu (h : HandId) (a b : Reg) (target : BitVec 16)
  /-- WMOV (R146): Copies a run of words in ascending order after checking the whole run. -/
  | wmov (h : HandId) (a b c : Reg) (cut : Option Nat)
  /-- WFILL (R144): Fills a run of words with a value. -/
  | wfill (h : HandId) (a b c : Reg) (cut : Option Nat)
  /-- WSUM_CRC (R144): Updates a CRC-32C accumulator over a run of words. -/
  | wsumCrc (h : HandId) (a b c : Reg) (cut : Option Nat)
  /-- WSUM_ADD (R144): Adds a run of words into an accumulator. -/
  | wsumAdd (h : HandId) (a b c : Reg) (cut : Option Nat)
  /-- MACN (R391): Delivers a run of words to the granted slice's MAC stream. -/
  | macn (h : HandId) (a b c : Reg) (cut : Option Nat)
  /-- RESERVED_OPCODE (R110): An instruction word with an unassigned encoding raises the illegal-instruction exception. -/
  | reservedOpcode (h : HandId) (word : Word)
  -- Traps, interrupts and timers (file 04).
  /-- INTERRUPT (R174): A takeable pending interrupt is taken at an instruction boundary or from a blocked Hand. -/
  | interrupt (h : HandId)
  /-- IMPRECISE_EXCEPTION (R165): A pending imprecise arithmetic exception is taken at the first boundary that ends its shadow. -/
  | impreciseException (h : HandId)
  /-- HAND_TIMER_EXPIRY (R182): A Hand timer reaches zero, sets EXPIRED, counts the event and reloads or stops. -/
  | handTimerExpiry (h : HandId)
  /-- IC_SWI (R171): A write makes software interrupt sources pending. -/
  | icSwi (h : HandId) (set : BitVec 4)
  -- The host link (file 05).
  /-- PERST_N (R689): Assertion of PERST_N performs a device reset held while it stays asserted. -/
  | perstN
  /-- HOT_RESET (R208): A PCIe Hot Reset acts as an assertion of PERST_N. -/
  | hotReset
  /-- DL_DOWN (R208): Loss of the PCIe Data Link Layer acts as an assertion of PERST_N. -/
  | dlDown
  /-- D3COLD (R208): Entry to D3cold acts as an assertion of PERST_N. -/
  | d3cold
  /-- D3HOT (R206): Entry to D3hot stops DMA and MSI-X and puts the device in Nap. -/
  | d3hot
  /-- D0 (R204): A return from D3hot to D0 keeps every register, ring, contract and frame. -/
  | d0
  /-- LINK_UP (R209): The PCIe Data Link Layer comes up and configuration requests start to be answered. -/
  | linkUp (rates : BitVec 7) (widths : BitVec 5) (flit : Bool)
  /-- CONFIG_REQUEST (R209): A configuration request is answered, with Retry Status while FW_READY is 0. -/
  | configRequest (req : CfgReq)
  /-- READINESS_TIMEOUT (R210): At 900 ms after PERST_N with FW_READY still 0, Retry Status ends. -/
  | readinessTimeout
  /-- FAST_STATUS_READ (R221): A BAR2 read is answered from the Fast Status Window without firmware. -/
  | fastStatusRead (offset len : Nat)
  /-- HL_CTRL (R195): A write of HL_CTRL sets quiesce, PTM and event controls and makes source 26 pending on every core. -/
  | hlCtrl (data : Word64)
  /-- MSIX_UNMASK (R199): Unmasking a vector with its pending bit set sends one message. -/
  | msixUnmask (vector : Nat)
  /-- DOE_REQUEST (R212): A data object written to the DOE mailbox is accepted or discarded with DOE Error. -/
  | doeRequest (object : List Byte)
  /-- IDE_INSECURE (R217): The IDE stream leaves the Secure state, stopping fetch and DMA while IDE is required. -/
  | ideInsecure
  /-- IDE_SECURE (R217): The IDE stream returns to Secure and fetch and DMA resume. -/
  | ideSecure (keySet : Bool) (keys : List (List Byte × List Byte))
  /-- PTM_INTERVAL (R218): The PTM interval elapses and the device makes a PTM request. -/
  | ptmInterval
  /-- PTM_RESPONSE (R219): A PTM exchange completes and the Tally steps or slews toward the target. -/
  | ptmResponse (masterNs : Nat)
  /-- COMPLETION_TIMEOUT (R202): A device read receives no completion within the timeout range. -/
  | completionTimeout (read : DmaRead)
  -- Rings and errands (file 06).
  /-- RG_SQ_BASE (R227): A write of the SQ base address, refused while the field is guarded. -/
  | rgSqBase (n : RingId) (data : Word64)
  /-- RG_CQ_BASE (R227): A write of the CQ base address, refused while the field is guarded. -/
  | rgCqBase (n : RingId) (data : Word64)
  /-- RG_SIZE (R227): A write of the ring depths, refused for guarded fields. -/
  | rgSize (n : RingId) (data : Word64)
  /-- RG_CTRL (R226): A write of ring controls that enables, disables or selects, with enable refusal under the stated checks. -/
  | rgCtrl (n : RingId) (data : Word64)
  /-- RG_RESET_SQ (R230): Resets SQ n, stopping every errand fetched from it without completions. -/
  | rgResetSq (n : RingId)
  /-- SQ_RESET_DONE (R230): Once every resource of its errands is freed, a resetting SQ becomes DISABLED. -/
  | sqResetDone (n : RingId)
  /-- RG_RESET_CQ (R229): Resets CQ n unless the reset is guarded. -/
  | rgResetCq (n : RingId)
  /-- CQ_RESET_DONE (R229): A resetting CQ clears its state and becomes DISABLED. -/
  | cqResetDone (n : RingId)
  /-- DOORBELL_SQ_TAIL (R234): A doorbell write sets SQ_TAIL, or moves the SQ to ERROR with DB_RANGE. -/
  | doorbellSqTail (n : RingId) (tail : BitVec 16)
  /-- DOORBELL_CQ_HEAD (R234): A doorbell write sets CQ_HEAD, or moves the selecting SQs to ERROR with DB_RANGE. -/
  | doorbellCqHead (n : RingId) (head : BitVec 16)
  /-- DESCRIPTOR_FETCH (R236): The Steward issues a descriptor read for an SQ once the fetch conditions hold. -/
  | descriptorFetch
  /-- DESCRIPTOR_ARRIVAL (R726): A descriptor read arrives, and the descriptors become fetched errands in index order. -/
  | descriptorArrival (n : RingId) (read : Nat) (data : Option (List (List Byte)))
  /-- HAND_ALLOCATE (R271): The Steward admits a waiting errand to a free Hand and starts LOADING. -/
  | handAllocate
  /-- ERRAND_START (R76): With the partition zeroed and the Errand Window filled, the Hand becomes READY in its initial state. -/
  | errandStart (h : HandId) (buf0 : Option (List Byte))
  /-- COMPLETION_WRITE (R244): After the errand's operations end, the Steward writes back INOUT data and the completion, frees resources and raises MSI-X. -/
  | completionWrite (e : Nat) (bufferOk cqOk : Bool)
  /-- LOAD (R255): A LOAD errand checks, verifies and places an Almanac image, issuing a new index. -/
  | load (e : Nat) (image : Option (List Byte)) (room : Option Nat)
  /-- UNLOAD (R259): An UNLOAD errand marks an Almanac as unloading. -/
  | unload (e : Nat)
  /-- UNLOAD_COMPLETE (R259): Once every earlier errand of the Almanac has ended, its regions are freed and the UNLOAD completes. -/
  | unloadComplete (e : Nat)
  /-- CHECKPOINT (R336): A CHECKPOINT errand asks for a checkpoint and waits for one to commit. -/
  | checkpoint (e : Nat)
  /-- SW_ISUBMIT (R297): Submits a staged internal errand, or discards it when the internal queue is full. -/
  | swIsubmit (h : HandId) (reldl : BitVec 32)
  /-- SW_ICPL7_READ (R297): A read of SW_ICPL7 removes the head internal completion. -/
  | swIcpl7Read (h : HandId)
  -- The Steward (file 07).
  /-- GRANT_LANE (R273): Requests a cipher lane grant. -/
  | grantLane (h : HandId)
  /-- GRANT_SLICE_SEQ (R385): Requests a slice in SEQUENCER mode. -/
  | grantSliceSeq (h : HandId)
  /-- GRANT_SLICE_MAC (R385): Requests a slice in MAC mode. -/
  | grantSliceMac (h : HandId)
  /-- GRANT_RB (R272): Requests Release Buffer space. -/
  | grantRb (h : HandId) (kib : BitVec 12)
  /-- GRANT_DRBG (R272): Requests a DRBG instance. -/
  | grantDrbg (h : HandId)
  /-- RELEASE_LANE (R272): Frees the errand's lane grant after any running operation. -/
  | releaseLane (h : HandId)
  /-- RELEASE_SLICE (R272): Frees the errand's slice grant after any running operation. -/
  | releaseSlice (h : HandId)
  /-- RELEASE_RB (R272): Frees the errand's Release Buffer space. -/
  | releaseRb (h : HandId)
  /-- RELEASE_DRBG (R272): Frees the errand's DRBG instance. -/
  | releaseDrbg (h : HandId)
  /-- GRANT_DELIVER (R274): A unit that becomes free is granted to the first waiting request. -/
  | grantDeliver (cls : GrantClass)
  /-- HANDBACK (R276): At a safe point the Steward saves a holder's unit state and grants the unit to a contracted waiter. -/
  | handback (cls : GrantClass) (unit : Fin 16)
  /-- HANDBACK_RESTORE (R277): The former holder gets a unit again with its saved state restored. -/
  | handbackRestore (h : HandId) (cls : GrantClass)
  /-- CORE_NS_OVERRUN (R279): An errand exceeds its declared core time and is stopped with OVERRUN. -/
  | coreNsOverrun (h : HandId)
  /-- SW_STOP (R280): Warden firmware stops an errand by device tag. -/
  | swStop (h : HandId) (dtag : BitVec 12) (code : Byte)
  /-- SW_SLICE_MODE (R384): A write selects slice modes, to take effect when each slice is next free. -/
  | swSliceMode (h : HandId) (seq : BitVec 16)
  /-- SLICE_MODE_CHANGE (R384): A free slice changes mode and is zero-filled. -/
  | sliceModeChange (slice : Fin 16)
  /-- CORE_OUT_OF_SERVICE (R296): Writing IN_SERVICE 0 stops the core's errands with CORE_RESET and takes it out of service. -/
  | coreOutOfService (h : HandId) (core : Fin 128)
  /-- CORE_RETURN (R290): Writing IN_SERVICE 1 returns a core to service and starts a re-test. -/
  | coreReturn (h : HandId) (core : Fin 128)
  /-- CORE_WATCHDOG_EXPIRY (R35): A core watchdog expires, and the core's errands complete with CORE_RESET. -/
  | coreWatchdogExpiry (core : Fin 128)
  /-- SET (R283): Runs the admission test for a staged contract and installs it when it passes. -/
  | set (ring : RingId)
  /-- REMOVE (R284): Removes a ring's contract. -/
  | remove (ring : RingId)
  /-- CT_MEMLAT (R290): A write of the memory latency bound starts a re-test. -/
  | ctMemlat (memlat : BitVec 32)
  /-- DEADLINE_PASSED (R267): A running errand's deadline passes and DEADLINE_PASSED is latched. -/
  | deadlinePassed (e : Nat)
  /-- MEMLAT_EXCEEDED (R292): A host read outlasts MEMLAT and the affected contracts go AT_RISK. -/
  | memlatExceeded (member : Option Word)
  /-- MEMLAT_CAUSE_CLEAR (R292): After 1 s without a late read, the MEMLAT cause clears. -/
  | memlatCauseClear
  -- The Sealed Store (file 08).
  /-- STORE_OPEN (R344): Opens the Store, with each owner restoring its newest record. -/
  | storeOpen
  /-- STORE_OPEN_NEW (R347): Opens a new Store with fresh keys and zero roots. -/
  | storeOpenNew
  /-- STORE_CLOSE (R305): Moves the Store to CLOSING pending a FINAL checkpoint. -/
  | storeClose
  /-- SHARE_OPEN_COMPLETE (R344): An owner finishes verifying its top tree levels and its share becomes OPEN, STALE or CLOSED. -/
  | shareOpenComplete (share : Fin 4096) (report : ShareReport)
  /-- ST_MAP_OWNER (R304): An access to ST_MAP_OWNER advances the map index. -/
  | stMapOwner (write : Option Word64)
  /-- SOPEN (R322): Opens an Aperture slot on a page, starting a page-in when it is not resident. -/
  | sopen (h : HandId) (rdonly : Bool) (src : BitVec 2) (slot : BitVec 6)
  /-- SCLOSE (R63): Closes an Aperture slot. -/
  | sclose (h : HandId) (slot : BitVec 6)
  /-- PIN (R323): Makes a page resident and keeps it so. -/
  | pin (h : HandId) (page : BitVec 30)
  /-- UNPIN (R735): Ends a page's pin. -/
  | unpin (h : HandId) (page : BitVec 30)
  /-- PAGE_IN_START (R734): A queued page-in starts once fewer than 64 run and a frame is available. -/
  | pageInStart (nodes : List (Option (List Byte)))
  /-- PAGE_IN_COMPLETE (R324): A page-in finishes verification and every waiting Hand becomes READY. -/
  | pageInComplete (page : Nat) (data : Option (List Byte)) (nodes : List (Option (List Byte)))
  /-- WRITE_BACK (R327): The Granary seals and writes back a dirty frame or node under the current epoch. -/
  | writeBack (target : WriteBackTarget) (nodes : List (Option (List Byte)))
  /-- CK_CTRL (R333): A write of the checkpoint controls restarts the interval count. -/
  | ckCtrl (data : Word64)
  /-- CHECKPOINT_INTERVAL (R333): The periodic checkpoint interval elapses. -/
  | checkpointInterval
  /-- CHECKPOINT_START (R339): A checkpoint starts once every owner holds a token, sending PREPARE. -/
  | checkpointStart
  /-- CHECKPOINT_READY (R333): Once every owner has reported, READY is published to the host. -/
  | checkpointReady
  /-- CK_ACK (R333): The host acknowledges the checkpoint and COMMIT is sent. -/
  | ckAck (data : Word64)
  /-- CHECKPOINT_DONE (R333): Once records are programmed, freezes end and the committed SEQ is published. -/
  | checkpointDone
  /-- CHECKPOINT_ABANDONED (R335): No ACK arrives within TIMEOUT and the checkpoint is abandoned. -/
  | checkpointAbandoned
  /-- PFW_N_FALL (R341): PFW_N is recognised as asserted and the power-fail ladder runs. -/
  | pfwNFall
  /-- PFW_N_RESUME (R343): PFW_N has been high for 10 ms with rails in range, and suspended work resumes. -/
  | pfwNResume
  /-- ROTATE (R348): Starts a new epoch on every OPEN share and starts the sweepers. -/
  | rotate
  /-- SWEEP_PAGE (R349): The sweeper visits the next page of its share and re-seals it when needed. -/
  | sweepPage (data : Option (List Byte)) (nodes : List (Option (List Byte)))
  -- Cipher lanes (file 09).
  /-- ECB_ENCRYPT (R362): Starts an AES-ECB encryption. -/
  | ecbEncrypt (h : HandId) (go : LaneGo)
  /-- ECB_DECRYPT (R362): Starts an AES-ECB decryption. -/
  | ecbDecrypt (h : HandId) (go : LaneGo)
  /-- CBC_ENCRYPT (R362): Starts an AES-CBC encryption. -/
  | cbcEncrypt (h : HandId) (go : LaneGo)
  /-- CBC_DECRYPT (R362): Starts an AES-CBC decryption. -/
  | cbcDecrypt (h : HandId) (go : LaneGo)
  /-- CTR_ENCRYPT (R362): Starts an AES-CTR operation with an ENCRYPT_ONLY key. -/
  | ctrEncrypt (h : HandId) (go : LaneGo)
  /-- CTR_DECRYPT (R362): Starts an AES-CTR operation with a DECRYPT_ONLY key. -/
  | ctrDecrypt (h : HandId) (go : LaneGo)
  /-- GCM_ENCRYPT (R362): Starts an AES-GCM encryption that outputs the tag. -/
  | gcmEncrypt (h : HandId) (go : LaneGo)
  /-- GCM_DECRYPT (R374): Starts an AES-GCM decryption that releases plaintext only after the tag checks. -/
  | gcmDecrypt (h : HandId) (go : LaneGo)
  /-- CCM_ENCRYPT (R362): Starts an AES-CCM encryption. -/
  | ccmEncrypt (h : HandId) (go : LaneGo)
  /-- CCM_DECRYPT (R374): Starts an AES-CCM decryption through the Release Buffer. -/
  | ccmDecrypt (h : HandId) (go : LaneGo)
  /-- CMAC_GENERATE (R359): Computes an AES-CMAC tag into LN_TAG. -/
  | cmacGenerate (h : HandId) (go : LaneGo)
  /-- CMAC_VERIFY (R375): Verifies an AES-CMAC tag read from the source. -/
  | cmacVerify (h : HandId) (go : LaneGo)
  /-- XTS_ENCRYPT (R362): Starts an XTS-AES encryption of one data unit. -/
  | xtsEncrypt (h : HandId) (go : LaneGo)
  /-- XTS_DECRYPT (R362): Starts an XTS-AES decryption of one data unit. -/
  | xtsDecrypt (h : HandId) (go : LaneGo)
  /-- KW_WRAP (R362): Wraps key material by RFC 3394. -/
  | kwWrap (h : HandId) (go : LaneGo)
  /-- KW_UNWRAP (R374): Unwraps key material by RFC 3394 through the Release Buffer. -/
  | kwUnwrap (h : HandId) (go : LaneGo)
  /-- KWP_WRAP (R362): Wraps key material by RFC 5649. -/
  | kwpWrap (h : HandId) (go : LaneGo)
  /-- KWP_UNWRAP (R374): Unwraps key material by RFC 5649 through the Release Buffer. -/
  | kwpUnwrap (h : HandId) (go : LaneGo)
  /-- LANE_OP_END (R361): A lane operation ends after its writes and latches the LANE event. -/
  | laneOpEnd (lane : Fin 16) (source : List Byte) (readOk writeOk : Bool)
  /-- LN_FLUSH (R367): Empties the lane's key cache once any running operation ends. -/
  | lnFlush (h : HandId)
  -- Public-key slices (file 10).
  /-- KEYGEN (R399): Starts a SEQUENCER key generation into a new Vault slot. -/
  | keygen (h : HandId) (cmd : PkFlags)
  /-- SIGN (R402): Starts a SEQUENCER signature with a self-check before release. -/
  | sign (h : HandId) (cmd : PkFlags)
  /-- VERIFY (R401): Starts a SEQUENCER signature verification. -/
  | verify (h : HandId) (cmd : PkFlags)
  /-- AGREE (R399): Starts a SEQUENCER key agreement. -/
  | agree (h : HandId) (cmd : PkFlags)
  /-- ENCAPS (R398): Starts an ML-KEM encapsulation. -/
  | encaps (h : HandId) (cmd : PkFlags)
  /-- DECAPS (R401): Starts an ML-KEM decapsulation. -/
  | decaps (h : HandId) (cmd : PkFlags)
  /-- PK_MCTL (R390): Sets the MAC-mode controls and loads A from operand memory. -/
  | pkMctl (h : HandId) (data : Word)
  /-- RUN (R392): Multiply-accumulates A by operand digits into ACC. -/
  | run (h : HandId) (len : BitVec 6) (idx : BitVec 13)
  /-- ACCOUT (R392): Writes ACC digits to operand memory and shifts ACC. -/
  | accout (h : HandId) (len : BitVec 6) (idx : BitVec 13)
  /-- ACCADD (R392): Adds an operand number into ACC. -/
  | accadd (h : HandId) (len : BitVec 6) (idx : BitVec 13)
  /-- ACCCLR (R392): Clears ACC. -/
  | accclr (h : HandId)
  /-- PK_OPDATA (R388): An access reads or writes operand memory and advances PK_OPADDR. -/
  | pkOpdata (h : HandId) (write : Option Word)
  /-- PK_UCODE_LOAD (R407): Verifies and installs the SEQUENCER microcode image. -/
  | pkUcodeLoad (h : HandId)
  /-- SLICE_OP_END (R389): A slice command or operation ends and latches the SLICE event. -/
  | sliceOpEnd (slice : Fin 16) (checkOk : Bool)
  -- The Key Vault (file 11).
  /-- DERIVE (R431): Derives a key from a root by SP 800-108 into a slot or a lane blob. -/
  | derive (h : HandId) (root : BitVec 28)
  /-- INFO (R429): Returns a key's attribute word and KCV. -/
  | info (h : HandId)
  /-- GENERATE (R429): Generates a symmetric key into a new slot. -/
  | generate (h : HandId)
  /-- DESTROY (R446): Empties a slot once earlier uses have taken the key. -/
  | destroy (h : HandId)
  /-- LOCKEXP (R422): Clears a key's EXPORTABLE flag. -/
  | lockexp (h : HandId)
  /-- SAVE (R429): Writes a resident key as a backing object under CKEK. -/
  | save (h : HandId)
  /-- VAULT_LOAD (R438): Loads a backing object into a slot. -/
  | vaultLoad (h : HandId)
  /-- EXPORT (R439): Wraps key material under a WRAP_ONLY key. -/
  | exportKey (h : HandId)
  /-- IMPORT (R439): Unwraps or accepts key material into a new slot. -/
  | importKey (h : HandId)
  /-- ISSUE (R437): Wraps a resident BULK key into a lane blob. -/
  | issue (h : HandId)
  /-- ATTEST (R444): Builds and signs a key attestation statement with the DAK. -/
  | attest (h : HandId)
  /-- SPDM_SIGN (R443): Signs an SPDM message with the DAK. -/
  | spdmSign (h : HandId)
  /-- SPLIT (R440): Splits a custody key into Shamir shares. -/
  | split (h : HandId)
  /-- COMBINE (R441): Rebuilds a key from M shares. -/
  | combine (h : HandId)
  /-- LWK_ROTATE (R436): Replaces the next lane wrap key and makes it current. -/
  | lwkRotate (h : HandId)
  /-- BBKR_NEW (R419): Draws a new BBKR and writes it to the Watch domain. -/
  | bbkrNew (h : HandId)
  /-- STORE_ESCROW (R442): Exports the Store keys as one wrapped object. -/
  | storeEscrow (h : HandId)
  /-- STORE_RESTORE (R442): Installs escrowed Store keys while the Store is CLOSED. -/
  | storeRestore (h : HandId)
  /-- VAULT_COMMAND_END (R427): A Vault command ends and its result becomes readable. -/
  | vaultCommandEnd (h : HandId)
  -- Entropy (file 12).
  /-- SOURCE_STARTUP_TEST (R451): A noise source's start-up test ends and the source becomes HEALTHY or FAILED. -/
  | sourceStartupTest (source : Fin 4) (samples : BitVec 1024)
  /-- ENTROPY_SOURCE_FAIL (R452): A continuous health test fails and the source becomes FAILED. -/
  | entropySourceFail (source : Fin 4) (test : HealthTest)
  /-- SEED_PRODUCED (R453): The conditioner completes a seed, which goes to the pool or to the first waiting consumer. -/
  | seedProduced (raw : BitVec 1536)
  /-- INSTANCE_DUE (R458): An instance's reseed counter reaches 2^20 and it requests a seed. -/
  | instanceDue (i : Fin 1024)
  /-- ENTROPY_STALL (R459): An instance's counter reaches 2^32 and it stops generating. -/
  | entropyStall (i : Fin 1024)
  /-- DR_OUT (R461): A read returns the next 4 output octets of the held instance. -/
  | drOut (h : HandId)
  /-- RETRY (R451): Retries a FAILED source's start-up test. -/
  | retry (h : HandId) (sources : BitVec 4)
  /-- SELFTEST (R469): Starts the entropy health self-test. -/
  | selftest (h : HandId)
  /-- HEALTH_SELFTEST_END (R469): The entropy health self-test ends. -/
  | healthSelftestEnd (failed : BitVec 4) (katOk : Bool)
  /-- ENT_RAW (R465): A read collects 32 raw samples in test states. -/
  | entRaw (h : HandId) (samples : BitVec 32)
  /-- PATTERN_SET (R466): Replaces a source by the test pattern in FACTORY. -/
  | patternSet (h : HandId) (sources : BitVec 4)
  /-- PATTERN_CLEAR (R467): Clears the last pattern bit and zero-fills the pool and every instance. -/
  | patternClear (h : HandId) (sources : BitVec 4)
  -- Access control units (file 13).
  /-- ACU_CTRL (R476): A write of an ACU control register sets CBASE and defaults, clearing Warden bits of newly Common rules. -/
  | acuCtrl (h : HandId) (unit : AcuUnit) (data : Word)
  -- Flash (file 14).
  /-- PROGRAM (R494): Programs a flash line from the buffer. -/
  | program (h : HandId)
  /-- ERASE (R497): Erases a flash sector after programming an intent record. -/
  | erase (h : HandId)
  /-- BLANK_CHECK (R496): Checks that every cell of a sector is erased. -/
  | blankCheck (h : HandId)
  /-- FLASH_OP_END (R495): A flash operation ends after its margin read-back. -/
  | flashOpEnd (bank : Fin 2) (verifyOk : Bool)
  /-- FL_DATA (R490): A read returns the flash word at FL_ADDR and advances it. -/
  | flData (h : HandId)
  /-- ERASE_RESUME (R491): A suspended erase resumes after 2 µs without a pending read. -/
  | eraseResume (bank : Fin 2)
  /-- FL_WP (R501): A write of the write-protect bits, limited once WP_LOCK is set. -/
  | flWp (h : HandId) (k : Fin 9) (data : Word)
  -- Cascade (file 15).
  /-- IDLE (R516): An IDLE flit is received and acknowledges traffic. -/
  | idle (port : Fin 8) (f : FlitHead)
  /-- CONTROL (R519): A CONTROL flit message is received and acted on or forwarded. -/
  | control (port : Fin 8) (f : FlitHead) (m : ControlMsg)
  /-- ERRAND (R528): An ERRAND flit is kept or forwarded along its path. -/
  | errand (port : Fin 8) (f : FlitHead) (m : ErrandMsg)
  /-- COMPLETION (R529): A COMPLETION flit is forwarded, or written to the host by the master. -/
  | completion (port : Fin 8) (f : FlitHead) (m : CompletionMsg)
  /-- TREAD (R530): A tunnel read request is checked and issued by the master. -/
  | tread (port : Fin 8) (f : FlitHead) (m : TunnelMsg)
  /-- TDATA (R538): Tunnel read data is delivered to the member. -/
  | tdata (port : Fin 8) (f : FlitHead) (m : TunnelMsg)
  /-- TWRITE (R529): A tunnel write is checked and issued in arrival order. -/
  | twrite (port : Fin 8) (f : FlitHead) (m : TunnelMsg)
  /-- REMOTE (R543): A remote register access request or answer is handled. -/
  | remote (port : Fin 8) (f : FlitHead) (m : RemoteMsg)
  /-- TIME (R534): A TIME flit steers the member's Tally toward its parent. -/
  | time (port : Fin 8) (f : FlitHead) (parentTally : Nat) (stepped : Bool)
  /-- TIME_INTERVAL (R534): Every 10 µs a parent sends a TIME flit. -/
  | timeInterval
  /-- RETRANSMIT_TIMEOUT (R514): 2 µs without a new ACK resends unacknowledged flits, or fails the link at the retry limit. -/
  | retransmitTimeout (port : Fin 8)
  /-- BATON_SILENCE (R516): A downstream link carries no valid flit for 1 ms and fails. -/
  | batonSilence (port : Fin 8)
  /-- UPSTREAM_LOSS (R536): A member's upstream link is silent or failed, and it stops work and discards keys. -/
  | upstreamLoss
  /-- SIGNAL_DETECT (R518): An enabled port detects a signal and starts training. -/
  | signalDetect (port : Fin 8)
  /-- LINK_TRAINED (R518): Training and the role check complete and the link is OPEN or miswired. -/
  | linkTrained (port : Fin 8) (peer : BitVec 3) (peerMaster : Bool)
  /-- TRAINING_TIMEOUT (R518): No lock within 50 ms returns the port to DOWN. -/
  | trainingTimeout (port : Fin 8)
  /-- FAILED_RETRAIN (R518): 10 ms after failure an enabled port retrains. -/
  | failedRetrain (port : Fin 8)
  /-- KEY_UPDATE (R517): After 2^36 flits the ends update the link keys. -/
  | keyUpdate (port : Fin 8)
  /-- JOIN_OFFER (R521): A member's JOIN offer arrives and the master's JOIN engine starts SPDM. -/
  | joinOffer (offer : JoinOffer)
  /-- JOIN_AUTHENTICATED (R522): The JOIN session and engine checks end, keying the link and queueing the decision. -/
  | joinAuthenticated (path : Word) (session : JoinSession)
  /-- ACCEPT (R523): Warden firmware accepts the head JOIN. -/
  | accept (h : HandId)
  /-- REJECT (R523): Warden firmware refuses the head JOIN. -/
  | reject (h : HandId)
  /-- JOIN_DECISION_TIMEOUT (R523): 100 ms without a decision refuses the JOIN. -/
  | joinDecisionTimeout
  /-- MEMBER_JOINED (R521): After the Almanacs are loaded the entry becomes PRESENT. -/
  | memberJoined (path : Word) (almanacOk : Option (BitVec 16))
  /-- CS_CTRL (R525): A write sets port enables, JOIN_EN (generating the group key) or READY. -/
  | csCtrl (h : HandId) (data : Word)
  /-- REMOTE_READ (R543): Reads one word on a PRESENT member. -/
  | remoteRead (h : HandId)
  /-- REMOTE_WRITE (R543): Writes one word on a PRESENT member. -/
  | remoteWrite (h : HandId)
  /-- HC_REOPEN (R540): Opens a returned member's share once the host has restored it. -/
  | hcReopen (devnum : BitVec 12)
  /-- HC_SEQ (R545): An access to HC_SEQ advances HC_INDEX. -/
  | hcSeq
  -- Power (file 16).
  /-- DOZE_ENTRY (R549): After 1 µs idle the device enters Doze. -/
  | dozeEntry
  /-- NAP_ENTRY (R550): After 400 µs of the idle conditions the device enters Nap. -/
  | napEntry
  /-- SLUMBER_ENTRY (R551): After 30 ms of the idle conditions the device writes back frames and enters Slumber. -/
  | slumberEntry
  /-- WAKE_EVENT (R552): A wake event returns the device to Run within the state's exit latency. -/
  | wakeEvent
  /-- PME_TURN_OFF (R556): From D3hot the device acknowledges PME_Turn_Off and enters Dormant. -/
  | pmeTurnOff
  /-- WAKE_IN (R557): WAKE_IN assertion wakes the device or asserts PE_WAKE_N from Dormant. -/
  | wakeIn
  /-- TJ_READING (R562): The governor reads the junction sensors and decides any level change. -/
  | tjReading (sensors : List Int) (coolForOneSecond : Bool)
  /-- SPRINT_LOCK_EXPIRY (R562): The REST interval ends and SPRINT_LOCK clears. -/
  | sprintLockExpiry
  /-- PW_LT_GLOBAL (R560): A write of the global latency tolerance takes effect and starts a re-test. -/
  | pwLtGlobal (data : Word64)
  /-- PW_LT_RING (R560): A write of a ring latency tolerance takes effect and starts a re-test. -/
  | pwLtRing (n : RingId) (data : Word64)
  /-- PW_GOV (R562): A write of the host's Sprint enable and REST. -/
  | pwGov (data : Word64)
  /-- GV_CTRL (R562): A write of Warden firmware's Sprint enable. -/
  | gvCtrl (h : HandId) (data : Word)
  -- Life cycle and debug (file 17).
  /-- LC_QUERY (R583): Returns the life-cycle states, serial, RTC and stepping. -/
  | lcQuery
  /-- CHALLENGE (R585): Draws and returns a new debug nonce. -/
  | challenge
  /-- DBG_OPEN (R586): Checks a debug certificate and opens a session. -/
  | dbgOpen (certificate : Option (List Byte))
  /-- DBG_CLOSE (R591): Closes the debug session. -/
  | dbgClose
  /-- TRIAL_ENTER (R580): Enters a Trial state on a matching token and resets the device. -/
  | trialEnter (slot : Nat) (stateCode : Byte) (preimage : List Byte)
  /-- LC_ADVANCE (R574): Requests a fuse life-cycle advance. -/
  | lcAdvance (by_ : LcRequester) (target : Byte)
  /-- FUSE_ADVANCE_END (R577): A fuse advance ends, taking effect at the next reset or at once for TERMINATED. -/
  | fuseAdvanceEnd
  /-- DBG_HALT (R592): Halts a Hand. -/
  | dbgHalt (hand : HandId)
  /-- DBG_RESUME (R592): Resumes a halted Hand. -/
  | dbgResume (hand : HandId)
  /-- DBG_STEP (R592): Single-steps a halted Hand. -/
  | dbgStep (hand : HandId)
  /-- DBG_READ (R588): Reads words at fabric addresses. -/
  | dbgRead (address count : Nat)
  /-- DBG_WRITE (R588): Writes words at fabric addresses. -/
  | dbgWrite (address : Nat) (words : List Word)
  /-- TRACE (R583): Starts, stops or reads a Hand's branch and exception trace. -/
  | trace (hand : HandId) (op : TraceOp)
  /-- PARISH_READ (R632): Returns words from the Parish ring or archive. -/
  | parishRead (first count : Nat) (archive : Bool)
  /-- FLASH_READ (R583): Returns flash words. -/
  | flashRead (address count : Nat)
  /-- POWER_HOLD (R595): Keeps the device no deeper than Doze, or releases it. -/
  | powerHold (on : Bool)
  /-- SCAN (R591): Shifts a scan chain. -/
  | scan (chain bits : Nat) (data : List Bool)
  /-- RAW (R465): Returns raw noise samples. -/
  | raw (source : Fin 4) (samples : List Bool)
  /-- STATUS (R583): Returns DBG_STATUS. -/
  | status
  /-- NONCE_EXPIRY (R585): A nonce is discarded 60 s after issue. -/
  | nonceExpiry
  /-- SESSION_EXPIRY (R590): RTC seconds reach NOT_AFTER and the session closes. -/
  | sessionExpiry
  /-- DBG_CTRL (R590): Setting DENY closes any session and refuses OPEN. -/
  | dbgCtrl (h : HandId) (data : Word)
  /-- DEBUG_WINDOW_CLOSE (R578): The boot ROM's debug window ends. -/
  | debugWindowClose (tests : BootTests)
  /-- EXTEST (R582): TAP boundary-scan test instruction, active only in open states. -/
  | extest
  /-- SAMPLE_PRELOAD (R582): TAP sample and preload instruction. -/
  | samplePreload
  /-- IDCODE (R582): TAP instruction that selects the identification code. -/
  | idcode
  /-- BYPASS (R582): TAP bypass instruction. -/
  | bypass
  -- The Watch domain (file 18).
  /-- MONITOR_ALARM (R601): A monitor reaches N events in W samples and the response engine acts. -/
  | monitorAlarm (alarms : List (Fin 28))
  /-- WATCH_POWER_ON_RESET (R611): VBAT rises after falling below 2.0 V and the Watch domain is cleared. -/
  | watchPowerOnReset
  /-- LOGCLR (R623): Empties the Watch Log. -/
  | logclr (h : HandId)
  /-- RESUME (R602): Clears HALTED when no strong latch remains and restarts fetch. -/
  | resume (h : HandId)
  /-- WLOCK (R621): Locks the Watch monitor settings against weakening. -/
  | wlock (h : HandId)
  /-- MLOCK (R621): Locks the main-side monitor settings against weakening. -/
  | mlock (h : HandId)
  /-- WT_MON (R621): A write of a monitor's enable, response and filter, subject to the locks. -/
  | wtMon (h : HandId) (monitor : Fin 28) (data : Word)
  /-- MONITOR_SELFTEST (R617): Starts a stimulus self-test of one monitor. -/
  | monitorSelftest (h : HandId) (monitor : BitVec 5)
  /-- MONITOR_SELFTEST_END (R618): A monitor self-test ends with PASS or FAIL. -/
  | monitorSelftestEnd (pass : Bool)
  /-- RTC_LOAD (R615): A write of WT_RTC_LO loads the RTC and sets RTC_VALID. -/
  | rtcLoad (h : HandId) (data : Word)
  /-- RTC_CAPTURE (R616): A read of WT_RTC_LO captures the high and fraction parts. -/
  | rtcCapture (h : HandId)
  -- The Parish Register (file 19).
  /-- PR_WRITE (R633): Writes a FIRMWARE record under the rate limit. -/
  | prWrite (h : HandId) (code : Byte)
  /-- PR_SNAP (R637): Triggers a snapshot record in SNAPSHOT mode. -/
  | prSnap (h : HandId) (code : Byte)
  /-- PR_RDATA (R631): A read returns the ring word at the code pointer and advances it. -/
  | prRdata (h : HandId)
  /-- PH_RDATA (R631): A host read returns the ring word at the host pointer and advances it. -/
  | phRdata
  /-- PR_CTRL (R637): A write sets the mode, the threshold and the record count restart. -/
  | prCtrl (h : HandId) (data : Word)
  /-- ARCHIVE_FLUSH (R634): 60 s after its first record the line buffer is programmed to the archive. -/
  | archiveFlush
  -- Card gates (file 20).
  /-- ACTIVATE (R645): Cold-resets an ISO/IEC 7816-3 card through the classes, with PPS. -/
  | activate (h : HandId) (gate : Bool)
  /-- DEACTIVATE (R650): Deactivates the gate's card. -/
  | deactivate (h : HandId) (gate : Bool)
  /-- APDU (R648): Exchanges one short APDU with the card. -/
  | apdu (h : HandId) (gate : Bool) (txlen : BitVec 9)
  /-- SEAT (R651): Seats Carrier cards by arbitration, negotiates the bus and replays the journal. -/
  | seat (h : HandId) (gate : Bool)
  /-- CARD_READ (R654): Reads one block from a Carrier seat. -/
  | cardRead (h : HandId) (gate : Bool) (seat : BitVec 3) (block : BitVec 7)
  /-- CARD_WRITE (R653): Writes one block to a Carrier card with journal intent and outcome. -/
  | cardWrite (h : HandId) (gate : Bool) (seat : BitVec 3) (block : BitVec 7)
  /-- SLEEP (R654): Puts a seat's card into standby. -/
  | sleep (h : HandId) (gate : Bool) (seat : BitVec 3)
  /-- CARD_WAKE (R654): Wakes a sleeping seat's card. -/
  | cardWake (h : HandId) (gate : Bool) (seat : BitVec 3)
  /-- CARD_UNLOCK (R654): Presents a PIN to unlock protected blocks. -/
  | cardUnlock (h : HandId) (gate : Bool) (seat : BitVec 3)
  /-- CARD_OP_END (R663): A gate operation ends and source 20 or 21 becomes pending. -/
  | cardOpEnd (gate : Bool) (answer : CardAnswer)
  /-- PRES_CHANGE (R655): A PRES edge deactivates an ISO card or pings the Carrier seats. -/
  | presChange (gate : Bool) (level : Bool) (silent : List (Fin 8))
  /-- CARD_SUPPLY_FAIL (R641): The card supply fails or leaves its range and the gate deactivates. -/
  | cardSupplyFail (gate : Bool)
  /-- CG_CLAIM (R642): Claims or releases a gate. -/
  | cgClaim (h : HandId) (gate : Bool) (claim : Bool)
  /-- CG_BDATA (R662): An access reads or writes the buffer word and advances CG_BPTR. -/
  | cgBdata (h : HandId) (gate : Bool) (write : Option Word)
  /-- CG_CTRL (R662): A write sets the gate's mode and clocks, deactivating cards on a mode change. -/
  | cgCtrl (h : HandId) (gate : Bool) (data : Word)
  -- The Custody Tag (file 21).
  /-- FIELD_ENTRY (R666): A reader field reaches the operating level and the tag draws a UID. -/
  | fieldEntry (noise : BitVec 24)
  /-- FIELD_LOSS (R668): The field is lost and the session and UID are discarded. -/
  | fieldLoss
  /-- FD_HOLD_EXPIRY (R682): 10 to 20 ms after field loss FD_OUT_N is released. -/
  | fdHoldExpiry
  /-- REQA (R668): Moves an IDLE tag to READY. -/
  | reqa
  /-- WUPA (R668): Moves an IDLE or HALT tag to READY. -/
  | wupa
  /-- ANTICOLLISION (R665): Answers anticollision at cascade level 1. -/
  | anticollision (known : List Bool)
  /-- SELECT (R668): Selects the tag's UID and moves it to ACTIVE. -/
  | select (uid : BitVec 32)
  /-- HLTA (R668): Moves the tag to HALT. -/
  | hlta
  /-- RATS (R666): Answers with the ATS and moves the tag to OPEN. -/
  | rats
  /-- PPS (R665): Sets the air bit rates. -/
  | pps (dri dsi : BitVec 2)
  /-- DESELECT (R668): S(DESELECT) moves the tag to HALT. -/
  | deselect
  /-- GET_INFO (R670): Returns the tag's format, field state and installed secrets. -/
  | getInfo (mac : List Byte)
  /-- READ_LIVE (R670): Returns live Watch status. -/
  | readLive (mac : List Byte)
  /-- READ_PAGE (R676): Returns a page's current slot. -/
  | readPage (page : Byte) (mac : List Byte)
  /-- WRITE_PAGE (R677): Starts a field write of a page. -/
  | writePage (page : Byte) (data mac : List Byte) (strong : Bool)
  /-- FIELD_WRITE_END (R677): A field page write completes and the response is sent. -/
  | fieldWriteEnd (stage : WriteStage)
  /-- AUTH_PWD (R671): Checks the tag password. -/
  | authPwd (password mac : List Byte)
  /-- AUTH1 (R672): Returns a fresh tag challenge. -/
  | auth1 (noise : BitVec 128) (mac : List Byte)
  /-- AUTH2 (R672): Checks the reader proof and returns the tag proof. -/
  | auth2 (rndR proof mac : List Byte)
  /-- AUTH_DELAY_EXPIRY (R673): 1 s after a failed AUTH2, AUTH1 is accepted again. -/
  | authDelayExpiry
  /-- LOGOUT (R668): Returns the session to OPEN. -/
  | logout (mac : List Byte)
  /-- TAG_READ (R684): Wired read of a page into TG_BUF. -/
  | tagRead (h : HandId) (page : BitVec 6)
  /-- TAG_WRITE (R681): Wired write of TG_BUF to a page. -/
  | tagWrite (h : HandId) (page : BitVec 6)
  /-- SUMMARY (R680): Writes the attestation summary pages. -/
  | summary (h : HandId)
  /-- SUMMARY_AUTO (R680): Within 10 ms of a life-cycle or latch change the device issues SUMMARY itself. -/
  | summaryAuto
  /-- SETPWD (R684): Installs the tag password. -/
  | setpwd (h : HandId)
  /-- SETKEY (R684): Installs the tag key from the Vault. -/
  | setkey (h : HandId)
  /-- CLEARAUTH (R684): Removes the password and key. -/
  | clearauth (h : HandId)
  /-- SETACL (R679): Writes the page levels to the system pages. -/
  | setacl (h : HandId)
  /-- TAG_CMD_END (R685): A wired tag command ends. -/
  | tagCmdEnd (stage : WriteStage)
  /-- TAG_UNLOCK (R671): Resets PWD_FAILS. -/
  | tagUnlock (h : HandId)
  -- Reset, start-up and recovery (file 22).
  /-- DEVICE_RESET (R691): A device reset clears the main side and zero-fills SRAM. -/
  | deviceReset
  /-- GUARD_POWER_ON_RESET (R689): VDD_GUARD rises into range and the guard die resets. -/
  | guardPowerOnReset
  /-- RAILS_GOOD (R718): Every main rail has been in range for 1 ms and device reset may end. -/
  | railsGood
  /-- DEVICE_RESET_END (R695): Device reset ends and the boot ROM runs the start-up ladder. -/
  | deviceResetEnd (cascRoot bootSel : Bool)
  /-- DEVICE_WATCHDOG_EXPIRY (R693): The device watchdog count reaches 0 and the device resets. -/
  | deviceWatchdogExpiry
  /-- SERVICE (R694): Reloads the device watchdog from PERIOD. -/
  | service (h : HandId)
  /-- STEWARD_GO (R702): Starts the Steward. -/
  | stewardGo (h : HandId)
  /-- WD_LOCK (R694): Locks the watchdog period. -/
  | wdLock (h : HandId)
  /-- FW_READY (R211): Signals firmware readiness to the host. -/
  | fwReady (h : HandId) (setup : FirmwareSetup)
  /-- GC_CTRL_RESET (R689): Warden firmware requests a device reset. -/
  | gcCtrlReset (h : HandId)
  /-- GC_STAGE (R706): Copies a firmware stage code into BOOT_STAGE. -/
  | gcStage (h : HandId) (stage : Byte)
  /-- RECOVERY_GO (R705): Starts a Recovery image read, check and write. -/
  | recoveryGo (words : BitVec 20)
  /-- RECOVERY_WRITE_END (R705): The Recovery image write ends with a final state. -/
  | recoveryWriteEnd (image : Option (List Byte)) (flashOk : Bool)
  /-- RECOVERY_RESET (R705): 10 ms after DONE the device resets. -/
  | recoveryReset
  /-- REGISTER_WRITE (R18): A write to a register with no behaviour of its own sets its writable fields. -/
  | registerWrite (w : RegWrite)
  /-- MAIN_SIDE_UNPOWERED (R609): VDD_GUARD falls below its operating range, the main side stops, the tag switches to field power and the Watch domain guards alone with battery erase. -/
  | mainSideUnpowered
  /-- VBAT_LOSS (R611): VBAT falls below 2.0 V and the Watch domain may lose every content, with READ_LIVE reporting NOVBAT. -/
  | vbatLoss
  /-- WDOG_WARN (R296): A core watchdog has run half its period and interrupt source 8 becomes pending on that core. -/
  | wdogWarn (core : Fin 128)
  /-- CARD_CLOCK_STOP (R649): After the idle count since the last character, an ISO gate stops CLK at the level the ATR names. -/
  | cardClockStop (gate : Bool)
deriving DecidableEq, Repr

end Sys2Proof
end

