-- ==== Sys2Proof/Machine/StateDevice.lean ====
section
/-!
DEFINITION. Sys2Proof/Machine/StateDevice.lean: flash, cascade, power, life cycle and debug
(spec files 14 to 17).
-/
namespace Sys2Proof.Machine

/-- An operation of a flash bank, for FL_CMD or for an internal requester (R492, R499). -/
structure FlashOp where
  /-- OP: 1 PROGRAM, 2 ERASE, 3 BLANK_CHECK; FL_CMD (14). -/
  op : Nat
  /-- the latched FL_ADDR; FL_ADDR (14). -/
  addr : Nat
  /-- the words PROGRAM copied; R494 (14). -/
  words : List Word := []
  /-- the line of the intent record that an erase starts after; R497 (14). -/
  intent : Option Nat := none
  /-- one above SEQ of the last record in an archive line; R628, R634 (19). -/
  seq : Nat := 0
deriving DecidableEq, Repr

/-- One flash bank (file 14). -/
structure FlashBank where
  /-- Bn_STATUS, 8 bits; FL_STATUS (14); 0. -/
  status : Byte := 0
  /-- the running operation (Bn_OP); FL_STATUS (14); none. -/
  op : Option FlashOp := none
  /-- Bn_SUSP; FL_STATUS (14); 0. -/
  susp : Bool := false
  /-- DONEn; FL_STATUS (14); 0. -/
  done : Bool := false
deriving DecidableEq, Repr

/-- The flash array and controller (file 14). -/
structure Flash where
  /-- 16 Mi words, an erased word reading 777777_777777q; R486 (14); DESIGN CHOICE erased (log 4). -/
  words : Memory := []
  /-- words holding an uncorrectable error; R486 (14); none. -/
  bad : List Nat := []
  /-- words holding an error of one bit; R486 (14); none. -/
  weak : List Nat := []
  /-- runs of UNDEFINED CONTENT, by first word and length; R12 (00), R495, R498 (14); none. -/
  undef : List (Nat × Nat) := []
  /-- lines programmed since their last erase, for the blank check of cells that hold all ones; R493 (14); none. -/
  programmed : List Nat := []
  /-- sectors to be erased at the next start, by index; R497 (14); none. -/
  marked : List Nat := []
  /-- the internal requesters' programs and erases that have not ended, all in bank 0, oldest first; R492, R499 (14);
  none. -/
  inner : List FlashOp := []
  /-- FL_ADDR, 24 bits; FL_ADDR (14); 0. -/
  addr : Nat := 0
  /-- bank 0; FL_STATUS (14); idle. -/
  bank0 : FlashBank := {}
  /-- bank 1; FL_STATUS (14); idle. -/
  bank1 : FlashBank := {}
  /-- FL_STATUS.ECC_UE; FL_STATUS (14); 0. -/
  eccUe : Bool := false
  /-- FL_CTRL.WP_LOCK; FL_CTRL (14); 0. -/
  wpLock : Bool := false
  /-- FL_CTRL.IEN; FL_CTRL (14); 0. -/
  ien : Bool := false
  /-- FL_ECC.CE, 12 bits saturating; FL_ECC (14); 0. -/
  ce : Nat := 0
  /-- FL_ECC.UE_ADDR, 24 bits; FL_ECC (14); 0. -/
  ueAddr : Nat := 0
  /-- FL_BUF0 to FL_BUF15; FL_BUF (14); 0. -/
  buf : Memory := []
  /-- unprotected sectors: the FL_WP bits that are 0, by index; R501 (14); none (all ones). -/
  unprotected : List Nat := []
deriving DecidableEq, Repr

/-- Baton link states (R518). -/
inductive LinkState where
  | down | training | opened | keyed | failed
deriving DecidableEq, Repr

/-- A flit: its header fields and its payload in clear (R512, R513). -/
structure Flit where
  /-- TYPE, 4 bits; Flit header (15). -/
  type : Nat
  /-- CLASS: 0 CONTROL, 1 CONTRACTED, 2 BEST_EFFORT; Flit header (15). -/
  cls : Nat := 0
  /-- SEQ, 10 bits; Flit header (15). -/
  seq : Nat := 0
  /-- ACK, 10 bits; Flit header (15). -/
  ack : Nat := 0
  /-- MORE; Flit header (15). -/
  more : Bool := false
  /-- the LEN octets of message, at most 234; Flit (15). -/
  payload : List Byte := []
  /-- the flit goes under the link's key; R513 (15). -/
  keyed : Bool := true
  /-- the count of its IV: non-IDLE flits this direction has sent since KEYED; R513 (15). -/
  count : Nat := 0
  /-- where it came from: the port it arrived at, or 8 for this device's own; R519 (15); 8. -/
  src : Nat := 8
deriving DecidableEq, Repr

/-- A flit that has been sent and is not acknowledged (R514). -/
structure SentFlit where
  /-- the flit; R512 (15). -/
  flit : Flit
  /-- times sent; R514 (15). -/
  times : Nat
deriving DecidableEq, Repr

/-- One Baton port (file 15). -/
structure BatonPort where
  /-- STATE; CS_PORT (15); DOWN. -/
  state : LinkState := .down
  /-- PEER, 3 bits; CS_PORT (15); 0. -/
  peer : Nat := 0
  /-- CAUSE, 4 bits; CS_PORT (15); 0. -/
  cause : Nat := 0
  /-- FAILS, 8 bits saturating; CS_PORT (15); 0. -/
  fails : Nat := 0
  /-- RETRIES, 12 bits saturating; CS_PORT (15); 0. -/
  retries : Nat := 0
  /-- SEQ of the next flit sent, modulo 1,024; R512 (15); PRESUMED 0 (log 15). -/
  txSeq : Nat := 0
  /-- SEQ expected next; R512 (15); PRESUMED 0 (log 15). -/
  rxSeq : Nat := 0
  /-- unacknowledged flits on the link, oldest first, at most 512; R514 (15); none. -/
  unacked : List SentFlit := []
  /-- flits that wait for the link, in the order they go; R514, R519 (15); none. -/
  waiting : List Flit := []
  /-- the link key of the direction sent, 32 octets; R513 (15); none. -/
  txKey : List Byte := []
  /-- the link key of the direction received; R513 (15); none. -/
  rxKey : List Byte := []
  /-- flits sent since KEYED, the IV count; R513 (15); 0. -/
  sent : Nat := 0
  /-- KEY_UPDATE exchanges made; R517 (15); 0. -/
  keyEpoch : Nat := 0
  /-- the source last served, for the rotation; R519 (15); DESIGN CHOICE 8 (log 117). -/
  lastSrc : Nat := 8
  /-- by class, the source whose message MORE continues; Flit header (15); none. -/
  mid : Assoc Nat := []
  /-- ticks of 10 ns since a flit last left; R516 (15); 0. -/
  quiet : Nat := 0
deriving DecidableEq, Repr

/-- Entry states (HC_ENTRY.STATE). -/
inductive EntryState where
  | empty | joining | present | absent | refused
deriving DecidableEq, Repr

/-- One device entry of the master's route table (HC_ENTRY, HC_CAP, HC_SEQ). -/
structure HcEntry where
  /-- STATE; HC_ENTRY (15); EMPTY. -/
  state : EntryState := .empty
  /-- WAIT; HC_ENTRY (15); 0. -/
  wait : Bool := false
  /-- CODE, 8 bits; HC_ENTRY (15); 0. -/
  code : Byte := 0
  /-- PATH, 36 bits; HC_ENTRY (15); 0. -/
  path : Word := 0
  /-- serial, 64 bits; HC_SERIAL (15); 0. -/
  serial : Word64 := 0
  /-- GOV of HC_CAP; HC_CAP (15); 0. -/
  gov : Nat := 0
  /-- CORES of HC_CAP; HC_CAP (15); 0. -/
  cores : Nat := 0
  /-- LANES of HC_CAP; HC_CAP (15); 0. -/
  lanes : Nat := 0
  /-- SEQ slices of HC_CAP; HC_CAP (15); 0. -/
  seqSlices : Nat := 0
  /-- MAC slices of HC_CAP; HC_CAP (15); 0. -/
  macSlices : Nat := 0
  /-- FRAMES of HC_CAP; HC_CAP (15); 0. -/
  frames : Nat := 0
  /-- newest committed SEQ; HC_SEQ (15); 0. -/
  seq : Nat := 0
  /-- the owner holds a checkpoint token; R339 (08); false. -/
  token : Bool := false
  /-- the owner has two live epochs; R348, EP_STATUS (08); false. -/
  twoEpochs : Bool := false
  /-- pages its sweeper has left; EP_STATUS (08); 0. -/
  left : Nat := 0
  /-- the device at this path has another serial than the one before it; R539 (15); false. -/
  newDevice : Bool := false
  /-- a returned owner whose share has not opened since, at which the re-test runs; R541 (15); false. -/
  retestOwed : Bool := false
deriving DecidableEq, Repr

/-- What a member sent that waits at the master until host memory is in reach (R217, R529). -/
inductive HeldFlit where
  | read (cls : Fin 3) (m : TunnelMsg)
  | write (m : TunnelMsg)
  | completion (m : CompletionMsg)
deriving DecidableEq, Repr

/-- The device it came from. -/
def HeldFlit.device (x : HeldFlit) : Word :=
  match x with
  | .read _ m => m.device
  | .write m => m.device
  | .completion m => m.device

/-- A JOIN under way at the master (R521). -/
structure Join where
  /-- the joining device's path; CS_JQ_PATH (15). -/
  path : Word
  /-- its serial; CS_JQ_SER (15). -/
  serial : Word64
  /-- its device number; CS_JQ_INFO (15). -/
  devnum : Nat
  /-- its life-cycle state code; CS_JQ_INFO (15). -/
  lc : Byte := 0
  /-- its measurement block 2 hash, 48 octets; CS_JQ_MEAS (15). -/
  meas : List Byte := []
  /-- the session's export master secret; R525 (15). -/
  secret : List Byte := []
  /-- 1 offered, 2 awaiting decision, 3 accepted, 4 capacity reported and Almanacs sent; JOIN ladder (15). -/
  step : Nat := 1
  /-- Almanacs sent in step 8 that the member has not answered; JOIN ladder (15); none. -/
  unanswered : List Nat := []
  /-- the first Almanac the member could not load; R527 (15); none. -/
  failed : Option Nat := none
deriving DecidableEq, Repr

/-- The cascade router (file 15). -/
structure Cascade where
  /-- CS_STATE.ROLE, true MASTER; R508 (15); the strap (log 2: true). -/
  master : Bool := true
  /-- CS_STATE.JOINED of a member; CS_STATE (15); 0. -/
  joined : Bool := false
  /-- a member's JOIN has passed step 9; JOIN ladder (15); false. -/
  joinDone : Bool := false
  /-- a member's export master secret of its JOIN session; R525 (15); none. -/
  joinSecret : List Byte := []
  /-- a step of the Tally that the next TIME flits pass on; R534 (15); false. -/
  stepOwed : Bool := false
  /-- CS_STATE.TLOCK of a member; CS_STATE (15); 0. -/
  tlock : Bool := false
  /-- CS_STATE.DEVNUM, 12 bits; CS_STATE (15); 0. -/
  devnum : Nat := 0
  /-- CS_PATH, 36 bits; Cascade window (15); 0. -/
  path : Word := 0
  /-- CS_CTRL.PORT_EN, 8 bits; CS_CTRL (15); FEh on the master, FFh on a member. -/
  portEn : BitVec 8 := 0xFE
  /-- CS_CTRL.JOIN_EN; CS_CTRL (15); 0. -/
  joinEn : Bool := false
  /-- CS_CTRL.READY; CS_CTRL (15); 0. -/
  ready : Bool := false
  /-- ports 0 to 7; CS_PORT (15); DOWN. -/
  ports : Assoc BatonPort := []
  /-- JOINs under way, in the order they reached step 3; R521 (15); none. -/
  joins : List Join := []
  /-- CS_RPATH, 36 bits; Cascade window (15); 0. -/
  rpath : Word := 0
  /-- CS_RADDR, 30 bits; Cascade window (15); 0. -/
  raddr : Word := 0
  /-- CS_RDATA, 36 bits; Cascade window (15); 0. -/
  rdata : Word := 0
  /-- the OP of a remote access under way (CS_RCMD.BUSY); CS_RCMD (15); none. -/
  rop : Option Nat := none
  /-- a remote access of another device that waits for a stalling register here: address and write data; R543 (15); none. -/
  rwait : Option (Word × Option Word) := none
  /-- CS_RCMD.STATUS, 8 bits; CS_RCMD (15); 0. -/
  rstatus : Byte := 0
  /-- CS_GKEY, 36 bits; Cascade window (15); 0. -/
  gkey : Word := 0
  /-- the group key has been generated since reset; R525 (15); false. -/
  gkeyMade : Bool := false
  /-- HC_SUMMARY.GEN, 16 bits; HC_SUMMARY (15); 0. -/
  gen : Nat := 0
  /-- HC_INDEX, 12 bits; HC_INDEX (15); 0. -/
  index : Nat := 0
  /-- entries 1 to 4,095 of the route table; HC_ENTRY (15); EMPTY. -/
  entries : Assoc HcEntry := []
  /-- tolerance received from the master, ns; R535 (15); none on the master. -/
  tolerance : Option Nat := none
  /-- a member's capacity as last reported; R533 (15); none. -/
  reported : List Nat := []
  /-- the tolerance last sent, as an LTR message and from the master to the members, ns; R203 (05), R535 (15); none. -/
  sentTolerance : Option Nat := none
  /-- the port whose message is being taken, 8 for none; R519 (15); 8. -/
  relaying : Nat := 8
  /-- members' accesses and completions that wait for host memory, oldest first; R217 (05), R529 (15); none. -/
  held : List HeldFlit := []
deriving DecidableEq, Repr

/-- Power states (R548). -/
inductive PowerState where
  | run | doze | nap | slumber | dormant
deriving DecidableEq, Repr

/-- Governor levels (R561). -/
inductive GovLevel where
  | sprint | stride | limp | trip
deriving DecidableEq, Repr

/-- The states of the PCIe link by power state (Power states table, R566). -/
inductive LinkPower where
  /-- L0 or L0p. -/
  | l0
  | l1
  | l12
  /-- L2, or L3 when the host removes the rails. -/
  | l2
deriving DecidableEq, Repr

/-- Power states and the governor (file 16). -/
structure Power where
  /-- PW_STATUS.STATE; PW_STATUS (16); Run. -/
  state : PowerState := .run
  /-- a wake event that the device has not yet answered; R552, R553 (16); false. -/
  wakeOwed : Bool := false
  /-- PW_STATUS.GOV; PW_STATUS (16); Stride. -/
  gov : GovLevel := .stride
  /-- PW_STATUS.SPRINT_LOCK; PW_STATUS (16); 0. -/
  sprintLock : Bool := false
  /-- PW_STATUS.TJ, °C; PW_STATUS (16); DESIGN CHOICE 25 before the first reading (log 16). -/
  tj : Int := 25
  /-- PW_STATUS.TRIPS, 8 bits saturating; PW_STATUS (16); 0. -/
  trips : Nat := 0
  /-- PW_LT_GLOBAL.LT, 32 bits; PW_LT_GLOBAL (16); 3E8h. -/
  ltGlobal : Nat := 0x3E8
  /-- PW_LT_RING n with V = 1: LT; PW_LT_RING (16); V 0. -/
  ltRing : Assoc Nat := []
  /-- PW_LT_RING n.LT while V = 0; PW_LT_RING (16); 0. -/
  ltIdle : Assoc Nat := []
  /-- PW_LT_GLOBAL.LT as the last write with bits 63:32 put it in force; R560 (16); 3E8h. -/
  ltForce : Nat := 0x3E8
  /-- PW_LT_RING n.LT with V = 1 as the last write with bits 63:32 put it in force; R560 (16); V 0. -/
  ltRingForce : Assoc Nat := []
  /-- the PCIe link's state that a thermal trip keeps; R565, R566 (16); DESIGN CHOICE L0 before a trip (log 119). -/
  linkHeld : LinkPower := .l0
  /-- PME_Turn_Off waits for the Baton ports to be DOWN; R556 (16); false. -/
  turnOffOwed : Bool := false
  /-- PW_GOV.REST, 8 bits; PW_GOV (16); 64h. -/
  rest : Nat := 0x64
  /-- PW_GOV.SPRINT_EN; PW_GOV (16); 1. -/
  hostSprint : Bool := true
  /-- GV_CTRL.SPRINT_EN; GV_CTRL (16); 1. -/
  wardenSprint : Bool := true
deriving DecidableEq, Repr

/-- Debug session states (R590). -/
inductive SessionState where
  | closed | challenged | opened
deriving DecidableEq, Repr

/-- Life cycle and debug (file 17). -/
structure LifeCycle where
  /-- the flash read of a debug command that waits for a program, first word and count; R491 (14); none. -/
  readOwed : Option (Nat × Nat) := none
  /-- that read is of the archive, whose sectors form a ring; R632 and R636 (19); false. -/
  readRing : Bool := false
  /-- a CHALLENGE waits for conditioned output; R585 (17); false. -/
  nonceOwed : Bool := false
  /-- fuse copy 0 of the 32-bit life-cycle word; R572 (17); DESIGN CHOICE 0, BLANK as made (log 1). -/
  copy0 : BitVec 32 := 0
  /-- fuse copy 1; R572 (17); DESIGN CHOICE 0 (log 1). -/
  copy1 : BitVec 32 := 0
  /-- fuse copy 2; R572 (17); DESIGN CHOICE 0 (log 1). -/
  copy2 : BitVec 32 := 0
  /-- LC_STATE.FUSE, the last vote; R573 (17); BLANK. -/
  fuse : Byte := 0
  /-- LC_STATE.AGREE, 3 bits; LC_STATE (17); 7. -/
  agree : BitVec 3 := 7
  /-- the Trial register: state code, none when clear; R581 (17); clear (guard-die power-on). -/
  trial : Option Byte := none
  /-- spent token slots; R579 (17); DESIGN CHOICE none (log 1). -/
  spent : List Nat := []
  /-- LC_STATE.PV and PENDING: an advance waits for the next reset; LC_STATE (17); none. -/
  pending : Option Byte := none
  /-- an advance is blowing fuses (LC_RESULT.BUSY): its target; LC_RESULT (17); none. -/
  blowing : Option Byte := none
  /-- LC_RESULT.STATUS, 8 bits; LC_RESULT (17); 0. -/
  status : Byte := 0
  /-- LC_RESULT.DETAIL, 8 bits; LC_RESULT (17); 0. -/
  detail : Byte := 0
  /-- DBG_STATUS.SESSION; DBG_STATUS (17); CLOSED. -/
  session : SessionState := .closed
  /-- DBG_STATUS.DENIED; DBG_STATUS (17); 0. -/
  denied : Bool := false
  /-- DBG_STATUS.SCAN_USED; DBG_STATUS (17); 0. -/
  scanUsed : Bool := false
  /-- DBG_STATUS.END, 4 bits; DBG_STATUS (17); 0. -/
  ending : Nat := 0
  /-- DBG_STATUS.RIGHTS, 10 bits; DBG_STATUS (17); 0. -/
  rights : BitVec 10 := 0
  /-- DBG_CTRL.DENY; DBG_CTRL (17); 0. -/
  deny : Bool := false
  /-- the nonce held, 32 octets; R585 (17); none. -/
  nonce : Option (List Byte) := none
  /-- NOT_AFTER of the open session, none for free rights; R590 (17); none. -/
  notAfter : Option Nat := none
  /-- the boot ROM holds the debug window; R578 (17); false. -/
  window : Bool := false
  /-- POWER_HOLD is on; R595 (17); off. -/
  powerHold : Bool := false
  /-- Hands being traced and their branch and exception trace; TRACE (17); none. -/
  traces : Assoc (List Word) := []
  /-- the TAP instruction register, 8 bits; R582 (17); PRESUMED IDCODE 02h (IEEE 1149.1; log 17). -/
  ir : Byte := 2
deriving DecidableEq, Repr

end Sys2Proof.Machine
end

