-- ==== Sys2Proof/Machine/StateEngine.lean ====
section
/-!
DEFINITION. Sys2Proof/Machine/StateEngine.lean: the Sealed Store, the cipher lanes and the PK
slices (spec files 08, 09 and 10).
-/
namespace Sys2Proof.Machine

/-- A Granary frame, keyed by the page it holds (R318, R319). -/
structure Frame where
  /-- the 896 plain words; Frames (08); none held. -/
  words : Memory := []
  /-- dirty; R320 (08); false. -/
  dirty : Bool := false
  /-- WORLD of the page, true Warden; none while a page that was never written has not been opened; R311 (08). -/
  world : Option Bool := none
  /-- pinned; R323 (08); false. -/
  pinned : Bool := false
  /-- the close order stamp, for the least recently closed; R319 (08); 0. -/
  closedAt : Nat := 0
deriving DecidableEq, Repr

/-- A page-in request (R734). -/
structure PageIn where
  /-- the page; R734 (08). -/
  page : Nat
  /-- asked for by a pin; R735 (08); false. -/
  forPin : Bool := false
  /-- the errands that ask for it, none for the Steward itself; R265 (07); none. -/
  askers : List Nat := []
  /-- under way; R734 (08); false. -/
  started : Bool := false
  /-- world of the first opening Hand, true Warden, none while no Hand has opened it; R311 (08); none. -/
  opener : Option Bool := none

  /-- asked for by the wake from Dormant; R323 (08); false. -/
  wake : Bool := false
  /-- errands whose STORE_MISSES counted this page-in; R279 (07); none. -/
  counted : List Nat := []
deriving DecidableEq, Repr

/-- A resident tree node (R313). -/
structure Node where
  /-- eight 56-bit counters; R313 (08); 0. -/
  counters : List Nat := List.replicate 8 0
  /-- dirty; R327 (08); false. -/
  dirty : Bool := false
deriving DecidableEq, Repr

/-- Share states (ST_MAP_OWNER.STATE). -/
inductive ShareState where
  | closed | opened | absent | stale | noRecord | newRefused
deriving DecidableEq, Repr

/-- One map entry (R301). -/
structure Share where
  /-- V; ST_MAP_RANGE (08); 0. -/
  valid : Bool := false
  /-- COUNT, 31 bits; ST_MAP_RANGE (08); 0. -/
  count : Nat := 0
  /-- FIRST, 30 bits; ST_MAP_RANGE (08); 0. -/
  first : Nat := 0
  /-- PATH, 36 bits; ST_MAP_OWNER (08); 0. -/
  path : Word := 0
  /-- STATE; ST_MAP_OWNER (08); CLOSED. -/
  state : ShareState := .closed
deriving DecidableEq, Repr

/-- Store states (ST_STATUS.STATE). -/
inductive StoreState where
  | closed | opening | opened | closing
deriving DecidableEq, Repr

/-- A draw of Store keys that waits for seeds (R347, R348, R732). -/
inductive StoreDraw where
  /-- none is asked for. -/
  | none
  /-- OPEN_NEW (true) or ROTATE (false) waits: the seeds still needed and those taken. -/
  | waiting (new : Bool) (need : Nat) (got : List (List Byte))
  /-- it failed under R732. -/
  | failed
  /-- the keys were drawn. -/
  | done
deriving DecidableEq, Repr

/-- How far a checkpoint has come (Checkpoint ladder). -/
inductive CkPhase where
  /-- none in progress. -/
  | idle
  /-- steps 1 to 3: writing back. -/
  | preparing
  /-- step 4: READY, waiting for the host. -/
  | ready
  /-- step 5 done: the record is owed (R341). -/
  | acked
deriving DecidableEq, Repr

/-- The Granary, the Store registers and the checkpoint machine (file 08). -/
structure Store where
  /-- ST_BASE, 64 bits; ST_BASE (08); 0. -/
  base : Word64 := 0
  /-- ST_SIZE.TREE, 30 bits; ST_SIZE (08); 0. -/
  tree : Nat := 0
  /-- ST_SIZE.PAGES, 31 bits; ST_SIZE (08); 0. -/
  pages : Nat := 0
  /-- ST_STATUS.CODE, 8 bits; ST_STATUS (08); 0. -/
  code : Byte := 0
  /-- ST_STATUS.STATE; ST_STATUS (08); CLOSED. -/
  state : StoreState := .closed
  /-- ST_MAP_INDEX, 12 bits; ST_MAP_INDEX (08); 0. -/
  mapIndex : Nat := 0
  /-- the share map, 4,096 entries; R300 (08); 0. -/
  map : Assoc Share := []
  /-- shares that have not reported since OPEN; Store states (08); none. -/
  unreported : List Nat := []
  /-- OPENING by OPEN_NEW; R347 (08); false. -/
  openNew : Bool := false
  /-- the index of this device's own share; R300 (08); none. -/
  own : Option Nat := none
  /-- frames by page; R318 (08); 16,384 free. -/
  frames : Assoc Frame := []
  /-- counts closes, for R319's order; R319 (08); 0. -/
  closeClock : Nat := 0
  /-- page-in queue; R734 (08); empty. -/
  queue : List PageIn := []
  /-- quarantined pages, and nodes whose pages all are (level, index); R325 (08); none. -/
  quarantine : List Nat := []
  /-- quarantined nodes; R325 (08); none. -/
  badNodes : List (Nat × Nat) := []
  /-- pinned pages; R323 (08); none. -/
  pins : List Nat := []
  /-- resident tree nodes of levels 1 to 9, keyed level × 2^40 + index; R315 (08); none. -/
  nodes : Assoc Node := []
  /-- the root, eight counters; R315 (08); DESIGN CHOICE 0 before an OPEN (log 12). -/
  root : List Nat := List.replicate 8 0
  /-- GEN, 16 bits; R309 (08); DESIGN CHOICE 0 before an OPEN (log 12). -/
  gen : Nat := 0
  /-- current epoch, 32 bits; EP_STATUS (08); 0. -/
  epoch : Nat := 0
  /-- epoch EPOCH - 1 is live; R348 (08); false. -/
  prevLive : Bool := false
  /-- the tree key, 32 octets, WARDEN-bound Vault key; R317 (08); none. -/
  treeKey : Option (List Byte) := none
  /-- epoch keys by epoch; R317 (08); none. -/
  epochKeys : Assoc (List Byte) := []
  /-- STORE_WORN: no write-back; R310 (08); false. -/
  worn : Bool := false
  /-- CK_CTRL.TIMEOUT, 16 bits; CK_CTRL (08); 01F4h. -/
  ckTimeout : Nat := 0x1F4
  /-- CK_CTRL.INTERVAL, 16 bits; CK_CTRL (08); 0064h. -/
  ckInterval : Nat := 0x64
  /-- CK_READY.READY is phase ready; CK_READY.SEQ, 32 bits; CK_READY (08); 0. -/
  ckSeq : Nat := 0
  /-- CK_DONE.FINAL; CK_DONE (08); 0. -/
  ckFinal : Bool := false
  /-- CK_DONE.ABANDONED; CK_DONE (08); 0. -/
  ckAbandoned : Bool := false
  /-- CK_DONE.SEQ, 32 bits; CK_DONE (08); 0. -/
  ckDone : Nat := 0
  /-- checkpoint phase; Checkpoint ladder (08); idle. -/
  ckPhase : CkPhase := .idle
  /-- a checkpoint is owed: an INTERVAL has elapsed or an errand waits; R333 (08); false. -/
  ckDue : Bool := false
  /-- present member owners that have not reported ready; Checkpoint ladder (08); none. -/
  ckOwners : List Word := []
  /-- member owners that hold this checkpoint's snapshot or may still take it; R337 (08); none. -/
  ckMembers : List Word := []
  /-- Tally ticks counted towards INTERVAL; R333 (08); 0. -/
  ckClock : Nat := 0
  /-- this owner's record of the acknowledged checkpoint is programmed; R341 (08); false. -/
  ckRecorded : Bool := false
  /-- the draw of new keys in progress; R732 (12); none. -/
  draw : StoreDraw := .none
  /-- FINAL of the record the share opened from; R345 (08); false. -/
  openFinal : Bool := false
  /-- SEQ of the record the share opened from, 32 bits; R345, R346 (08); DESIGN CHOICE 0 before an OPEN (log 12). -/
  openSeq : Nat := 0
  /-- the checkpoint in progress is the FINAL one; Store states (08); false. -/
  ckIsFinal : Bool := false
  /-- write-back frozen; R334 (08); false. -/
  frozen : Bool := false
  /-- the root snapshot of the checkpoint in progress; Checkpoint ladder (08); none. -/
  snapshot : Option (List Nat) := none
  /-- highest SEQ ever published; R332 (08); DESIGN CHOICE 0 (log 12). -/
  lastSeq : Nat := 0
  /-- this owner's checkpoint tokens, 0 to 64; R339 (08); 0 after device reset. -/
  tokens : Nat := 0
  /-- Tally ticks since the last token was added; R339 (08); 0. -/
  tokenClock : Nat := 0
  /-- the sweeper's read of its next page is under way, with the page's counter when known at its issue; R349 (08); none. -/
  sweepRead : Option (Option Nat) := none
  /-- a checkpoint started after the sweep ended: its SEQ; R351 (08); none. -/
  sweepCk : Option Nat := none
  /-- the sweep has ended; R351 (08); true when one epoch is live. -/
  sweepDone : Bool := true
  /-- next local page of the sweeper; R349 (08); 0. -/
  sweepNext : Nat := 0
  /-- ticks of 10 ns since READY was published, at the master; R335 (08); 0. -/
  ckWait : Nat := 0
  /-- the reads of levels 7 to 9 wait for host memory; R217 (05), R344 (08); false. -/
  topOwed : Bool := false
  /-- the dirty page whose node path has been read for a write-back ahead of need; R319, R327 (08); none. -/
  aheadRead : Option Nat := none
  /-- EP_CTRL.SHARE, 8 bits; EP_CTRL (08); 0Ah. -/
  epShare : Nat := 0x0A
  /-- GR_POLICY.NEW_OK; GR_POLICY (08); 0. -/
  newOk : Bool := false
  /-- PFW_N has stopped write-back, sweeping and page-in reads; R341 (08); false. -/
  powerFail : Bool := false
  /-- next flash line of the checkpoint sectors, 0 to 2,047; R333 (08); found by the newest record. -/
  recordLine : Nat := 0
deriving DecidableEq, Repr

/-- A cached lane key (R366). -/
structure CachedKey where
  /-- words 0 to 21 of the blob; R366 (09). -/
  blob : List Word
  /-- the key octets; R366 (09). -/
  key : List Byte
deriving DecidableEq, Repr

/-- The operation a lane runs (R358). -/
structure LaneOp where
  /-- the latched LN_GO; R358 (09). -/
  go : Word
  /-- latched LN_SRC; R358 (09). -/
  src : Nat
  /-- latched LN_DST; R358 (09). -/
  dst : Nat
  /-- payload octets; R360 (09). -/
  len : Nat
  /-- AAD octets; LN_AAD (09). -/
  aad : Nat
  /-- IV octets, 16; LN_IV (09). -/
  iv : List Byte
  /-- the key octets, empty until the blob is read; R364 (09). -/
  key : List Byte := []
  /-- latched LN_KEY; R358 (09). -/
  keyWord : Word := 0
  /-- the blob waits for an Aperture page; R371 (09); false. -/
  keyDue : Bool := false
  /-- the world of the Hand at the GO, true Warden; R365 (09). -/
  warden : Bool := false
  /-- each D-space source word as it stood at the GO, for R370 (09): none while its page has not come in since;
  empty for a host source. -/
  seen : List (Option Word) := []
  /-- its read of host memory is issued; R371 (09); false. -/
  asked : Bool := false
  /-- the Hand; R361 (09). -/
  hand : Nat
  /-- the errand; R279 (07). -/
  errand : Option Nat
  /-- IV registers the Hand wrote during the run; R736 (09); none. -/
  ivWritten : List Nat := []
  /-- the errand was stopped: end at the next 16-octet block; R280 (07); false. -/
  stopped : Bool := false
deriving DecidableEq, Repr

/-- The registers of a lane that a handback saves (R276). -/
structure LaneRegs where
  /-- LN_KEY, 36 bits; LN_KEY (09); 0. -/
  key : Word := 0
  /-- LN_SRC, 24 bits; LN_SRC (09); 0. -/
  src : BitVec 24 := 0
  /-- LN_DST, 24 bits; LN_DST (09); 0. -/
  dst : BitVec 24 := 0
  /-- LN_LEN, 24 bits; LN_LEN (09); 0. -/
  len : BitVec 24 := 0
  /-- LN_AAD, 24 bits; LN_AAD (09); 0. -/
  aad : BitVec 24 := 0
  /-- LN_IV0 to LN_IV3, 32 bits each; LN_IV (09); 0. -/
  iv : List (BitVec 32) := [0, 0, 0, 0]
  /-- LN_TAG0 to LN_TAG3, 32 bits each; LN_TAG (09); 0. -/
  tag : List (BitVec 32) := [0, 0, 0, 0]
  /-- LN_STATUS.KEY_HIT; LN_STATUS (09); 0. -/
  keyHit : Bool := false
  /-- LN_STATUS.STATUS, 8 bits; LN_STATUS (09); 0. -/
  status : Byte := 0
  /-- LN_STATUS.OCTETS, 24 bits; LN_STATUS (09); 0. -/
  octets : Nat := 0
  /-- the operation in progress (LN_STATUS.BUSY); LN_STATUS (09); none. -/
  op : Option LaneOp := none
deriving DecidableEq, Repr

/-- One cipher lane (file 09). -/
structure Lane where
  /-- registers and mode state; Lane window (09); reset values. -/
  regs : LaneRegs := {}
  /-- the key cache, most recently used first, at most 8; R366 (09); empty. -/
  cache : List CachedKey := []
  /-- a flush owed when the running operation ends; LN_FLUSH (09); false. -/
  flushOwed : Bool := false
  /-- the Hand the lane is granted to; R26 (01); none. -/
  holder : Option Nat := none
deriving DecidableEq, Repr

/-- The SEQUENCER operation, or other command, a slice runs. -/
structure SliceOp where
  /-- the latched PK_CMD word; R397 (10); 0 for a microcode load. -/
  cmd : Word
  /-- latched PK_KEYH; R397 (10). -/
  keyh : Word
  /-- latched PK_IN; R397 (10). -/
  inIdx : Nat
  /-- latched PK_OUT; R397 (10). -/
  outIdx : Nat
  /-- random octets drawn; R400 (10). -/
  random : List Byte
  /-- the Vault key transferred; R399, R446 (11). -/
  key : Option KeyObj := none
  /-- the Vault slot kept for KEYGEN or OUTV; R404 (10). -/
  slot : Option Nat := none
  /-- a PK_UCODE load; R407 (10); false. -/
  ucode : Bool := false
  /-- the PK_MGO word of a MAC command; R392 (10); none. -/
  mgo : Option Word := none
  /-- the PK_MCTL word of a load of A; R390 (10); none. -/
  load : Option Word := none
  /-- the world of the Hand at the command, true Warden; R399 (10); false. -/
  warden : Bool := false
  /-- random octets still to be drawn, while the instance waits for a seed; R400 (10); 0. -/
  randomDue : Nat := 0
  /-- the Hand; R389 (10). -/
  hand : Nat
  /-- the errand; R279 (07). -/
  errand : Option Nat
  /-- the errand was stopped; R412 (10); false. -/
  stopped : Bool := false
deriving DecidableEq, Repr

/-- The state of a slice that a handback saves (R276). -/
structure SliceRegs where
  /-- PK_KEYH, 36 bits; PK_KEYH (10); 0. -/
  keyh : Word := 0
  /-- PK_IN, 36 bits; PK_IN (10); 0. -/
  inp : Word := 0
  /-- PK_OUT, 36 bits; PK_OUT (10); 0. -/
  outp : Word := 0
  /-- PK_STATUS.STATUS, 8 bits; PK_STATUS (10); 0. -/
  status : Byte := 0
  /-- PK_STATUS.OVF; PK_STATUS (10); 0. -/
  ovf : Bool := false
  /-- PK_STATUS.MRANGE; PK_STATUS (10); 0. -/
  mrange : Bool := false
  /-- PK_RESULT, 36 bits; PK_RESULT (10); 0. -/
  result : Word := 0
  /-- PK_OPADDR, 13 bits; PK_OPADDR (10); 0. -/
  opaddr : Nat := 0
  /-- PK_MCTL, 36 bits; PK_MCTL (10); 0. -/
  mctl : Word := 0
  /-- register A, 576 bits; R383 (10); 0. -/
  a : Nat := 0
  /-- accumulator ACC, 1,728 bits; R383 (10); 0. -/
  acc : Nat := 0
  /-- operand memory, 8,192 words; R383 (10); DESIGN CHOICE 0 at power-on (device reset zero-fills, R411). -/
  opmem : Memory := []
  /-- the command in progress (PK_STATUS.BUSY); PK_STATUS (10); none. -/
  op : Option SliceOp := none
deriving DecidableEq, Repr

/-- One PK slice (file 10). -/
structure Slice where
  /-- registers and operand memory; Slice window (10); reset values. -/
  regs : SliceRegs := {}
  /-- the mode now served, true SEQUENCER; R384 (10); MAC (SW_SLICE_MODE resets to 0). -/
  seqMode : Bool := false
  /-- the Hand the slice is granted to; R26 (01); none. -/
  holder : Option Nat := none
  /-- world (true Warden) and Almanac index of the last errand that held it; R410 (10); none. -/
  lastUser : Option (Bool × Nat) := none
deriving DecidableEq, Repr

/-- What is common to the slices (R407, R408). -/
structure Ucode where
  /-- PK_UCODE.STATE: 0 NONE, 1 LOADED, 2 VERIFYING; PK_UCODE (10); 0. -/
  state : Nat := 0
  /-- PK_UCODE.VERSION, 32 bits; PK_UCODE (10); 0. -/
  version : BitVec 32 := 0
  /-- the installed image, whose SHA-384 block 3 reports; R408 (10); none. -/
  image : List Word := []
deriving DecidableEq, Repr

end Sys2Proof.Machine
end

