-- ==== Sys2Proof/Machine/StateGuard.lean ====
section
/-!
DEFINITION. Sys2Proof/Machine/StateGuard.lean: the Watch domain, the Parish Register, the card
gates, the Custody Tag and start-up (spec files 18 to 22).
-/
namespace Sys2Proof.Machine

/-- One Watch Log entry (WT_LOGnA, WT_LOGnB). -/
structure WatchEntry where
  /-- RTC seconds, 48 bits; WT_LOG (18). -/
  sec : Nat
  /-- MON, 5 bits; WT_LOG (18). -/
  mon : Nat
  /-- RESP, 3 bits; WT_LOG (18). -/
  resp : Nat
  /-- MAIN; WT_LOG (18). -/
  main : Bool
deriving DecidableEq, Repr

/-- One WT_MON register as written; its defaults are of the Monitors table. -/
structure MonitorCfg where
  /-- EN (monitors 0 to 5); WT_MON (18); 0. -/
  en : Bool
  /-- RESP as written, 3 bits; WT_MON (18); 0, so the floor in force. -/
  resp : Nat
  /-- N, 4 bits; WT_MON (18); Monitors table. -/
  n : Nat
  /-- W, 8 bits; WT_MON (18); Monitors table. -/
  w : Nat
deriving DecidableEq, Repr

/-- The Watch domain and the response engine (file 18). -/
structure Watch where
  /-- WT_STATE.TAMPERED; WT_STATE (18); 0. -/
  tampered : Bool := false
  /-- BBKR, 32 octets, when BBKR_PRESENT; R613 (18); absent. -/
  bbkr : Option (List Byte) := none
  /-- WT_STATE.RTC_VALID; WT_STATE (18); 0. -/
  rtcValid : Bool := false
  /-- WT_STATE.HALTED; WT_STATE (18); 0. -/
  halted : Bool := false
  /-- WT_STATE.WLOCK; WT_STATE (18); 0. -/
  wlock : Bool := false
  /-- WT_STATE.MLOCK; WT_STATE (18); 0. -/
  mlock : Bool := false
  /-- WT_STATE.STRONGEST, 3 bits; WT_STATE (18); 0. -/
  strongest : Nat := 0
  /-- WT_STATE.LOST, 4 bits saturating; WT_STATE (18); 0. -/
  lost : Nat := 0
  /-- the Watch Log, oldest first, at most 16; R623 (18); empty. -/
  log : List WatchEntry := []
  /-- WT_LATCH, 28 bits; WT_LATCH (18); 0. -/
  latch : BitVec 28 := 0
  /-- latch bits set by a HALT-or-stronger alarm; R602 (18); 0. -/
  strongLatch : BitVec 28 := 0
  /-- WT_MON0 to WT_MON27 written away from their defaults; WT_MON (18); defaults. -/
  mons : Assoc MonitorCfg := []
  /-- WT_TEST.MON, 5 bits; WT_TEST (18); 0. -/
  testMon : Nat := 0
  /-- events of monitors 24 to 27 reported since their last sample, by bit; R598 (18); 0. -/
  reported : BitVec 28 := 0
  /-- the last samples of monitors 24 to 27, newest first, 255 at most; R598 (18); none. -/
  samples : Assoc (List Bool) := []
  /-- Tally ticks since the last sample of the 1 µs monitors; Monitors table (18); 0. -/
  sampleClock : Nat := 0
  /-- the 15-bit sequence registers of loops TL0 to TL3; R599 (18); DESIGN CHOICE 1 each (log 101). -/
  loops : Assoc Nat := [(0, 1), (1, 1), (2, 1), (3, 1)]
  /-- slow ticks since the last loop sample, of 32; Monitors table (18); 0. -/
  loopTicks : Nat := 0
  /-- the bits the drive pins of TL0 to TL3 send; R599 (18); DESIGN CHOICE 0 before the first sample (log 101). -/
  loopDrive : BitVec 4 := 0
  /-- WT_TEST.BUSY: the monitor in self-test; WT_TEST (18); none. -/
  testRun : Option Nat := none
  /-- WT_TEST.RESULT, 2 bits; WT_TEST (18); 0. -/
  testResult : Nat := 0
  /-- RTC seconds, 48 bits; R615 (18); DESIGN CHOICE 0 (log 18). -/
  rtcSec : Nat := 0
  /-- RTC fraction, 15 bits; R615 (18); DESIGN CHOICE 0 (log 18). -/
  rtcFrac : Nat := 0
  /-- Tally ticks not yet turned into slow ticks; R615 (18); 0. -/
  rtcRest : Nat := 0
  /-- WT_RTC_HI as written, to be loaded with WT_RTC_LO; R615 (18); DESIGN CHOICE 0 (log 18). -/
  rtcHi : BitVec 12 := 0
  /-- captured WT_RTC_HI and WT_RTC_FRAC; R616 (18); DESIGN CHOICE 0 (log 18). -/
  capture : Nat × Nat := (0, 0)
  /-- the main side is unpowered; R609 (18); false. -/
  mainDark : Bool := false
  /-- VBAT is below 2.0 V; R611 (18); false. -/
  noVbat : Bool := false
  /-- a battery erase or ERASE whose TAMPER_ERASE record is owed at the next start: its monitor; status codes (18); none. -/
  eraseOwed : Option Nat := none
  /-- the boot ROM's monitor self-test has passed since reset; R600 (18); false. -/
  railsLive : Bool := false
deriving DecidableEq, Repr

/-- One code's rate limit (PR_RATE). -/
structure RateCfg where
  /-- ARCHIVE; PR_RATE (19); by code. -/
  archive : Bool
  /-- BURST, 8 bits; PR_RATE (19); 32. -/
  burst : Nat
  /-- RATE, 8 bits; PR_RATE (19); 10. -/
  rate : Nat
  /-- SUPP, 16 bits saturating; PR_RATE (19); 0. -/
  supp : Nat
  /-- tokens held, in 10^-8 token; R633 (19); full. -/
  fill : Nat
  /-- Tally when fill was brought up to date; R633 (19); 0. -/
  at_ : Nat
deriving DecidableEq, Repr

/-- The Parish Register (file 19). -/
structure Parish where
  /-- the ring, 16,384 words; R630 (19); 0 (emptied at guard-die power-on). -/
  ring : Memory := []
  /-- PR_STATUS.OLDEST, 14 bits; PR_STATUS (19); DESIGN CHOICE 0 (log 19). -/
  oldest : Nat := 0
  /-- PR_STATUS.NEXT, 14 bits; PR_STATUS (19); DESIGN CHOICE 0 (log 19). -/
  next : Nat := 0
  /-- words now held by records, so that a full ring differs from an empty one; R630 (19); 0. -/
  used : Nat := 0
  /-- SEQ of the next record, 24 bits; R628 (19); DESIGN CHOICE 0 for the first record ever (log 19). -/
  seq : Nat := 0
  /-- per-code limits away from their reset values; PR_RATE (19); reset values. -/
  rates : Assoc RateCfg := []
  /-- PR_STATUS.ASKIP, 7 bits saturating; PR_STATUS (19); 0. -/
  askip : Nat := 0
  /-- PR_CTRL.MODE, true SNAPSHOT; PR_CTRL (19); 1. -/
  snapshot : Bool := true
  /-- PR_CTRL.THRESH, 16 bits; PR_CTRL (19); 1. -/
  thresh : Nat := 1
  /-- records written since ACK; PR_CTRL (19); 0. -/
  count : Nat := 0
  /-- PR_RPTR.PTR, 14 bits; Parish window (19); 0. -/
  rptr : Nat := 0
  /-- PH_RPTR.PTR, 14 bits; R631 (19); 0. -/
  hptr : Nat := 0
  /-- PR_CODE, 8 bits; Parish window (19); 0. -/
  code : Nat := 0
  /-- PR_WDETAIL, 32 bits; Parish window (19); 0. -/
  wdetail : BitVec 32 := 0
  /-- PR_SLIST0 to PR_SLIST31; PR_SLIST (19); 0. -/
  slist : Memory := []
  /-- the archive line buffer, at most 16 words; R634 (19); empty. -/
  line : List Word := []
  /-- one above the SEQ of the newest record in the line buffer; R628 (19); 0. -/
  lineSeq : Nat := 0
  /-- one above the highest SEQ in the ring; R628 (19); 0. -/
  ringSeq : Nat := 0
  /-- one above the highest SEQ in the archive; R628 (19); 0. -/
  archSeq : Nat := 0
  /-- the next archive line of P4 to P7, 0 to 1,023; R636 (19); DESIGN CHOICE 0 (log 19). -/
  archLine : Nat := 0
  /-- archive tokens, at most 256; R635 (19); DESIGN CHOICE 256 (log 19). -/
  archTokens : Nat := 256
  /-- Tally ticks towards the next archive token; R635 (19); 0. -/
  archClock : Nat := 0
  /-- ticks of 10 ns since device reset, by which the rate limits refill; R633 (19); 0. -/
  now : Nat := 0
deriving DecidableEq, Repr

/-- One seat of a Carrier bus (file 20). -/
structure Seat where
  /-- VSER, 64 bits; Gate registers (20); 0. -/
  serial : Word64 := 0
  /-- CG_VCOUNT.STATE: 0 EMPTY, 1 AWAKE, 2 ASLEEP, 3 GONE; CG_VCOUNT (20); 0. -/
  state : Nat := 0
  /-- CG_VCOUNT.COUNT, 32 bits; CG_VCOUNT (20); 0. -/
  count : BitVec 32 := 0
deriving DecidableEq, Repr

/-- An intent of the Card Journal that no outcome has settled (R656). -/
structure Intent where
  /-- GATE, true B; Journal line (20). -/
  gate : Bool
  /-- SEAT; Journal line (20). -/
  seat : Nat
  /-- BLOCK; Journal line (20). -/
  block : Nat
  /-- SERIAL; Journal line (20). -/
  serial : Word64
  /-- OLD_COUNT; Journal line (20). -/
  oldCount : BitVec 32
  /-- DATA_CRC; Journal line (20). -/
  crc : BitVec 32
  /-- JSEQ; Journal line (20). -/
  jseq : Nat
deriving DecidableEq, Repr

/-- One card gate (file 20). -/
structure Gate where
  /-- CG_CTRL.CSTOP, 12 bits; CG_CTRL (20); 117. -/
  cstop : Nat := 117
  /-- CG_CTRL.CLKDIV, 7 bits; CG_CTRL (20); 124. -/
  clkdiv : Nat := 124
  /-- CG_CTRL.ISOCLK, 3 bits; CG_CTRL (20); 2. -/
  isoclk : Nat := 2
  /-- CG_CTRL.CLASSMAX, 2 bits; CG_CTRL (20); 1. -/
  classmax : Nat := 1
  /-- CG_CTRL.WIDTH4; CG_CTRL (20); 1. -/
  width4 : Bool := true
  /-- CG_CTRL.MODE, 2 bits; CG_CTRL (20); 0. -/
  mode : Nat := 0
  /-- CG_STATUS.STATE: 0 OFF to 4 OPERATING; CG_STATUS (20); 0. -/
  state : Nat := 0
  /-- CG_STATUS.PRES; CG_STATUS (20); the pin, DESIGN CHOICE 0 (log 2). -/
  pres : Bool := false
  /-- CG_STATUS.CLASS, 2 bits; CG_STATUS (20); 0. -/
  cls : Nat := 0
  /-- CG_STATUS.PROT; CG_STATUS (20); 0. -/
  prot : Bool := false
  /-- CG_STATUS.WIDTH; CG_STATUS (20); 0. -/
  width : Bool := false
  /-- CG_STATUS.CLKDIV; CG_STATUS (20); 0. -/
  divUsed : Nat := 0
  /-- the eight seats; R651 (20); EMPTY. -/
  seats : Assoc Seat := []
  /-- the claiming Hand (CG_CLAIM.HELD, OWNER); CG_CLAIM (20); none. -/
  owner : Option Nat := none
  /-- the claim is freed when the running operation ends; R643 (20); false. -/
  freeOwed : Bool := false
  /-- the running operation: CG_CMD (BUSY); CG_RESULT (20); none. -/
  op : Option Word := none
  /-- CG_RESULT.REPLAY; CG_RESULT (20); 0. -/
  replay : Bool := false
  /-- CG_RESULT.RXLEN, 9 bits; CG_RESULT (20); 0. -/
  rxlen : Nat := 0
  /-- CG_RESULT.STATUS, 8 bits; CG_RESULT (20); 0. -/
  status : Byte := 0
  /-- CG_RESULT.SW, 16 bits; CG_RESULT (20); 0. -/
  sw : BitVec 16 := 0
  /-- CG_BPTR, 7 bits; Gate registers (20); 0. -/
  bptr : Nat := 0
  /-- the 72-word buffer; Gate registers (20); DESIGN CHOICE 0 (log 4). -/
  buf : Memory := []
  /-- CG_VSEL, 3 bits; Gate registers (20); 0. -/
  vsel : Nat := 0
  /-- the VCC_EN pin; R641 (20), R711 (23); low. -/
  vccEn : Bool := false
  /-- the VSEL pin: 3.0 V; R641 (20), R711 (23); low. -/
  vselPin : Bool := false
  /-- the clock stop the ATR allows: level; R649 (20); none. -/
  clockStop : Option Bool := none
  /-- CLK is stopped at a level; R649 (20); running. -/
  clkStopped : Option Bool := none
  /-- the intent of the running WRITE; R656 (20); none. -/
  intent : Option Intent := none
deriving DecidableEq, Repr

/-- The Card Journal (file 20). -/
structure Journal where
  /-- pending intents, oldest first, at most 64; R659 (20); none (found in P2 and P3). -/
  pending : List Intent := []
  /-- CG_JSTATUS.TOKENS; CG_JSTATUS (20); 64. -/
  tokens : Nat := 64
  /-- Tally ticks towards the next token; R659 (20); 0. -/
  clock : Nat := 0
  /-- the next JSEQ, 32 bits; Journal line (20); DESIGN CHOICE 0 for the first (log 20). -/
  jseq : Nat := 0
  /-- the next line of P2 and P3, 0 to 511; R658 (20); DESIGN CHOICE 0 (log 20). -/
  line : Nat := 0
deriving DecidableEq, Repr

/-- Field states (R668). -/
inductive FieldState where
  | none | idle | ready | active | halt | opened | securedPwd | securedAes
deriving DecidableEq, Repr

/-- The Custody Tag (file 21). -/
structure Tag where
  /-- the 16 KiB block by octet, an unwritten octet FFh; R675 (21); DESIGN CHOICE FFh (log 4). -/
  nv : Assoc Byte := []
  /-- field state; R668 (21); none. -/
  field : FieldState := .none
  /-- UID, 32 bits; R666 (21); none without a field. -/
  uid : BitVec 32 := 0
  /-- FD_OUT_N asserted; R682 (21); false. -/
  fd : Bool := false
  /-- RndT of an AUTH1 just answered; R672 (21); none. -/
  rndT : Option (List Byte) := none
  /-- SK; R672 (21); none. -/
  sk : Option (List Byte) := none
  /-- CNT; R674 (21); 0. -/
  cnt : Nat := 0
  /-- the 1 s delay after a failed AUTH2 runs; R673 (21); false. -/
  delay : Bool := false
  /-- bit rates PPS chose: DRI, DSI; R665 (21); 106 kbit/s. -/
  rates : Nat × Nat := (0, 0)
  /-- the page a field write owns, with its octets and the command's CNT; R681 (21); none. -/
  fieldWrite : Option (Nat × List Byte) := none
  /-- a field write waits for a wired write; R681 (21); none. -/
  fieldWait : Option (Nat × List Byte) := none
  /-- TG_CTRL.IEN; TG_CTRL (21); 0. -/
  ien : Bool := false
  /-- the wired command running: TG_CMD (BUSY), and the pages it still writes; TG_RESULT (21); none. -/
  cmd : Option Word := none
  /-- pages and octets the wired command still writes; R680 (21); none. -/
  writes : List (Nat × List Byte) := []
  /-- TG_RESULT.STATUS, 8 bits; TG_RESULT (21); 0. -/
  status : Byte := 0
  /-- TG_KEYH, 36 bits; Tag window (21); 0. -/
  keyh : Word := 0
  /-- TG_BUF0 to TG_BUF29; Tag window (21); 0. -/
  buf : Memory := []
  /-- TG_ACL0 to TG_ACL7 as held; TG_ACL (21); loaded from the system pages. -/
  acl : Memory := []
  /-- SUMMARY is owed: AL_LC or the summary bits of AL_LATCH changed; R680 (21); false. -/
  summaryOwed : Bool := false
  /-- PWD_FAILS and AES_FAILS as last reported; R687 (21); 0. -/
  reported : Nat × Nat := (0, 0)
deriving DecidableEq, Repr

/-- Reset, start-up and recovery (file 22). -/
structure Startup where
  /-- device reset is in force; R689 (22); true right after power-on (log 2). -/
  inReset : Bool := true
  /-- every main rail is in range; R718 (23); false right after power-on (log 2). -/
  rails : Bool := false
  /-- PFW_N is asserted; file 08; false. -/
  pfw : Bool := false
  /-- BOOT_SEL sampled; R696 (22); low. -/
  bootSel : Bool := false
  /-- GC_CAUSE.ATTEMPTS, 4 bits; GC_CAUSE (22); 0. -/
  attempts : Nat := 0
  /-- GC_CAUSE.SLOT, true B; GC_CAUSE (22); 0. -/
  slot : Bool := false
  /-- GC_CAUSE.FALLBACK; GC_CAUSE (22); 0. -/
  fallback : Bool := false
  /-- GC_CAUSE.CAUSE, 7 bits; GC_CAUSE (22); 1. -/
  cause : BitVec 7 := 1
  /-- GC_CTRL.WD_LOCK; GC_CTRL (22); 0. -/
  wdLock : Bool := false
  /-- GC_WDOG.PERIOD, 16 bits; GC_WDOG (22); 2,000. -/
  wdPeriod : Nat := 2000
  /-- GC_WDOG.COUNT, 16 bits; GC_WDOG (22); 2,000. -/
  wdCount : Nat := 2000
  /-- Tally ticks towards the next millisecond; R693 (22); 0. -/
  wdRest : Nat := 0
  /-- FW_READY was written since the last device reset; R700 (22); false. -/
  fwWritten : Bool := false
  /-- HL_RCV_ADDR, 64 bits; Recovery registers (22); 0. -/
  rcvAddr : Word64 := 0
  /-- words of the Recovery read under way; Recovery registers (22); 0. -/
  rcvWords : Nat := 0
  /-- HL_RCV_STATUS.TARGET; Recovery registers (22); 0. -/
  rcvTarget : Bool := false
  /-- HL_RCV_STATUS.STATE, 4 bits; Recovery registers (22); 0. -/
  rcvState : Nat := 0
  /-- lanes that failed their start-up test; R696 (22); none. -/
  badLanes : List Nat := []
  /-- slices that failed their start-up test; R696 (22); none. -/
  badSlices : List Nat := []
  /-- the running firmware's slot hash, 48 octets; R214 (05); zero before a start. -/
  fwHash : List Byte := []
  /-- the running firmware's VERSION; Summary (21); 0. -/
  fwVersion : BitVec 32 := 0
deriving DecidableEq, Repr

end Sys2Proof.Machine
end

