-- ==== Sys2Proof/Machine/StateHost.lean ====
section
/-!
DEFINITION. Sys2Proof/Machine/StateHost.lean: the PCIe link, the rings, the errands and the
Steward's contracts (spec files 05, 06 and 07).
-/
namespace Sys2Proof.Machine

/-- The IDE stream (R215). -/
structure IdeStream where
  /-- the RID association block: requester IDs from base to limit, 16 bits each, valid; R215 (05); PRESUMED none (log 8). -/
  rid : Option (BitVec 16 × BitVec 16) := none
  /-- the two address association blocks: base and limit; R215 (05); PRESUMED none (log 8). -/
  addr : Assoc (Word64 × Word64) := []
  /-- the key set in use, 0 or 1; R215 (05); DESIGN CHOICE 0 (log 91). -/
  keySet : Bool := false
  /-- keys by key set × 3 + sub-stream (0 PR, 1 NPR, 2 CPL): transmit and receive, 32 octets each; R215 (05); none. -/
  keys : Assoc (List Byte × List Byte) := []
  /-- PCRC enabled; R215 (05); PRESUMED 0 (log 8). -/
  pcrc : Bool := false
deriving DecidableEq, Repr

/-- Advanced Error Reporting of the Endpoint (R200, R201); the bit places and reset values are PCIe's (log 8). -/
structure Aer where
  /-- uncorrectable error status, 32 bits; R200 (05); PRESUMED 0 (log 8). -/
  uncor : BitVec 32 := 0
  /-- uncorrectable error mask; R200 (05); PRESUMED 0 (log 8). -/
  uncorMask : BitVec 32 := 0
  /-- uncorrectable error severity; R200 (05); PRESUMED 00462030h (log 8). -/
  severity : BitVec 32 := 0x00462030
  /-- correctable error status; R200 (05); PRESUMED 0 (log 8). -/
  cor : BitVec 32 := 0
  /-- correctable error mask; R200 (05); PRESUMED 00002000h (log 8). -/
  corMask : BitVec 32 := 0x00002000
  /-- header log, four words of 32 bits; Supported and unsupported features (05); PRESUMED 0 (log 8). -/
  header : List (BitVec 32) := [0, 0, 0, 0]
  /-- error reporting enabled: correctable, non-fatal, fatal in bits 0 to 2; R200 (05); PRESUMED 0 (log 8). -/
  report : BitVec 3 := 0
deriving DecidableEq, Repr

/-- The completion timeout setting (R202). -/
inductive CplTimeout where
  /-- the default range, 50 µs to 50 ms. -/
  | standard
  /-- range A to D, 0 to 3. -/
  | range (r : BitVec 2)
  /-- disabled. -/
  | disabled
deriving DecidableEq, Repr

/-- One MSI-X table entry (R196). -/
structure MsixEntry where
  /-- message address, 64 bits; R196 (05); PRESUMED 0 (log 8). -/
  addr : Word64 := 0
  /-- message data, 32 bits; R196 (05); PRESUMED 0 (log 8). -/
  data : BitVec 32 := 0
  /-- vector mask bit; R199 (05); PRESUMED 1 (PCIe's reset value; log 8). -/
  masked : Bool := true
  /-- pending bit; R199 (05); 0. -/
  pending : Bool := false
deriving DecidableEq, Repr

/-- PCIe attachment (file 05). -/
structure HostLink where
  /-- Tally counter, 64 bits; R218 (05); 0. -/
  tally : Nat := 0
  /-- HL_STATUS.BOOT_STAGE, 8 bits; HL_STATUS (05); 0. -/
  bootStage : BitVec 8 := 0
  /-- HL_STATUS.MODE, 4 bits; HL_STATUS (05); 0 BOOTING. -/
  mode : BitVec 4 := 0
  /-- HL_STATUS.IDE_REQUIRED; HL_STATUS (05); 0. -/
  ideRequired : Bool := false
  /-- HL_STATUS.IDE_SECURE; HL_STATUS (05); 0. -/
  ideSecure : Bool := false
  /-- HL_STATUS.PTM_LOCK; HL_STATUS (05); 0. -/
  ptmLock : Bool := false
  /-- HL_STATUS.ACCESS_SIZE; HL_STATUS (05); 0. -/
  accessSize : Bool := false
  /-- HL_STATUS.IDE_DROP; HL_STATUS (05); 0. -/
  ideDrop : Bool := false
  /-- HL_STATUS.FW_READY; HL_STATUS (05); 0. -/
  fwReady : Bool := false
  /-- HL_CTRL.EVT_EN; HL_CTRL (05); 0. -/
  evtEn : Bool := false
  /-- HL_CTRL.PTM_ALIGN; HL_CTRL (05); 1. -/
  ptmAlign : Bool := true
  /-- HL_CTRL.QUIESCE; HL_CTRL (05); 0. -/
  quiesce : Bool := false
  /-- HL_EVT, 9 bits; HL_EVT (05); 0. -/
  evt : BitVec 9 := 0
  /-- HL_PTM.INTERVAL, 16 bits; HL_PTM (05); 03E8h. -/
  ptmInterval : BitVec 16 := 0x3E8
  /-- HL_PTM.OFFSET, 32 bits signed; HL_PTM (05); 0. -/
  ptmOffset : BitVec 32 := 0
  /-- ticks still to slew, signed (Tally minus target); R219 (05); 0. -/
  slew : Int := 0
  /-- nominal ticks of the present group of 1,024 while slewing; R219 (05); 0. -/
  slewPhase : Nat := 0
  /-- the first PTM exchange after reset has happened; R219 (05); false. -/
  ptmDone : Bool := false
  /-- a PTM request awaits its response; R218 (05); false. -/
  ptmPending : Bool := false
  /-- the Data Link Layer is up; R209 (05); false. -/
  dlUp : Bool := false
  /-- trained rate: 0 for 2.5 GT/s, then 5, 8, 16, 32, 64 and 6 for 128 GT/s; R187 (05); DESIGN CHOICE 0 while down (log 91). -/
  rate : Nat := 0
  /-- trained width: 0 for x1 to 4 for x16; R187 (05); DESIGN CHOICE 0 while down (log 91). -/
  width : Nat := 0
  /-- the link runs in FLIT mode; R188 (05); DESIGN CHOICE false while down (log 91). -/
  flitMode : Bool := false
  /-- PERST_N (or what acts as it) is asserted; R208 (05); true at guard-die power-on (log 2). -/
  perst : Bool := true
  /-- the device is in D3hot; R206 (05); false. -/
  d3hot : Bool := false
  /-- the device is in D3cold; R207, R208 (05); false. -/
  d3cold : Bool := false
  /-- Retry Status has ended under R210; R210 (05); false. -/
  retryEnded : Bool := false
  /-- configuration Bus Master Enable; R189 (05); PRESUMED 0 (log 8). -/
  busMaster : Bool := false
  /-- configuration PME_En; R207 (05); PRESUMED 0 (log 8). -/
  pmeEn : Bool := false
  /-- the host enables L1 and L1.2; Power states (16), R188 (05); PRESUMED 0 (log 8). -/
  aspmL1 : Bool := false
  l12 : Bool := false
  /-- configuration PTM Enable; R218 (05); PRESUMED 0 (log 8). -/
  ptmEnable : Bool := false
  /-- completion timeout; R202 (05); the default range. -/
  cplTimeout : CplTimeout := .standard
  /-- the host addresses of BAR0, BAR2 and BAR4; R190 (05); PRESUMED 0 (log 8). -/
  bars : Assoc Word64 := []
  /-- MSI-X Enable of Message Control; R199 (05); PRESUMED 0 (log 8). -/
  msixEnable : Bool := false
  /-- Function Mask of Message Control; R199 (05); PRESUMED 0 (log 8). -/
  msixMask : Bool := false
  /-- the MSI-X table and Pending Bit Array; R196 (05); as its fields. -/
  msix : Assoc MsixEntry := []

  /-- DOE Error; R212 (05); PRESUMED 0 (log 8). -/
  doeError : Bool := false
  /-- the data objects waiting for Warden firmware, oldest first; R212 (05); none. -/
  doeObjects : List (List Byte) := []
  /-- SPDM certificate slot 1, once Warden firmware has provisioned it; R214 (05); empty. -/
  certSlot1 : Option (List Byte) := none
  /-- low halves written by 4-byte writes whose effect waits for the high half, by BAR offset; R193 (05); none. -/
  halves : Assoc (BitVec 32) := []
  /-- Advanced Error Reporting; R200 (05); as its fields. -/
  aer : Aer := {}
  /-- the IDE stream; R215 (05); as its fields. -/
  ide : IdeStream := {}
deriving DecidableEq, Repr

/-- The states of an SQ or CQ (R229). -/
inductive RingState where
  | disabled | active | error | resetting
deriving DecidableEq, Repr

/-- A descriptor read under way (R726). -/
structure FetchRead where
  /-- the model's number of the read, which its arrival names (log 6). -/
  id : Nat := 0
  /-- index of the first descriptor; R726 (06). -/
  first : Nat
  /-- descriptors asked for, 1 to 8; R268 (07). -/
  count : Nat
  /-- the octets once arrived; R726 (06); none while outstanding. -/
  data : Option (List (List Byte)) := none
  /-- the CQ that holds the reservations; R237 (06). -/
  cq : Nat := 0
  /-- Tally at its arrival; ELAPSED (06); 0 while outstanding. -/
  arrived : Nat := 0
  /-- Tally at the doorbell that covered each descriptor, in index order; R264 (07). -/
  stamps : List Nat := []
deriving DecidableEq, Repr

/-- What the doorbell that covered a slot settled (R264, R285). -/
structure SlotStamp where
  /-- Tally at the doorbell write; R264 (07). -/
  at_ : Nat
deriving DecidableEq, Repr

/-- One ring register set with its SQ and CQ (file 06). -/
structure Ring where
  /-- RG_SQ_BASE, 64 bits; RG_SQ_BASE (06); 0. -/
  sqBase : Word64 := 0
  /-- RG_CQ_BASE, 64 bits; RG_CQ_BASE (06); 0. -/
  cqBase : Word64 := 0
  /-- SQ_DEPTH, 17 bits; RG_SIZE (06); 0. -/
  sqDepth : Nat := 0
  /-- CQ_DEPTH, 17 bits; RG_SIZE (06); 0. -/
  cqDepth : Nat := 0
  /-- CQ_SEL, 8 bits; RG_CTRL (06); 0. -/
  cqSel : Nat := 0
  /-- IRQ_EN; RG_CTRL (06); 0. -/
  irqEn : Bool := false
  /-- CQ_EN; RG_CTRL (06); 0. -/
  cqEn : Bool := false
  /-- SQ_EN; RG_CTRL (06); 0. -/
  sqEn : Bool := false
  /-- IN_FLIGHT, 16 bits; RG_STATUS (06); 0. -/
  inFlight : Nat := 0
  /-- ERR_INDEX, 16 bits; RG_STATUS (06); 0. -/
  errIndex : Nat := 0
  /-- ERR, 8 bits; RG_STATUS (06); 0. -/
  err : Nat := 0
  /-- CQ_STATE; RG_STATUS (06); DISABLED. -/
  cqState : RingState := .disabled
  /-- SQ_STATE; RG_STATUS (06); DISABLED. -/
  sqState : RingState := .disabled
  /-- SQ_HEAD, 16 bits; FSW_RING (05); 0. -/
  sqHead : Nat := 0
  /-- SQ_TAIL, 16 bits; Doorbell (06); 0. -/
  sqTail : Nat := 0
  /-- CQ_HEAD, 16 bits; Doorbell (06); 0. -/
  cqHead : Nat := 0
  /-- CQ_TAIL, 16 bits; FSW_RING (05); 0. -/
  cqTail : Nat := 0
  /-- PHASE of the present pass; R245 (06); 1 on entry to ACTIVE. -/
  phase : Bool := true
  /-- CQ slots reserved by fetched errands; R237 (06); 0. -/
  reserved : Nat := 0
  /-- the next index the Steward issues a read for; R236 (06); 0. -/
  sqFetch : Nat := 0
  /-- reads under way, in index order; R726 (06); none. -/
  reads : List FetchRead := []
  /-- stamps of the slots covered by a doorbell and not yet fetched, in index order; R264 (07); none. -/
  stamps : List SlotStamp := []
  /-- the model's number of the next read; 0. -/
  nextRead : Nat := 0
  /-- CQ_HEAD and SQ_TAIL of the doorbell register as last written; Doorbell (06); 0. -/
  dbHead : Nat := 0
  dbTail : Nat := 0
  /-- SQ n, and CQ n, hang until a reset after a host misuse; R262 (06; log 92); false. -/
  sqHung : Bool := false
  cqHung : Bool := false
deriving DecidableEq, Repr

/-- Where an errand came from. -/
inductive ErrandSrc where
  | ring (sq : Nat)
  | internal
  | baton
deriving DecidableEq, Repr

/-- How far an errand has come. -/
inductive ErrandPhase where
  /-- FENCE: waits for the completions of earlier errands of its SQ (R243). -/
  | fenced
  /-- waits for a device tag or a Hand (R241, R271). -/
  | waiting
  /-- on a Hand: LOADING or later (R24). -/
  | placed (hand : Nat)
  /-- ended; the Steward writes the completion (R244). -/
  | ending (hand : Option Nat)
  /-- a LOAD, UNLOAD or CHECKPOINT under way in the Steward. -/
  | service
  /-- forwarded over a Baton port to a device of the route table (R52). -/
  | forwarded (port dev : Nat)
deriving DecidableEq, Repr

/-- One errand the device holds (file 06). -/
structure Errand where
  /-- origin; R297 (07). -/
  src : ErrandSrc
  /-- the 64 descriptor octets; R238 (06). -/
  raw : List Byte
  /-- device tag, 12 bits; R241 (06); none until assigned. -/
  dtag : Option Nat := none
  /-- absolute deadline, none all ones; R264 (07). -/
  deadline : Option Nat := none
  /-- the contract under which the deadline was taken; R267 (07). -/
  contract : Option Nat := none
  /-- Tally at descriptor arrival; ELAPSED (06). -/
  arrival : Nat := 0
  /-- where the errand stands: waiting, forwarded, placed, served or ending; R30, R33 (01). -/
  phase : ErrandPhase := .waiting
  /-- the CQ whose slot is reserved; R237 (06). -/
  cq : Nat := 0
  /-- of an errand over Baton, the SQ it came from; Errand Window (06); 0. -/
  sq : Nat := 0
  /-- STATUS to report; Completion (06); 0. -/
  status : BitVec 8 := 0
  /-- RESULT to report; Completion (06); 0. -/
  result : Word := 0
  /-- DETAIL to report; Completion (06); 0. -/
  detail : BitVec 32 := 0
  /-- EXEC_PATH to report; R48 (01). -/
  execPath : Word := 0
  /-- DONE was executed (an INOUT write-back is owed); R250 (06); false. -/
  done : Bool := false
  /-- DETAIL of a failed buffer write; R251 (06); none. -/
  dmaFail : Option (BitVec 32) := none
  /-- its SQ was reset: no completion is written; R230 (06); false. -/
  dropped : Bool := false
  /-- LANE_BYTES used; R279 (07); 0. -/
  laneBytes : Nat := 0
  /-- operations counted against Verb word 5; R279 (07); 0. -/
  pk5 : Nat := 0
  /-- operations counted against Verb word 6; R279 (07); 0. -/
  pk6 : Nat := 0
  /-- page misses counted; R279 (07); 0. -/
  misses : Nat := 0
  /-- host tag the master knows a Baton errand by; R52 (01); none. -/
  batonTag : Option Nat := none
  /-- CHECKPOINT errand: the checkpoint that satisfies it; R336 (08); none. -/
  ckWait : Option Nat := none
  /-- of a forwarded errand: its device has told that it holds a Hand, so it is out of the ready set; R269 (07); false. -/
  running : Bool := false
  /-- of an errand over Baton: the master has told that its contract is BROKEN; R289 (07); false. -/
  demoted : Bool := false
  /-- LOAD or UNLOAD: the members it was forwarded to that have not answered, by path; R52 (01); none. -/
  awaits : List Word := []
  /-- LOAD: the index it loads at while members have not answered; R257 (06); none. -/
  loads : Option Nat := none
deriving DecidableEq, Repr

/-- One Verb declaration (file 06). -/
structure VerbDecl where
  /-- PRECISE; Verb declaration (06). -/
  precise : Bool
  /-- HOST; Verb declaration (06). -/
  host : Bool
  /-- ENTRY, 16 bits; Verb declaration (06). -/
  entry : Nat
  /-- CORE_NS, 32 bits; Verb declaration (06). -/
  coreNs : Nat
  /-- WORKSPACE words; Verb declaration (06). -/
  workspace : Nat
  /-- ARG_WORDS; Verb declaration (06). -/
  argWords : Nat
  /-- LANE_BYTES, 36 bits; Verb declaration (06). -/
  laneBytes : Nat
  /-- RB_KIB; Verb declaration (06). -/
  rbKib : Nat
  /-- APERTURES; Verb declaration (06). -/
  apertures : Nat
  /-- STORE_MISSES; Verb declaration (06). -/
  storeMisses : Nat
  /-- word 5: PSET, OP, COUNT; Verb declaration (06). -/
  pk5 : Nat × Nat × Nat
  /-- word 6: PSET, OP, COUNT; Verb declaration (06). -/
  pk6 : Nat × Nat × Nat
deriving DecidableEq, Repr

/-- A loaded Almanac (file 06). -/
structure Almanac where
  /-- WORLD, true Warden; Almanac header (06). -/
  warden : Bool
  /-- NAME; Almanac header (06). -/
  name : Word
  /-- VERSION; Almanac header (06). -/
  version : Word
  /-- Verb table; Almanac image layout (06). -/
  verbs : List VerbDecl
  /-- IMAGE_WORDS; Almanac header (06). -/
  size : Nat
  /-- the octets the signature covers, whose hash R214's block 6 uses; R253 (06). -/
  image : List Byte
  /-- the image as buffer 1 delivered it, which JOIN and a member's LOAD send on; R255, JOIN ladder (15). -/
  octets : List Byte := []
  /-- an UNLOAD has taken hold; R259 (06); false. -/
  unloading : Bool := false
  /-- at the master: the paths of the members that have loaded it; R239, R255 (06); none. -/
  devices : List Word := []
deriving DecidableEq, Repr

/-- Contract states (file 07). -/
inductive ContractState where
  | none | admitted | atRisk | broken
deriving DecidableEq, Repr

/-- One ring's contract (file 07). -/
structure Contract where
  /-- number of the SET that installed it; R267 (07); 0. -/
  serial : Nat := 0
  /-- CT_TARGET.PATH; CT_TARGET (07); 0. -/
  target : Word := 0
  /-- BURST; CT_SHAPE (07); 0. -/
  burst : Nat := 0
  /-- RATE; CT_SHAPE (07); 0. -/
  rate : Nat := 0
  /-- DEADLINE; CT_DEADLINE (07); 0. -/
  deadline : Nat := 0
  /-- the Verb set, pairs ALMANAC and VERB; CT_VERB (07); empty. -/
  verbs : List (Nat × Nat) := []
  /-- bucket fill in units of 10^-8 token; R285 (07); 0. -/
  fill : Nat := 0
  /-- Tally when fill was last brought up to date; R285 (07); 0. -/
  filledAt : Nat := 0
  /-- EXCESS, 16 bits saturating; CT_STATE (07); 0. -/
  excess : Nat := 0
  /-- MISSES, 16 bits saturating; CT_STATE (07); 0. -/
  misses : Nat := 0
  /-- CAUSE, 4 bits; CT_STATE (07); 0. -/
  cause : Nat := 0
  /-- STATE; CT_STATE (07); NONE. -/
  state : ContractState := .none
deriving DecidableEq, Repr

/-- The Steward (files 06 and 07). -/
structure Steward where
  /-- STEWARD_GO has been written; R37 (01), GC (22); false. -/
  started : Bool := false
  /-- every errand held, by the model's errand number; R24 (01); none. -/
  errands : Assoc Errand := []
  /-- the next errand number, which orders arrivals (R265); 0. -/
  nextErrand : Nat := 0
  /-- loaded Almanacs by index; R257 (06); none. -/
  almanacs : Assoc Almanac := []
  /-- the next Almanac index the master issues; R257 (06); 1. -/
  nextAlmanac : Nat := 1
  /-- CT_TARGET; CT_TARGET (07); 0. -/
  ctTarget : Word64 := 0
  /-- CT_SHAPE; CT_SHAPE (07); 0. -/
  ctShape : Word64 := 0
  /-- CT_DEADLINE; CT_DEADLINE (07); 0. -/
  ctDeadline : Word64 := 0
  /-- CT_MEMLAT.MEMLAT, 32 bits; CT_MEMLAT (07); 3200. -/
  ctMemlat : Nat := 3200
  /-- CT_RESULT; CT_RESULT (07); 0. -/
  ctResult : Word64 := 0
  /-- a CT_CMD under way: OP and ring; CT_RESULT.BUSY (07); none. -/
  ctBusy : Option (Nat × Nat) := none
  /-- CT_VERB0 to CT_VERB15; CT_VERB (07); 0. -/
  ctVerb : Assoc Word64 := []
  /-- contracts by ring; CT_STATE (07); NONE. -/
  contracts : Assoc Contract := []
  /-- the next contract number, which orders admissions (R290); 1. -/
  nextContract : Nat := 1
  /-- SW_SLICE_MODE.SEQ, 16 bits; SW_SLICE_MODE (07); 0. -/
  sliceMode : BitVec 16 := 0
  /-- the internal completion queue, 8 words each; R297 (07); empty. -/
  icpl : List (List Word) := []
  /-- SW_ICPL_CNT.REFUSED; SW_ICPL_CNT (07); 0. -/
  icplRefused : Bool := false
  /-- the SQ last fetched among contracted rings; R268 (07); DESIGN CHOICE 255 (log 5). -/
  rotContract : Nat := 255
  /-- the SQ last fetched among the others; R268 (07); DESIGN CHOICE 255 (log 5). -/
  rotOther : Nat := 255
  /-- pages' Granary affinity: page to core; R270 (07); none. -/
  affinity : Assoc Nat := []
deriving DecidableEq, Repr

end Sys2Proof.Machine
end

