-- ==== Sys2Proof/Machine/State.lean ====
section
/-!
DEFINITION. Sys2Proof/Machine/State.lean: the state of the device, why a command can stop, and
the state right after reset.
-/
namespace Sys2Proof.Machine

/-- Why the device stops. -/
inductive Fault where
  /-- Behaviour the spec calls UNPREDICTABLE (the rule's number). No command raises it: the spec
  bounds such behaviour (R10, R11), and the model goes on within those bounds (log 66). Safe. -/
  | unpredictable (rule : Nat)
deriving DecidableEq, Repr

/-- Why the model refuses a command. -/
inductive Refusal where
  /-- The command has no meaning yet. Raised by Dispatch only. Safe. -/
  | notModelled (mnemonic : String)
deriving DecidableEq, Repr

/-- What the device sends outward: host memory writes, messages, pins and answers. The model
keeps them in order, newest last (log 7). -/
inductive Out where
  /-- a posted write to host memory. -/
  | hostWrite (address : Word64) (octets : List Byte)
  /-- a read request to host memory. -/
  | hostRead (address : Word64) (length : Nat)
  /-- an MSI-X message of a vector (R197). -/
  | msix (vector : Nat)
  /-- a configuration answer: Retry Status, or done (R209). -/
  | configRetry
  | configDone
  /-- a configuration read's data. -/
  | configData (value : Nat)
  /-- a request answered with Unsupported Request (R216). -/
  | unsupported
  /-- an ERR_COR (0), ERR_NONFATAL (1) or ERR_FATAL (2) message of AER (R200). -/
  | errMsg (severity : Nat)
  /-- a BAR read's data (R194). -/
  | barData (octets : List Byte)
  /-- a PTM request (R218). -/
  | ptmRequest
  /-- an LTR message with its value in ns (R203). -/
  | ltr (ns : Nat)
  /-- PME, PE_WAKE_N and PME_TO_Ack (R207, R556, R557). -/
  | pme
  | peWake
  | pmeAck
  /-- a flit sent on a Baton port (R512). -/
  | flit (port : Nat) (f : Flit)
  /-- the training flits of a port: its number and whether its device is the master (R510). -/
  | training (port : Nat) (master : Bool)
  /-- a debug mailbox or TAP answer: status and words (R583). -/
  | mailbox (status : Byte) (words : List Nat)
  /-- a field-side answer of the Custody Tag (R669). -/
  | tagAnswer (octets : List Byte)
  /-- a card-gate pin action: gate, what. -/
  | gatePin (gate : Bool) (what : String)
  /-- octets a gate sends to its card: a command APDU, a block, a PIN (R648, R653, R654). -/
  | cardOctets (gate : Bool) (octets : List Byte)
  /-- ALARM_N asserted or released (R614). -/
  | alarmN (asserted : Bool)
  /-- a DOE answer: the Busy and Error bits (R211, R212). -/
  | doe (busy error : Bool)
deriving DecidableEq, Repr

/-- The device (every chapter's state), the commands waiting and what it has sent. -/
structure State where
  /-- the commands waiting, first in, first out; the model's own (log 9); empty. -/
  pending : List Instr := []
  /-- what the device sent outward, oldest first; the model's own (log 7); empty. -/
  out : List Out := []
  /-- counter of free values taken; the model's own, DESIGN CHOICE 0 (log 10). -/
  free : Nat := 0
  /-- the 512 Hands; file 01; FREE. -/
  hands : Assoc Hand := []
  /-- the 128 cores; file 01; core reset. -/
  cores : Assoc Core := []
  /-- the 8 Hamlets; file 01; device reset. -/
  hamlets : Assoc Hamlet := []
  /-- the device ACU; file 13; device reset. -/
  devAcu : Acu := {}
  /-- PCIe attachment; file 05; PERST_N. -/
  link : HostLink := {}
  /-- the 256 rings; file 06; PERST_N. -/
  rings : Assoc Ring := []
  /-- the Steward; file 07; device reset. -/
  steward : Steward := {}
  /-- the Sealed Store; file 08; PERST_N and device reset. -/
  store : Store := {}
  /-- the 16 cipher lanes; file 09; grant. -/
  lanes : Assoc Lane := []
  /-- lane states saved by handback, by Hand; R276 (07); none. -/
  savedLanes : Assoc LaneRegs := []
  /-- the 16 PK slices; file 10; grant. -/
  slices : Assoc Slice := []
  /-- slice states saved by handback, by Hand; R276 (07); none. -/
  savedSlices : Assoc SliceRegs := []
  /-- PK microcode; R408 (10); device reset. -/
  ucode : Ucode := {}
  /-- the Key Vault; file 11; device reset. -/
  vault : Vault := {}
  /-- the entropy block; file 12; device reset. -/
  entropy : Entropy := {}
  /-- flash; file 14; device reset. -/
  flash : Flash := {}
  /-- the cascade router; file 15; device reset and PERST_N. -/
  cascade : Cascade := {}
  /-- power and governor; file 16; device reset and PERST_N. -/
  power : Power := {}
  /-- life cycle and debug; file 17; device reset. -/
  life : LifeCycle := {}
  /-- the Watch domain; file 18; Watch power-on reset. -/
  watch : Watch := {}
  /-- the Parish Register; file 19; device reset. -/
  parish : Parish := {}
  /-- card gate A; file 20; device reset. -/
  gateA : Gate := {}
  /-- card gate B; file 20; device reset. -/
  gateB : Gate := {}
  /-- the Card Journal; file 20; device reset. -/
  journal : Journal := {}
  /-- the Custody Tag; file 21; device reset. -/
  tag : Tag := {}
  /-- reset, start-up and recovery; file 22; guard-die power-on reset. -/
  startup : Startup := {}
deriving DecidableEq, Repr

/-- The machine right after a guard-die power-on reset, with device reset still in force
(R689; log 2). -/
def State.reset : State := {}

end Sys2Proof.Machine
end

