-- ==== Sys2Proof/Machine/Access.lean ====
section
/-!
DEFINITION. Sys2Proof/Machine/Access.lean: reading and writing one part of the state, and the
outcomes meanings answer with.
-/
namespace Sys2Proof.Machine

/-- What a meaning answers. -/
abbrev Res := Host.Outcome State Fault Refusal

/-- An event command of which the spec's condition does not hold changes nothing (log 21). -/
def State.same (s : State) : Res := .next s


def State.hand (s : State) (h : Nat) : Hand := aget {} s.hands h
def State.setHand (s : State) (h : Nat) (x : Hand) : State := { s with hands := aput s.hands h x }
def State.modHand (s : State) (h : Nat) (f : Hand → Hand) : State := s.setHand h (f (s.hand h))
def State.core (s : State) (c : Nat) : Core := aget {} s.cores c
def State.setCore (s : State) (c : Nat) (x : Core) : State := { s with cores := aput s.cores c x }
def State.modCore (s : State) (c : Nat) (f : Core → Core) : State := s.setCore c (f (s.core c))
def State.hamlet (s : State) (i : Nat) : Hamlet := aget {} s.hamlets i
def State.modHamlet (s : State) (i : Nat) (f : Hamlet → Hamlet) : State :=
  { s with hamlets := aput s.hamlets i (f (s.hamlet i)) }
def State.ring (s : State) (n : Nat) : Ring := aget {} s.rings n
def State.setRing (s : State) (n : Nat) (x : Ring) : State := { s with rings := aput s.rings n x }
def State.modRing (s : State) (n : Nat) (f : Ring → Ring) : State := s.setRing n (f (s.ring n))
def State.lane (s : State) (n : Nat) : Lane := aget {} s.lanes n
def State.setLane (s : State) (n : Nat) (x : Lane) : State := { s with lanes := aput s.lanes n x }
def State.modLane (s : State) (n : Nat) (f : Lane → Lane) : State := s.setLane n (f (s.lane n))
def State.slice (s : State) (n : Nat) : Slice := aget {} s.slices n
def State.setSlice (s : State) (n : Nat) (x : Slice) : State := { s with slices := aput s.slices n x }
def State.modSlice (s : State) (n : Nat) (f : Slice → Slice) : State := s.setSlice n (f (s.slice n))
def State.errand? (s : State) (e : Nat) : Option Errand := afind s.steward.errands e
def State.setErrand (s : State) (e : Nat) (x : Errand) : State :=
  { s with steward := { s.steward with errands := aput s.steward.errands e x } }
def State.modErrand (s : State) (e : Nat) (f : Errand → Errand) : State :=
  match s.errand? e with
  | some x => s.setErrand e (f x)
  | none => s
def State.modSteward (s : State) (f : Steward → Steward) : State := { s with steward := f s.steward }
def State.modLink (s : State) (f : HostLink → HostLink) : State := { s with link := f s.link }
def State.modStore (s : State) (f : Store → Store) : State := { s with store := f s.store }
def State.modVault (s : State) (f : Vault → Vault) : State := { s with vault := f s.vault }
def State.modEntropy (s : State) (f : Entropy → Entropy) : State := { s with entropy := f s.entropy }
def State.modFlash (s : State) (f : Flash → Flash) : State := { s with flash := f s.flash }
def State.modCascade (s : State) (f : Cascade → Cascade) : State := { s with cascade := f s.cascade }
def State.modPower (s : State) (f : Power → Power) : State := { s with power := f s.power }
def State.modLife (s : State) (f : LifeCycle → LifeCycle) : State := { s with life := f s.life }
def State.modWatch (s : State) (f : Watch → Watch) : State := { s with watch := f s.watch }
def State.modParish (s : State) (f : Parish → Parish) : State := { s with parish := f s.parish }
def State.modJournal (s : State) (f : Journal → Journal) : State := { s with journal := f s.journal }
def State.modTag (s : State) (f : Tag → Tag) : State := { s with tag := f s.tag }
def State.modStartup (s : State) (f : Startup → Startup) : State := { s with startup := f s.startup }
def State.gate (s : State) (b : Bool) : Gate := if b then s.gateB else s.gateA
def State.modGate (s : State) (b : Bool) (f : Gate → Gate) : State :=
  if b then { s with gateB := f s.gateB } else { s with gateA := f s.gateA }
def State.contract (s : State) (n : Nat) : Contract := aget {} s.steward.contracts n
def State.modContract (s : State) (n : Nat) (f : Contract → Contract) : State :=
  s.modSteward fun w => { w with contracts := aput w.contracts n (f (s.contract n)) }
def State.port (s : State) (p : Nat) : BatonPort := aget {} s.cascade.ports p
def State.modPort (s : State) (p : Nat) (f : BatonPort → BatonPort) : State :=
  s.modCascade fun c => { c with ports := aput c.ports p (f (s.port p)) }
def State.source (s : State) (i : Nat) : NoiseSource := aget {} s.entropy.sources i
def State.modSource (s : State) (i : Nat) (f : NoiseSource → NoiseSource) : State :=
  s.modEntropy fun e => { e with sources := aput e.sources i (f (s.source i)) }
def State.drbg (s : State) (i : Nat) : Drbg := aget {} s.entropy.drbgs i
def State.modDrbg (s : State) (i : Nat) (f : Drbg → Drbg) : State :=
  s.modEntropy fun e => { e with drbgs := aput e.drbgs i (f (s.drbg i)) }

/-- Send something outward (log 7). -/
def State.emit (s : State) (o : Out) : State := { s with out := s.out ++ [o] }

/-- The PCIe link carries requests: up, and not in the L2 of Dormant (Power states table). -/
def State.linkAwake (s : State) : Bool := s.link.dlUp && decide (s.power.state ≠ .dormant)

/-- A wake event in Doze, Nap or Slumber: the device owes its return to Run (R552, R553; log 110). -/
def State.owesWake (s : State) : State :=
  if s.power.state = .run ∨ s.power.state = .dormant then s else s.modPower fun p => { p with wakeOwed := true }

/-- The flit a port sends next: of the first class that waits, the message under way goes on; else the sources take
their turns, and the flits of one source go in order (R519; log 117). -/
def BatonPort.pick (q : BatonPort) : Option Flit :=
  match q.waiting with
  | [] => none
  | f :: _ =>
    let fs := q.waiting.filter fun x => x.cls == f.cls
    let turn := (List.range 9).map fun i => (q.lastSrc + 1 + i) % 9
    match afind q.mid f.cls with
    | some src => fs.find? fun x => x.src == src
    | none => turn.findSome? fun src => fs.find? fun x => x.src == src

/-- The next waiting flit of a port goes on the link with its SEQ, ACK and IV count (R512, R513, R519). -/
def State.sendNext (s : State) (p : Nat) : State :=
  let q := s.port p
  match q.pick with
  | none => s
  | some f =>
    if 512 ≤ q.unacked.length then s
    else
      let g := { f with
        seq := q.txSeq, ack := (q.rxSeq + 1023) % 1024, count := q.sent, keyed := decide (q.state = .keyed) }
      (s.modPort p fun r => { r with
        waiting := r.waiting.erase f, txSeq := (r.txSeq + 1) % 1024, sent := r.sent + 1, quiet := 0
        lastSrc := f.src, mid := if f.more then aput r.mid f.cls f.src else aerase r.mid f.cls
        unacked := r.unacked ++ [{ flit := g, times := 1 }] }).emit (.flit p g)

/-- At most 512 flits of a port are unacknowledged; waiting ones go out as places come free (R514). -/
def State.pumpPort (s : State) (p : Nat) : State :=
  (List.range (s.port p).waiting.length).foldl (fun t _ => t.sendNext p) s

/-- The flits of a message: pieces of at most 234 octets, MORE on all but the last (Flit header table). -/
def messageFlits (type cls src : Nat) (octets : List Byte) : List Flit :=
  let pieces := if octets.isEmpty then [[]] else chunks 234 octets
  ((List.range pieces.length).zip pieces).map fun x =>
    { type := type, cls := cls, more := decide (x.1 + 1 < pieces.length), payload := x.2, src := src }

/-- Flits take their place behind those of their class and of the classes before it (R519). -/
def queueFlits (q new : List Flit) (cls : Nat) : List Flit :=
  (q.filter fun f => f.cls ≤ cls) ++ new ++ q.filter fun f => cls < f.cls

/-- The octets of a message: its numbers as 8 octets each, least significant first, then its data (log 40). -/
def messageOctets (content : List Nat) (data : List Byte) : List Byte := content.flatMap (leOctets 8) ++ data

/-- A port carries messages: KEYED, and not a downstream port of a member that has lost its master (R536). -/
def State.portLive (s : State) (p : Nat) : Bool :=
  decide ((s.port p).state = .keyed) && (s.cascade.master || s.cascade.joined || p == 0)

/-- A message's flits join those that wait at a port, and go out as they can (R512 to R514, R519). -/
def State.enqueue (s : State) (p type cls : Nat) (content : List Nat) (data : List Byte) : State :=
  (s.modPort p fun q => { q with
    waiting := queueFlits q.waiting (messageFlits type cls s.cascade.relaying (messageOctets content data)) cls }).pumpPort p

/-- Send a message of a class through a KEYED port. -/
def State.sendFlit (s : State) (p type cls : Nat) (content : List Nat) (data : List Byte) : State :=
  if s.portLive p then s.enqueue p type cls content data else s

/-- Send a CONTROL message through a port. -/
def State.sendControl (s : State) (p : Nat) (content : List Nat) (data : List Byte) : State := s.sendFlit p 1 0 content data

/-- The KEYED downstream ports of this device (R509). -/
def State.downPorts (s : State) : List Nat :=
  [1, 2, 3, 4, 5, 6, 7].filter fun p => decide ((s.port p).state = .keyed)

/-- Send a CONTROL (1) or TIME (8) message down every KEYED downstream port. -/
def State.sendDown (s : State) (type : Nat) (content : List Nat) (data : List Byte) : State :=
  s.downPorts.foldl (fun t p => t.sendFlit p type 0 content data) s

/-- The next free value, and the state that has taken it (log 10). -/
def State.freeValue (s : State) : Nat × State :=
  (Config.freeWord s.free, { s with free := s.free + 1 })

/-- The core of a device-wide Hand number (R433). -/
def coreOf (h : Nat) : Nat := h / 4
/-- The Hamlet of a device-wide Hand number. -/
def hamletOf (h : Nat) : Nat := h / 64

/-- The four Hands of a core. -/
def handsOf (c : Nat) : List Nat := [4 * c, 4 * c + 1, 4 * c + 2, 4 * c + 3]

/-- A general register; w0 reads zero (R69). -/
def Hand.reg (x : Hand) (r : BitVec 5) : Word := if r = 0 then 0 else aget 0 x.regs r.toNat

/-- Write a general register; a write to w0 is discarded (R69). -/
def Hand.setReg (x : Hand) (r : BitVec 5) (v : Word) : Hand :=
  if r = 0 then x else { x with regs := aset 0 x.regs r.toNat v }

/-- The four levels (Levels table): 0 CU, 1 CS, 2 WU, 3 WS. -/
def levelOfSt (st : Word) : Nat := 2 * b2n (st.getLsbD 35) + b2n (st.getLsbD 34)
/-- The level a Hand executes at. -/
def Hand.level (x : Hand) : Nat := levelOfSt x.st

/-- The device's own DEVICE-level Holding Path (R40). -/
def State.devicePath (s : State) : Word :=
  if s.cascade.master then 0x1000#36 else (s.cascade.path &&& ~~~0x7FFF#36) ||| 0x1000#36

/-- The CORE-level Holding Path of a core of this device (R40, R48). -/
def State.corePath (s : State) (c : Nat) : Word :=
  (s.devicePath &&& ~~~0x7FFF#36) ||| wd (3 * 4096 + (c / 16) * 512 + c % 16)

/-- Carry on after a meaning that may stop. -/
def andThen (r : Res) (f : State → Res) : Res :=
  match r with
  | .next s => f s
  | .fault f => .fault f
  | .refused f => .refused f

end Sys2Proof.Machine
end

