-- ==== Sys2Proof/Machine/Sched.lean ====
section
/-!
DEFINITION. Sys2Proof/Machine/Sched.lean: pending interrupts and the choice of the Hand a core
runs (R27, R28, R171 to R175, R265).
-/
namespace Sys2Proof.Machine

/-- The Almanac a descriptor names: octets 04h and 05h (Errand descriptor table). -/
def descAlmanac (raw : List Byte) : Nat := leNat ((raw.drop 4).take 2)

/-- The errand a Hand runs. -/
def State.errandOf (s : State) (h : Nat) : Option (Nat × Errand) :=
  match (s.hand h).errand with
  | some e => (s.errand? e).map fun x => (e, x)
  | none => none

/-- The Almanac of the errand a Hand runs. -/
def State.almanacOf (s : State) (h : Nat) : Option Almanac :=
  match s.errandOf h with
  | some (_, x) => afind s.steward.almanacs (descAlmanac x.raw)
  | none => none

/-- The Hand runs an errand of a Warden Almanac. -/
def State.errandWarden (s : State) (h : Nat) : Bool :=
  match s.almanacOf h with
  | some a => a.warden
  | none => false

/-- The Hand timer interrupt goes to CS (Delivery table). -/
def State.timerToCs (s : State) (h : Nat) : Bool :=
  (s.hand h).errand.isSome && !s.errandWarden h && !(s.core (coreOf h)).deleg.getLsbD (16 + h % 4)

/-- The Hand's timer source is pending (IC_PEND.TIMER). -/
def Hand.timerPending (x : Hand) : Bool := x.htExpired && x.htInten

/-- The Hand issues or may issue instructions: an exception or interrupt can be taken on it. -/
def Hand.live (x : Hand) : Bool :=
  match x.state with
  | .ready => true
  | .running => true
  | .blocked _ => true
  | _ => false

/-- Source n, 4 to 31, is pending, enabled and routed to the Hand (IC_ROUTE). -/
def Core.routed (c : Core) (n hand : Nat) : Bool :=
  let r := aget 0 c.icRoute n
  c.icPend.getLsbD n && r.getLsbD 0 && wfield r 2 1 == hand

/-- The lowest source pending for the Hand that goes to WS. -/
def State.wsPending (s : State) (h : Nat) : Option Nat :=
  if (s.hand h).timerPending && !s.timerToCs h then some (h % 4)
  else ((List.range 28).map (· + 4)).find? fun n => (s.core (coreOf h)).routed n (h % 4)

/-- The takeable interrupt destined to WS (R161, R173). -/
def State.wsTakeable (s : State) (h : Nat) : Option Nat :=
  let x := s.hand h
  if x.live && !x.gw && (!x.st.getLsbD 35 || x.st.getLsbD 33) then s.wsPending h else none

/-- The takeable interrupt destined to CS (R161, R172). -/
def State.csTakeable (s : State) (h : Nat) : Option Nat :=
  let x := s.hand h
  if x.live && x.timerPending && s.timerToCs h && !x.gc && !x.st.getLsbD 35 && x.st.getLsbD 33
  then some (h % 4) else none

/-- Some interrupt is takeable on the Hand. -/
def State.takeable (s : State) (h : Nat) : Bool := (s.wsTakeable h).isSome || (s.csTakeable h).isSome

/-- The deadline an errand ranks by: none while the contract it was taken under is BROKEN (R264, R289). -/
def State.deadlineOf (s : State) (x : Errand) : Option Nat :=
  match x.src, x.contract with
  | .ring n, some k =>
    if (s.contract n).serial = k ∧ (s.contract n).state = .broken then none else x.deadline
  | _, _ => if x.demoted then none else x.deadline

/-- The class of an errand's flits: CONTRACTED 1, BEST_EFFORT 2 (R264, R519). -/
def State.flitClass (s : State) (x : Errand) : Nat := if (s.deadlineOf x).isSome then 1 else 2

/-- The order of R265 as a key: class, then deadline or arrival, then device tag. An errand without a tag
has none to compare: it comes after those that have one. -/
def State.errandKey (s : State) (e : Nat) (x : Errand) : Nat × Nat × Nat :=
  match s.deadlineOf x with
  | some d => (0, d, x.dtag.getD 4096)
  | none => (1, e, x.dtag.getD 4096)

/-- The first key comes before the second. -/
def keyBefore (a b : Nat × Nat × Nat) : Bool :=
  if a.1 ≠ b.1 then a.1 < b.1
  else if a.2.1 ≠ b.2.1 then a.2.1 < b.2.1
  else a.2.2 < b.2.2

/-- Errand a comes before errand b in the order of R265. -/
def State.errandBefore (s : State) (a b : Nat) : Bool :=
  match s.errand? a, s.errand? b with
  | some x, some y => keyBefore (s.errandKey a x) (s.errandKey b y)
  | some _, none => true
  | _, _ => false

/-- The depth of a WS interrupt's handler after an entry to WS: an interrupt starts it, and every entry
within it nests (R175). -/
def Hand.nestIrq (x : Hand) (interrupt : Bool) : Option Nat :=
  match x.irqDepth with
  | some n => some (n + 1)
  | none => if interrupt then some 0 else none

/-- The depth after an ERET at WS: the handler's own ERET ends it (R175). -/
def Hand.unnestIrq (x : Hand) : Option Nat :=
  match x.irqDepth with
  | some (n + 1) => some n
  | _ => none

/-- A Hand with a takeable interrupt destined to WS, or in the handler of one, is selected ahead of
every other READY Hand (R175). -/
def State.wsFirst (s : State) (h : Nat) : Bool := (s.wsTakeable h).isSome || (s.hand h).irqDepth.isSome

/-- The core's preference among its READY Hands (R27, R175, R265), smaller first: a WS interrupt, then
housekeeping and the boot ROM, then the errands in the order of R265 (log 87). -/
def State.handKey (s : State) (h : Nat) : Nat × Nat × Nat :=
  if s.wsFirst h then (0, 0, 0)
  else match s.errandOf h with
    | none => (1, 0, 0)
    | some (e, er) => let k := s.errandKey e er; (k.1 + 2, k.2.1, k.2.2)

/-- What makes the core leave a running Hand for one that becomes READY: its standing under R175 and
R27 and its errand's deadline, all ones for best-effort errands (R28; log 87). -/
def State.urgency (s : State) (h : Nat) : Nat × Nat × Nat :=
  if s.wsFirst h then (0, 0, 0)
  else match s.errandOf h with
    | none => (1, 0, 0)
    | some (_, er) => match s.deadlineOf er with
      | some d => (2, d, 0)
      | none => (3, 0, 0)

/-- An open session may halt Hands of a world: rights bits 0 and 1 (Rights table, file 17). -/
def State.mayHalt (s : State) (warden : Bool) : Bool :=
  decide (s.life.session = .opened) && s.life.rights.getLsbD (b2n warden)

/-- A debug session holds the Hand; one halted in the Common world with HALT_COMMON only runs on in
the Warden world until the ERET that returns it (R592). -/
def State.frozen (s : State) (h : Nat) : Bool :=
  let x := s.hand h
  x.halted && (!x.st.getLsbD 35 || s.mayHalt true)

/-- A frozen Hand that resumes to take a WS interrupt (R592). -/
def State.thawed (s : State) (h : Nat) : Bool := !s.mayHalt true && (s.wsTakeable h).isSome

/-- The Hand is READY, not held by a debug session, and the cores' clocks run (R553, R561, R592). -/
def State.canRun (s : State) (h : Nat) : Bool :=
  decide (s.power.state = .run) && decide ((s.hand h).state = .ready) && (!s.frozen h || s.thawed h)

/-- Distance of a Hand from the one last run, for the rotation of R27. -/
def rotDistance (last hand : Nat) : Nat := (hand + 4 - last - 1) % 4

/-- The better of two READY Hands of a core. -/
def State.betterHand (s : State) (last a b : Nat) : Nat :=
  let ka := s.handKey a; let kb := s.handKey b
  if keyBefore kb ka then b
  else if keyBefore ka kb then a
  else if rotDistance last (b % 4) < rotDistance last (a % 4) then b else a

/-- The best of the Hands of a core that a test allows. -/
def State.bestHand (s : State) (c : Nat) (ok : Nat → Bool) : Option Nat :=
  ((handsOf c).filter ok).foldl
    (fun best h => match best with
      | none => some h
      | some b => some (s.betterHand (s.core c).lastHand b h)) none

/-- The READY Hand the core would run next (R27). -/
def State.nextHand (s : State) (c : Nat) : Option Nat := s.bestHand c s.canRun

/-- The RUNNING Hand of a core. -/
def State.runningHand (s : State) (c : Nat) : Option Nat :=
  (handsOf c).find? fun h => decide ((s.hand h).state = .running)

/-- Give the core to a Hand. -/
def State.giveCore (s : State) (c h : Nat) : State :=
  (s.modHand h fun x => { x with state := .running }).modCore c fun k => { k with lastHand := h % 4 }

/-- A BLOCKED Hand with a takeable interrupt becomes READY (R175). -/
def State.wakeHand (s : State) (h : Nat) : State :=
  match (s.hand h).state with
  | .blocked _ => if s.takeable h then s.modHand h fun x => { x with state := .ready } else s
  | _ => s

/-- A RUNNING Hand that a debug session holds gives its core up (R592). -/
def State.restHand (s : State) (h : Nat) : State :=
  if decide ((s.hand h).state = .running) && s.frozen h && !s.thawed h then
    s.modHand h fun x => { x with state := .ready }
  else s

/-- Bring a core's Hands in line with R27, R28, R175 and R592. -/
def State.settleCore (s : State) (c : Nat) : State :=
  let s := (handsOf c).foldl (fun t h => (t.wakeHand h).restHand h) s
  match s.runningHand c, s.nextHand c with
  | none, some b => s.giveCore c b
  | some r, some b =>
    if keyBefore (s.urgency b) (s.urgency r) then
      (s.modHand r fun x => { x with state := .ready }).giveCore c b
    else s
  | _, none => s

/-- Bring every core's Hands in line after readiness, interrupts or deadlines changed. -/
def State.settle (s : State) : State :=
  s.hands.foldl (fun t kv => t.settleCore (coreOf kv.1)) s

/-- YIELD: the Hand becomes READY and another READY Hand of the core runs, unless none is READY or the
yielding Hand's errand comes first by its deadline (R27, R28, R140; log 87). -/
def State.yieldHand (s : State) (h : Nat) : State :=
  let t := s.modHand h fun y => { y with state := .ready }
  match t.bestHand (coreOf h) (fun o => o != h && t.canRun o) with
  | none => t.settle
  | some b => if keyBefore (t.urgency h) (t.urgency b) then t.settle else (t.giveCore (coreOf h) b).settle

/-- Latch an interrupt source on one core (R171). -/
def State.assertOn (s : State) (c n : Nat) : State :=
  s.modCore c fun x => { x with icPend := x.icPend ||| (1#32 <<< n) }

/-- Latch an interrupt source on every core. -/
def State.assertEvery (s : State) (n : Nat) : State :=
  { s with cores := (List.range 128).map fun c =>
      (c, { s.core c with icPend := (s.core c).icPend ||| (1#32 <<< n) }) }

/-- A source is enabled on some core (IC_ROUTE.EN). -/
def State.routed (s : State) (n : Nat) : Bool := s.cores.any fun kv => (aget 0 kv.2.icRoute n).getLsbD 0

/-- Latch a source of 16 to 27 on every core and wake the Hands it reaches; where a core enables it, it is a wake
event (R552). -/
def State.interruptAll (s : State) (n : Nat) : State :=
  let t := (s.assertEvery n).settle
  if s.routed n then t.owesWake else t

end Sys2Proof.Machine
end

