-- ==== Sys2Proof/Machine/ViewCore.lean ====
section
/-!
DEFINITION. Sys2Proof/Machine/ViewCore.lean: what the core-local, Steward, Parish and flash
windows read as (files 04, 07, 13, 14 and 19): the levels of each register and its value.
-/
namespace Sys2Proof.Machine

/-- A register as an IN finds it. -/
structure IoReg where
  /-- level needed to read: 0 any, 1 CS or WS, 3 WS. -/
  readLv : Nat
  /-- level needed to write. -/
  writeLv : Nat
  /-- the value it reads. -/
  value : Word
  /-- the read has a side effect or may stall. -/
  active : Bool := false

/-- The executing level meets the level a register needs. -/
def levelOk (need lv : Nat) : Bool :=
  match need with
  | 0 => true
  | 1 => lv % 2 == 1
  | _ => lv == 3

/-- CAUSE_C or CAUSE_W as a word. -/
def CauseReg.word (c : CauseReg) : Word := wd (c.orig.toNat * 64 + c.code.toNat)

/-- Which ACU a register or an access belongs to. -/
inductive AcuKind where
  | core | hamlet | device
deriving DecidableEq, Repr

/-- The fields an ACU's PERM registers hold (R475 table; RESERVED elsewhere). -/
def AcuKind.permMask : AcuKind → Word
  | .core => 0xC000030FF#36
  | .hamlet => 0x8000000FF#36
  | .device => 0x8000003FF#36

/-- The fields an ACU's CTRL register shows. -/
def AcuKind.ctrlMask : AcuKind → Word
  | .core => 0x1F30FF#36
  | .hamlet => 0x1F00FF#36
  | .device => 0x1F03FF#36

/-- First Common-owned rule, values above 16 acting as 16 (R476). -/
def AcuRules.cbase (r : AcuRules) : Nat := min 16 (wfield r.ctrl 20 16)

/-- A register of an ACU's rule block, offset 4r + field. -/
def AcuRules.ruleReg (r : AcuRules) (off : Nat) : Word :=
  let x := aget {} r.rules (off / 4)
  match off % 4 with
  | 0 => x.base
  | 1 => x.limit
  | _ => x.perm

/-- An ACU rule register: Common-owned rules of core and Hamlet ACUs may be written at CS (R477). -/
def Acu.ruleIo (a : Acu) (k : AcuKind) (off : Nat) : Option IoReg :=
  if off % 4 = 3 then none
  else some {
    readLv := if k = .device then 3 else 1
    writeLv := if k ≠ .device && a.rules.cbase ≤ off / 4 then 1 else 3
    value := a.rules.ruleReg off }

/-- An ACU's CTRL and record registers (R477, R481). -/
def Acu.ctrlIo (a : Acu) (k : AcuKind) (off : Nat) : Option IoReg :=
  match off with
  | 0 => some { readLv := if k = .device then 3 else 1, writeLv := 3, value := a.rules.ctrl &&& k.ctrlMask }
  | 1 => some { readLv := 3, writeLv := 3, value := wd a.vaddr }
  | 2 => some { readLv := 3, writeLv := 3, value := wd a.vword }
  | 3 => some { readLv := 3, writeLv := 3, value := a.vinfo }
  | 4 => some { readLv := 3, writeLv := 3, value := wd a.vcount }
  | _ => none

/-- IC_PEND: the latched sources and the four timer bits. -/
def State.icPendWord (s : State) (c : Nat) : Word :=
  wd ((s.core c).icPend.toNat / 16 * 16
    + b2n (s.hand (4 * c)).timerPending + 2 * b2n (s.hand (4 * c + 1)).timerPending
    + 4 * b2n (s.hand (4 * c + 2)).timerPending + 8 * b2n (s.hand (4 * c + 3)).timerPending)

/-- The core-local window 000000q to 000777q (R184, R185, file 13); an OUT below the read level to a register without a
write level faults (log 113). -/
def coreLocalReg (s : State) (h addr : Nat) : Option IoReg :=
  let x := s.hand h
  let c := s.core (coreOf h)
  match addr with
  | 0 => some { readLv := 1, writeLv := 1, value := x.causeC.word }
  | 1 => some { readLv := 3, writeLv := 3, value := x.causeW.word }
  | 2 => some { readLv := 1, writeLv := 1, value := wd (b2n x.gw * 2 + b2n x.gc) }
  | 8 => some { readLv := 1, writeLv := 3, value := wd c.vecC.toNat }
  | 9 => some { readLv := 3, writeLv := 3, value := wd c.vecW.toNat }
  | 10 => some { readLv := 1, writeLv := 3, value := c.deleg }
  | 64 => some { readLv := 0, writeLv := 0, value := wd x.htCount.toNat }
  | 65 => some { readLv := 0, writeLv := 0, value := wd x.htReload.toNat }
  | 66 => some { readLv := 0, writeLv := 0, value := wd (b2n x.htExpired * 4 + b2n x.htInten * 2 + b2n x.htRun) }
  | 128 => some { readLv := 3, writeLv := 3, value := s.icPendWord (coreOf h) }
  | 129 => some { readLv := 3, writeLv := 3, value := 0 }
  | _ =>
    if 160 ≤ addr ∧ addr < 164 then some { readLv := 3, writeLv := 3, value := wd ((addr - 160) * 2 + 1) }
    else if 164 ≤ addr ∧ addr < 192 then some { readLv := 3, writeLv := 3, value := aget 0 c.icRoute (addr - 160) }
    else if 256 ≤ addr ∧ addr < 320 then c.acu.ruleIo .core (addr - 256)
    else if 320 ≤ addr ∧ addr < 328 then c.acu.ctrlIo .core (addr - 320)
    else if 328 ≤ addr ∧ addr < 336 then (s.hamlet (hamletOf h)).acu.ctrlIo .hamlet (addr - 328)
    else if 336 ≤ addr ∧ addr < 344 then s.devAcu.ctrlIo .device (addr - 336)
    else if 384 ≤ addr ∧ addr < 448 then (s.hamlet (hamletOf h)).acu.ruleIo .hamlet (addr - 384)
    else if 448 ≤ addr ∧ addr < 512 then s.devAcu.ruleIo .device (addr - 448)
    else none

/-- SW_COREn. -/
def State.swCore (s : State) (n : Nat) : Word :=
  let c := s.core n
  wd (b2n (!c.outOfService) * 2 ^ 33 + b2n c.expired * 2 ^ 32 + c.period.toNat)

/-- The Steward window 010000q (R295), by offset. -/
def stewardReg (s : State) (h off : Nat) : Option IoReg :=
  let w := s.steward
  match off with
  | 0 => some { readLv := 0, writeLv := 0, value := 0 }
  | 1 => some { readLv := 0, writeLv := 0, value := 0 }
  | 8 => some { readLv := 0, writeLv := 3, value := 0 }
  | 9 => some { readLv := 3, writeLv := 3, value := wd w.sliceMode.toNat }
  | 80 => some { readLv := 0, writeLv := 3, value := 0 }
  | 81 => some { readLv := 3, writeLv := 3, value := wd (b2n w.icplRefused * 512 + w.icpl.length) }
  | _ =>
    if 64 ≤ off ∧ off < 80 then some { readLv := 3, writeLv := 3, value := aget 0 (s.hand h).idesc (off - 64) }
    else if 88 ≤ off ∧ off < 96 then
      some { readLv := 3, writeLv := 3, value := (w.icpl.headD []).getD (off - 88) 0, active := off = 95 }
    else if 128 ≤ off ∧ off < 256 then some { readLv := 3, writeLv := 3, value := s.swCore (off - 128) }
    else none

/-- A code's rate limit as it stands: the written one, or the reset values (PR_RATE table). -/
def archivedCode (code : Nat) : Bool :=
  code == 0x43 || code == 0x47 || (0x8B ≤ code && code ≤ 0x8D) || (0xB0 ≤ code && code ≤ 0xB2)
    || (0xC4 ≤ code && code ≤ 0xC8) || (0xE0 ≤ code && code ≤ 0xFF)

def rateReset (code : Nat) : RateCfg :=
  { archive := archivedCode code, burst := 32, rate := 10, supp := 0, fill := 32 * 10 ^ 8, at_ := 0 }

def Parish.rateOf (p : Parish) (code : Nat) : RateCfg := (afind p.rates code).getD (rateReset code)

/-- PR_STATUS. -/
def Parish.status (p : Parish) : Word :=
  wd (b2n p.snapshot * 2 ^ 35 + p.askip * 2 ^ 28 + p.oldest * 2 ^ 14 + p.next)

/-- The Parish window 070000q (R639), by offset. -/
def parishReg (s : State) (off : Nat) : Option IoReg :=
  let p := s.parish
  let r := p.rateOf p.code
  let ws (v : Word) : Option IoReg := some { readLv := 3, writeLv := 3, value := v }
  match off with
  | 0 => ws p.status
  | 1 => ws (wd (b2n p.snapshot * 2 ^ 17 + p.thresh))
  | 2 => ws (wd p.rptr)
  | 3 => some { readLv := 3, writeLv := 3, value := aget 0 p.ring p.rptr, active := true }
  | 4 => ws (wd p.code)
  | 5 => ws (wd (b2n r.archive * 2 ^ 35 + r.burst * 2 ^ 24 + r.rate * 2 ^ 16 + r.supp))
  | 6 => ws (wd p.wdetail.toNat)
  | 7 => ws 0
  | 8 => ws 0
  | _ => if 32 ≤ off ∧ off < 64 then ws (aget 0 p.slist (off - 32)) else none

/-- FL_STATUS. -/
def State.flStatus (s : State) : Word :=
  let f := s.flash
  let opOf (b : FlashBank) : Nat := match b.op with
    | some o => o.op
    | none => 0
  let held := decide (opOf f.bank0 = 2) && f.inner.any fun o => o.op == 1 && !f.bank0.op.any fun e => e.intent == some o.addr
  wd (f.bank1.status.toNat * 2 ^ 28 + opOf f.bank1 * 2 ^ 26 + b2n f.bank1.susp * 2 ^ 25
    + f.bank0.status.toNat * 2 ^ 14 + opOf f.bank0 * 2 ^ 12 + b2n (f.bank0.susp || held) * 2 ^ 11
    + b2n s.startup.pfw * 16 + b2n f.eccUe * 8 + b2n f.bank1.done * 2 + b2n f.bank0.done)

/-- The sector indices FL_WPk holds: 32 to a register, 15 in the last (FL_WP table). -/
def wpCount (k : Nat) : Nat := if k = 8 then 15 else 32

/-- FL_WPk: bit n protects sector 32k + n (R501). -/
def Flash.wpWord (f : Flash) (k : Nat) : Word :=
  wd ((List.range (wpCount k)).foldl (fun a n => a + b2n (!f.unprotected.contains (32 * k + n)) * 2 ^ n) 0)

/-- The flash window 100000q (R488), by offset. -/
def flashReg (s : State) (off : Nat) : Option IoReg :=
  let f := s.flash
  let ws (v : Word) : Option IoReg := some { readLv := 3, writeLv := 3, value := v }
  match off with
  | 0 => ws (wd f.addr)
  | 1 => some { readLv := 3, writeLv := 3, value := aget erasedWord f.words f.addr, active := true }
  | 2 => ws 0
  | 3 => ws s.flStatus
  | 4 => ws (wd (b2n f.wpLock * 2 + b2n f.ien))
  | 5 => ws (wd (f.ce * 2 ^ 24 + f.ueAddr))
  | _ =>
    if 16 ≤ off ∧ off < 32 then ws (aget 0 f.buf (off - 16))
    else if 32 ≤ off ∧ off < 41 then ws (f.wpWord (off - 32))
    else none

end Sys2Proof.Machine
end

