-- ==== Sys2Proof/Machine/ViewEngine.lean ====
section
/-!
DEFINITION. Sys2Proof/Machine/ViewEngine.lean: what the lane, slice, Vault, entropy and Granary windows
read as (files 08 to 12).
-/
namespace Sys2Proof.Machine

/-! ### Lanes and slices -/

/-- The governor powers the unit at its level (Governor levels table). -/
def State.lanePowered (s : State) (l : Nat) : Bool :=
  match s.power.gov with
  | .sprint => true
  | .trip => false
  | _ => l % 2 == 0

def State.slicePowered (s : State) (l : Nat) : Bool :=
  match s.power.gov with
  | .sprint => true
  | .trip => false
  | _ => !(l % 2 == 1 && 9 ≤ l)

/-- LN_STATUS. -/
def LaneRegs.statusWord (r : LaneRegs) : Word :=
  wd (b2n r.op.isSome * 2 ^ 35 + b2n r.keyHit * 2 ^ 34 + r.status.toNat * 2 ^ 24 + r.octets)

/-- A register of the lane window, by offset (Lane window table). -/
def LaneRegs.read (r : LaneRegs) (off : Nat) : Option Word :=
  match off with
  | 0 => some r.key
  | 1 => some (wd r.src.toNat)
  | 2 => some (wd r.dst.toNat)
  | 3 => some (wd r.len.toNat)
  | 4 => some (wd r.aad.toNat)
  | 5 => some 0
  | 6 => some r.statusWord
  | 7 => some 0
  | _ =>
    if off < 12 then some (wd (r.iv.getD (off - 8) 0).toNat)
    else if off < 16 then some (wd (r.tag.getD (off - 12) 0).toNat)
    else none

/-- PK_STATUS. -/
def State.sliceStatus (s : State) (l : Nat) : Word :=
  let k := s.slice l
  let r := k.regs
  wd (b2n r.op.isSome * 2 ^ 35 + b2n k.seqMode * 2 ^ 34 + b2n (s.ucode.state == 1) * 2 ^ 33 + r.status.toNat * 2 ^ 24
    + b2n r.ovf * 2 ^ 23 + b2n r.mrange * 2 ^ 22)

/-- PK_UCODE. -/
def Ucode.word (u : Ucode) : Word := wd (u.state * 2 ^ 34 + u.version.toNat * 4)

/-- A register of the slice window, by offset; PK_OPDATA has its own read. -/
def State.sliceRead (s : State) (l off : Nat) : Option Word :=
  let r := (s.slice l).regs
  match off with
  | 0 => some 0
  | 1 => some r.keyh
  | 2 => some r.inp
  | 3 => some r.outp
  | 4 => some (s.sliceStatus l)
  | 5 => some r.result
  | 6 => some (wd r.opaddr)
  | 7 => some (aget 0 r.opmem r.opaddr)
  | 8 => some r.mctl
  | 9 => some 0
  | 10 => some s.ucode.word
  | _ => none

/-- VLT_STATE. -/
def Vault.stateWord (v : Vault) : Word :=
  let m := match v.mode with
    | .sealed => 0
    | .opened => 1
    | .hold => 2
    | .trial => 3
    | .none => 4
  wd (m * 2 ^ 29 + v.lwkCur * 2 ^ 22 + (4096 - v.slots.length))

/-- VLT_STATE.MODE. -/
def VaultMode.code (m : VaultMode) : Nat :=
  match m with
  | .sealed => 0
  | .opened => 1
  | .hold => 2
  | .trial => 3
  | .none => 4

/-- The effective state: the Trial state while a session lasts, else the fuse vote (R571). -/
def LifeCycle.effective (l : LifeCycle) : Nat := (l.trial.getD l.fuse).toNat

/-- DR_STATUS of a Hand. -/
def State.drStatus (s : State) (h : Nat) : Word :=
  match (s.hand h).drbg with
  | none => 0
  | some i =>
    let d := s.drbg i
    wd (b2n d.stalled * 2 ^ 33 + b2n d.due * 2 ^ 32 + i * 2 ^ 22 + min (d.calls / 1024) 0x3FFFFF)

/-- A source's two bits in ENT_STATUS. -/
def SourceState.code (x : SourceState) : Nat :=
  match x with
  | .off => 0
  | .healthy => 1
  | .failed => 2
  | .testPattern => 3

/-- ENT_STATUS. -/
def State.entStatus (s : State) : Word :=
  let e := s.entropy
  wd (b2n e.selftest * 2 ^ 29 + e.pool.length * 2 ^ 22 + (e.drbgs.filter fun kv => kv.2.stalled).length * 2 ^ 8
    + (s.source 3).state.code * 64 + (s.source 2).state.code * 16 + (s.source 1).state.code * 4 + (s.source 0).state.code)

/-- ENT_EST of a source: its counts refresh every 32,768 samples. -/
def State.entEst (s : State) (i : Nat) : Word :=
  let x := s.source i
  wd (x.fails * 2 ^ 32 + x.estOnes * 2 ^ 16 + x.estAgree)

/-- ENT_TEST as it stands with other PATTERN bits. -/
def State.entTestWord (s : State) (p : BitVec 4) : Word := wd (s.entropy.rawsel * 256 + p.toNat)

/-! ### The windows by offset -/

/-- The register of the lane the Hand holds (R357); none while it holds no unit. -/
def laneReg (s : State) (h off : Nat) : Option IoReg :=
  (s.hand h).lane.bind fun l => ((s.lane l).regs.read off).map fun v => { readLv := 0, writeLv := 0, value := v }

/-- The register of the slice the Hand holds (R387); none while it holds no unit. -/
def sliceReg (s : State) (h off : Nat) : Option IoReg :=
  (s.hand h).slice.bind fun l => (s.sliceRead l off).map fun v =>
    { readLv := if off = 10 then 3 else 0, writeLv := if off = 10 then 3 else 0, value := v, active := off = 7 }

/-- The Vault window 040000q (R426). -/
def vaultReg (s : State) (h off : Nat) : Option IoReg :=
  let v := (s.hand h).vault
  let free (x : Word) : Option IoReg := some { readLv := 0, writeLv := 0, value := x }
  match off with
  | 0 => free v.ctx
  | 1 => free v.label
  | 2 => free v.dspec
  | 3 => free 0
  | 4 => some { readLv := 0, writeLv := 0, value := v.blob, active := true }
  | 8 => free v.arg0
  | 9 => free v.arg1
  | 10 => free v.arg2
  | 11 => free v.arg3
  | 12 => free 0
  | 13 => some { readLv := 0, writeLv := 0, value := v.result, active := true }
  | 16 => free s.vault.stateWord
  | 17 => some { readLv := 3, writeLv := 3, value := wd s.vault.quota }
  | _ => none

/-- The entropy window 050000q (R464). -/
def entropyReg (s : State) (h off : Nat) : Option IoReg :=
  let ws (x : Word) : Option IoReg := some { readLv := 3, writeLv := 3, value := x }
  match off with
  | 0 => some { readLv := 0, writeLv := 0, value := 0, active := true }
  | 1 => some { readLv := 0, writeLv := 0, value := s.drStatus h }
  | 8 => ws s.entStatus
  | 9 => some { readLv := 0, writeLv := 3, value := 0 }
  | 24 => some { readLv := 3, writeLv := 3, value := 0, active := true }
  | 25 => ws (s.entTestWord s.entropy.pattern)
  | _ => if 16 ≤ off ∧ off < 20 then ws (s.entEst (off - 16)) else none

/-- GR_FRAMES. -/
def Store.framesWord (t : Store) : Word :=
  wd ((t.frames.filter fun kv => kv.2.pinned).length * 2 ^ 15 + (16384 - t.frames.length))

/-- The Granary window 060000q (R321); an OUT of GR_FRAMES below WS faults (log 113). -/
def granaryReg (s : State) (h off : Nat) : Option IoReg :=
  let x := s.hand h
  match off with
  | 0 => some { readLv := 0, writeLv := 0, value := 0 }
  | 1 => some { readLv := 0, writeLv := 0, value := 0 }
  | 2 => some { readLv := 0, writeLv := 0, value := wd x.grPage }
  | 3 => some { readLv := 0, writeLv := 0, value := x.grResult }
  | 8 => some { readLv := 0, writeLv := 3, value := 0 }
  | 9 => some { readLv := 0, writeLv := 3, value := 0 }
  | 10 => some { readLv := 3, writeLv := 3, value := s.store.framesWord }
  | 16 => some { readLv := 3, writeLv := 3, value := wd (b2n s.store.newOk) }
  | _ => none

end Sys2Proof.Machine
end

