-- ==== Sys2Proof/Machine/ViewGuard.lean ====
section
/-!
DEFINITION. Sys2Proof/Machine/ViewGuard.lean: what the card, tag, Watch, power, cascade and life-cycle
windows read as (files 15 to 18 and 20 to 22).
-/
namespace Sys2Proof.Machine

/-- A seat. -/
def Gate.seat (g : Gate) (n : Nat) : Seat := aget {} g.seats n

/-- Seats in a state. -/
def Gate.seatBits (g : Gate) (p : Nat → Bool) : Nat :=
  (List.range 8).foldl (fun a n => a + b2n (p (g.seat n).state) * 2 ^ n) 0

/-- CG_CTRL. -/
def Gate.ctrlWord (g : Gate) : Word :=
  wd (g.cstop * 2 ^ 15 + g.clkdiv * 2 ^ 8 + g.isoclk * 2 ^ 5 + g.classmax * 2 ^ 3 + b2n g.width4 * 4 + g.mode)

/-- CG_STATUS; PRES low means a card in ISO mode. -/
def Gate.statusWord (g : Gate) : Word :=
  wd (g.state * 2 ^ 33 + b2n (if g.mode = 1 then !g.pres else g.pres) * 2 ^ 32 + g.cls * 2 ^ 30 + b2n g.prot * 2 ^ 29
    + b2n g.width * 2 ^ 28 + g.divUsed * 2 ^ 21 + g.seatBits (fun x => x == 1 || x == 2) * 2 ^ 8 + g.seatBits (· == 2))

/-- CG_CLAIM as a Hand reads it. -/
def Gate.claimWord (g : Gate) (h : Nat) : Word :=
  wd (b2n g.owner.isSome * 2 ^ 35 + g.owner.getD 0 * 2 + b2n (g.owner == some h))

/-- CG_RESULT. -/
def Gate.resultWord (g : Gate) : Word :=
  wd (b2n g.op.isSome * 2 ^ 35 + b2n g.replay * 2 ^ 34 + g.rxlen * 2 ^ 24 + g.status.toNat * 2 ^ 16 + g.sw.toNat)

/-- CG_JSTATUS. -/
def Journal.statusWord (j : Journal) : Word := wd (j.pending.length * 2 ^ 8 + j.tokens)

/-- First octet of a slot of a page, B when the flag is true (R675). -/
def tagSlotAt (page : Nat) (b : Bool) : Nat := page * 256 + (if b then 128 else 0)

/-- The 128 octets of a slot. -/
def Tag.slot (t : Tag) (page : Nat) (b : Bool) : List Byte := agetRun 0xFF#8 t.nv (tagSlotAt page b) 128

/-- The marker of a page's data and SEQ (R675). -/
def tagMarker (page seq : Nat) (data : List Byte) : List Byte :=
  let sq := beOctets 4 seq
  sq ++ beOctets 4 (crc32c (data ++ [BitVec.ofNat 8 page] ++ sq)).toNat

/-- The SEQ of a valid slot (R676). -/
def Tag.slotSeq (t : Tag) (page : Nat) (b : Bool) : Option Nat :=
  let o := t.slot page b
  let mark := o.drop 120
  let seq := beNat (mark.take 4)
  if mark.any (· != 0xFF#8) && tagMarker page seq (o.take 120) == mark then some seq else none

/-- The slot a read returns, with its SEQ (R676). -/
def Tag.current (t : Tag) (page : Nat) : Option (Bool × Nat) :=
  match t.slotSeq page false, t.slotSeq page true with
  | some a, some b => if a < b then some (true, b) else some (false, a)
  | some a, none => some (false, a)
  | none, some b => some (true, b)
  | none, none => none

/-- A page as a read returns it (R676). -/
def Tag.readPage (t : Tag) (page : Nat) : List Byte :=
  match t.current page with
  | some (b, _) => (t.slot page b).take 120
  | none => List.replicate 120 0#8

/-- Page 60: octet 0 bit 0 PWD and bit 1 KEY installed, the password, K. -/
def Tag.pwdSet (t : Tag) : Bool := ((t.readPage 60).getD 0 0).getLsbD 0

def Tag.keySet (t : Tag) : Bool := ((t.readPage 60).getD 0 0).getLsbD 1

/-- Page 61: PWD_FAILS (saturating at 15) and AES_FAILS (saturating at FFFFh). -/
def Tag.pwdFails (t : Tag) : Nat := ((t.readPage 61).getD 0 0).toNat % 16

def Tag.aesFails (t : Tag) : Nat := beNat (((t.readPage 61).drop 1).take 2)

/-- The code of a field state as TG_STATUS.SESSION has it. -/
def FieldState.code (x : FieldState) : Nat :=
  match x with
  | .none => 0
  | .idle | .ready => 1
  | .active => 2
  | .halt => 3
  | .opened => 4
  | .securedPwd => 5
  | .securedAes => 6

/-- TG_STATUS. -/
def Tag.statusWord (g : Tag) : Word :=
  wd (b2n (decide (g.field ≠ .none)) * 2 ^ 35 + b2n g.fd * 2 ^ 34 + g.field.code * 2 ^ 31 + b2n g.keySet * 2 ^ 30
    + b2n g.pwdSet * 2 ^ 29 + b2n (decide (8 ≤ g.pwdFails)) * 2 ^ 28 + b2n g.fieldWrite.isSome * 64
    + (match g.fieldWrite with
      | some (p, _) => p
      | none => 0))

/-- TG_RESULT. -/
def Tag.resultWord (g : Tag) : Word := wd (b2n g.cmd.isSome * 2 ^ 35 + g.status.toNat * 2 ^ 24)

/-- TG_COUNTS. -/
def Tag.countsWord (g : Tag) : Word := wd (g.aesFails * 2 ^ 16 + g.pwdFails)

/-- Default N and W (Monitors table). -/
def monitorDefault (m : Nat) : Nat × Nat :=
  if m ≤ 3 then (3, 8)
  else if m ≤ 5 then (2, 4)
  else if m = 7 then (4, 8)
  else if m = 16 then (3, 5)
  else if m = 18 ∨ m = 19 then (2, 10)
  else (1, 1)

/-- The FIELDED floor column. -/
def fieldedFloor (m : Nat) : Nat :=
  if m ≤ 5 then 4
  else if m = 7 then 0
  else if m = 16 then 2
  else if m = 17 ∨ m = 18 ∨ m = 19 then 4
  else if m = 6 ∨ m = 21 ∨ m = 24 ∨ m = 26 ∨ m = 27 then 1
  else 3

/-- The floor in force (R608). -/
def LifeCycle.floor (l : LifeCycle) (m : Nat) : Nat :=
  match l.effective with
  | 2 | 4 => 1
  | 3 | 5 => fieldedFloor m
  | _ => 0

/-- WT_MON of a monitor. -/
def Watch.mon (w : Watch) (m : Nat) : MonitorCfg :=
  aget { en := false, resp := 0, n := (monitorDefault m).1, w := (monitorDefault m).2 } w.mons m

/-- WT_MONm as it reads. -/
def State.monWord (s : State) (m : Nat) : Word :=
  let c := s.watch.mon m
  wd (b2n (c.en || decide (6 ≤ m)) * 2 ^ 35 + max c.resp (s.life.floor m) * 2 ^ 12 + c.n * 2 ^ 8 + c.w)

/-- WT_STATE. -/
def Watch.stateWord (w : Watch) : Word :=
  wd (b2n w.tampered * 2 ^ 35 + b2n w.bbkr.isSome * 2 ^ 34 + b2n w.rtcValid * 2 ^ 33 + b2n w.halted * 2 ^ 32
    + b2n w.wlock * 2 ^ 31 + b2n w.mlock * 2 ^ 30 + w.strongest * 2 ^ 27 + w.lost * 2 ^ 5 + w.log.length)

def govNat (g : GovLevel) : Nat :=
  match g with
  | .sprint => 0
  | .stride => 1
  | .limp => 2
  | .trip => 3

/-- TJ as eight bits of two's complement. -/
def tjBits (t : Int) : Nat := (BitVec.ofInt 8 t).toNat

def PowerState.code (p : PowerState) : Nat :=
  match p with
  | .run => 0
  | .doze => 1
  | .nap => 2
  | .slumber => 3
  | .dormant => 3

/-- PW_STATUS, GV_STATUS. -/
def State.pwStatus (s : State) : Nat :=
  let p := s.power
  b2n p.sprintLock * 2 ^ 35 + tjBits p.tj * 2 ^ 24 + p.trips * 2 ^ 8 + govNat p.gov * 16 + p.state.code

/-- In Slumber the frame banks still hold what a trip left to be written back (R551, R567). -/
def State.banksLive (s : State) : Bool :=
  !s.store.frames.isEmpty || s.store.nodes.any fun kv => decide (kv.1 < 7 * 2 ^ 40)

/-- A power domain is on (Power domains and Power states tables); frame banks that a freeze keeps after a trip are in
retention (R567). -/
def State.domainOn (s : State) (d : Nat) : Bool :=
  if d < 80 then
    (decide (s.power.state = .run) || decide (s.power.state = .doze)) &&
      (if d % 10 = 4 ∨ d % 10 = 5 then s.lanePowered (2 * (d / 10) + d % 10 - 4)
       else if d % 10 = 6 ∨ d % 10 = 7 then s.slicePowered (2 * (d / 10) + d % 10 - 6)
       else true)
  else match s.power.state with
    | .dormant => d == 103
    | .slumber => d == 88 || (91 ≤ d && d ≤ 95) || 100 ≤ d || (decide (s.power.gov = .trip) && 96 ≤ d)
        || (d < 91 && s.banksLive && (89 ≤ d || !s.store.frozen))
    | _ => true

/-- PD_ONk. -/
def State.pdOn (s : State) (k : Nat) : Word :=
  wd ((List.range 36).foldl (fun a n => a + b2n (decide (36 * k + n < 104) && s.domainOn (36 * k + n)) * 2 ^ n) 0)

/-- SESSION as DBG_STATUS codes it. -/
def SessionState.code (x : SessionState) : Nat :=
  match x with
  | .closed => 0
  | .challenged => 1
  | .opened => 2

/-- DBG_STATUS. -/
def LifeCycle.dbgStatus (l : LifeCycle) : Word :=
  wd (l.session.code * 2 ^ 34 + b2n l.denied * 2 ^ 33 + b2n l.scanUsed * 2 ^ 32 + l.ending * 2 ^ 22 + l.rights.toNat)

/-! ### Life cycle and global control -/

/-- LC_STATE. -/
def LifeCycle.stateWord (l : LifeCycle) : Word :=
  wd ((32 - l.spent.length) * 2 ^ 30 + l.agree.toNat * 2 ^ 27 + b2n l.pending.isSome * 2 ^ 26 + l.effective * 2 ^ 16
    + l.fuse.toNat * 2 ^ 8 + (l.pending.getD 0).toNat)
/-- LC_RESULT. -/
def LifeCycle.resultWord (l : LifeCycle) : Word :=
  wd (b2n l.blowing.isSome * 2 ^ 35 + l.status.toNat * 2 ^ 24 + l.detail.toNat)
/-- GC_CAUSE. -/
def Startup.causeWord (x : Startup) : Word :=
  wd (x.attempts * 2 ^ 12 + b2n x.slot * 2 ^ 11 + b2n x.fallback * 2 ^ 10 + x.cause.toNat)
/-- GC_CTRL. -/
def State.gcCtrl (s : State) : Word :=
  wd (b2n s.steward.started * 8 + b2n s.startup.wdLock * 4 + b2n s.link.fwReady * 2)
/-- HL_CTRL bits 2:0, which GC_HOST shows. -/
def HostLink.ctrlBits (l : HostLink) : Nat := b2n l.evtEn * 4 + b2n l.ptmAlign * 2 + b2n l.quiesce

/-- The life-cycle window 160000q (R596, R706). -/
def lifeReg (s : State) (off : Nat) : Option IoReg :=
  let ws (v : Word) : Option IoReg := some { readLv := 3, writeLv := 3, value := v }
  match off with
  | 0 => some { readLv := 0, writeLv := 0, value := s.life.stateWord }
  | 1 => some { readLv := 0, writeLv := 3, value := 0 }
  | 2 => ws s.life.resultWord
  | 8 => ws s.life.dbgStatus
  | 9 => ws (wd (b2n s.life.deny))
  | 64 => ws s.startup.causeWord
  | 65 => ws s.gcCtrl
  | 66 => ws (wd (s.startup.wdPeriod * 2 ^ 16 + s.startup.wdCount))
  | 67 => some { readLv := 0, writeLv := 3, value := 0 }
  | 68 => ws (wd s.link.ctrlBits)
  | _ => none

/-! ### Cascade -/

/-- CS_STATE. -/
def State.csState (s : State) : Word :=
  let c := s.cascade
  if c.master then wd (2 ^ 34 + b2n s.link.dlUp * 2 ^ 33 + 2 ^ 32)
  else
    let done := c.joined && c.joinDone && decide ((s.port 0).state = .keyed)
    wd (2 ^ 35 + b2n done * 2 ^ 33 + b2n c.tlock * 2 ^ 32 + c.devnum)
/-- CS_CTRL. -/
def Cascade.ctrlWord (c : Cascade) : Word := wd (c.portEn.toNat * 2 ^ 8 + b2n c.joinEn * 2 + b2n c.ready)
/-- A port's STATE code. -/
def LinkState.code (x : LinkState) : Nat :=
  match x with
  | .down => 0
  | .training => 1
  | .opened => 2
  | .keyed => 3
  | .failed => 4
/-- CS_PORTp. -/
def BatonPort.word (p : BatonPort) : Word :=
  wd (p.state.code * 2 ^ 33 + p.peer * 2 ^ 30 + p.cause * 2 ^ 20 + p.fails * 2 ^ 12 + p.retries)
/-- The JOIN that awaits decision. -/
def Cascade.awaiting (c : Cascade) : Option Join := c.joins.find? fun j => j.step == 2
/-- CS_JQ_INFO to CS_JQ_MEAS11, by offset from CS_JQ_INFO; zero while no JOIN awaits decision. -/
def Cascade.jqWord (c : Cascade) (off : Nat) : Word :=
  match c.awaiting, off with
  | none, _ => 0
  | some j, 0 => wd (2 ^ 35 + j.lc.toNat * 2 ^ 12 + j.devnum)
  | some j, 1 => j.path
  | some j, 2 => wd (j.serial.toNat / 2 ^ 32)
  | some j, 3 => wd (j.serial.toNat % 2 ^ 32)
  | some j, _ => wd (beNat ((j.meas.drop (4 * (off - 4))).take 4))
/-- CS_RCMD. -/
def Cascade.rcmdWord (c : Cascade) : Word := wd (b2n c.rop.isSome * 2 ^ 35 + c.rstatus.toNat * 2 ^ 24)

/-- CS_PATH: the device's own DEVICE-level path, on the master 000000_010000q (HC_ENTRY, R40); a member outside the
Holding has none and reads 0. -/
def State.shownPath (s : State) : Word := if s.cascade.master then s.devicePath else s.cascade.path

/-- The cascade window 150000q (R542). -/
def cascadeReg (s : State) (off : Nat) : Option IoReg :=
  let c := s.cascade
  let ws (v : Word) : Option IoReg := some { readLv := 3, writeLv := 3, value := v }
  match off with
  | 0 => ws s.csState
  | 1 => ws s.shownPath
  | 2 => ws c.ctrlWord
  | 32 => ws 0
  | 40 => ws c.rpath
  | 41 => ws c.raddr
  | 42 => ws c.rdata
  | 43 => ws c.rcmdWord
  | 48 => ws c.gkey
  | _ =>
    if 8 ≤ off ∧ off < 16 then ws (s.port (off - 8)).word
    else if 16 ≤ off ∧ off < 32 then ws (c.jqWord (off - 16))
    else none

/-! ### The other windows by offset -/

/-- The card window 110000q as Hand h reads it (R662). -/
def cardReg (s : State) (h off : Nat) : Option IoReg :=
  let ws (v : Word) : Option IoReg := some { readLv := 3, writeLv := 3, value := v }
  if off = 128 then ws s.journal.statusWord
  else if 128 < off then none
  else
    let g := s.gate (decide (64 ≤ off))
    let x := g.seat g.vsel
    match off % 64 with
    | 0 => ws g.ctrlWord
    | 1 => ws g.statusWord
    | 2 => ws (g.claimWord h)
    | 3 => some { readLv := 0, writeLv := 3, value := 0 }
    | 4 => ws g.resultWord
    | 5 => ws (wd g.bptr)
    | 6 => some { readLv := 3, writeLv := 3, value := aget 0 g.buf g.bptr, active := true }
    | 7 => ws (wd g.vsel)
    | 8 => ws (wd (x.serial.toNat / 2 ^ 32))
    | 9 => ws (wd (x.serial.toNat % 2 ^ 32))
    | 10 => ws (wd (x.state * 2 ^ 34 + x.count.toNat))
    | 11 => some { readLv := 3, writeLv := 3, value := g.resultWord, active := true }
    | _ => none

/-- The tag window 120000q (R683). -/
def tagReg (s : State) (off : Nat) : Option IoReg :=
  let g := s.tag
  let ws (v : Word) : Option IoReg := some { readLv := 3, writeLv := 3, value := v }
  match off with
  | 0 => ws g.statusWord
  | 1 => ws (wd (b2n g.ien))
  | 2 => some { readLv := 0, writeLv := 3, value := 0 }
  | 3 => ws g.resultWord
  | 4 => some { readLv := 3, writeLv := 3, value := g.resultWord, active := true }
  | 5 => ws g.keyh
  | 6 => ws g.countsWord
  | _ =>
    if 8 ≤ off ∧ off < 38 then ws (aget 0 g.buf (off - 8))
    else if 40 ≤ off ∧ off < 48 then ws (aget 0 g.acl (off - 40))
    else none

/-- WT_LOGnA (even) and WT_LOGnB (odd). -/
def Watch.logWord (w : Watch) (i : Nat) : Word :=
  match w.log[i / 2]? with
  | none => 0
  | some e =>
    if i % 2 = 0 then wd e.sec
    else wd (2 ^ 35 + e.sec / 2 ^ 36 % 2 ^ 12 * 2 ^ 23 + e.mon * 2 ^ 18 + e.resp * 2 ^ 15 + b2n e.main * 2 ^ 14)

/-- The Watch window 130000q (R622). -/
def watchReg (s : State) (off : Nat) : Option IoReg :=
  let w := s.watch
  let ws (v : Word) : Option IoReg := some { readLv := 3, writeLv := 3, value := v }
  match off with
  | 0 => ws w.stateWord
  | 1 => ws (wd w.latch.toNat)
  | 2 => ws (wd (b2n w.wlock * 2 + b2n w.mlock))
  | 3 => ws (wd (b2n w.testRun.isSome * 2 ^ 35 + w.testResult * 2 ^ 33 + w.testMon))
  | 4 => ws (wd w.capture.1)
  | 5 => some { readLv := 3, writeLv := 3, value := wd w.rtcSec, active := true }
  | 6 => ws (wd w.capture.2)
  | _ =>
    if 8 ≤ off ∧ off < 36 then ws (s.monWord (off - 8))
    else if 64 ≤ off ∧ off < 96 then ws (w.logWord (off - 64))
    else none

/-- The power window 140000q (R569). -/
def powerReg (s : State) (off : Nat) : Option IoReg :=
  let ws (v : Word) : Option IoReg := some { readLv := 3, writeLv := 3, value := v }
  match off with
  | 0 => ws (wd s.pwStatus)
  | 1 => ws (wd (b2n s.power.wardenSprint))
  | _ => if 8 ≤ off ∧ off < 11 then ws (s.pdOn (off - 8)) else none

end Sys2Proof.Machine
end

