-- ==== Sys2Proof/Machine/Peek.lean ====
section
/-!
DEFINITION. Sys2Proof/Machine/Peek.lean: the register a Hand's IO-space address names (R66, R131).
-/
namespace Sys2Proof.Machine

/-- The register at an IO-space address, none where no register is defined, or for the windows of lane and
slice while the Hand holds no unit. -/
def ioReg (s : State) (h addr : Nat) : Option IoReg :=
  let off := addr % 4096
  match addr / 4096 with
  | 0 => coreLocalReg s h addr
  | 1 => stewardReg s h off
  | 2 => laneReg s h off
  | 3 => sliceReg s h off
  | 4 => vaultReg s h off
  | 5 => entropyReg s h off
  | 6 => granaryReg s h off
  | 7 => parishReg s off
  | 8 => flashReg s off
  | 9 => cardReg s h off
  | 10 => tagReg s off
  | 11 => watchReg s off
  | 12 => powerReg s off
  | 13 => cascadeReg s off
  | 14 => lifeReg s off
  | _ => none

end Sys2Proof.Machine
end

