-- ==== Sys2Proof/Machine/Record.lean ====
section
/-!
DEFINITION. Sys2Proof/Machine/Record.lean: host events and messages (R197, R199), and writing a
Parish record with its rate limit, ring and archive (R626 to R638).
-/
namespace Sys2Proof.Machine

/-- The device may issue DMA and messages (R189, R206, R216, R217). -/
def HostLink.dmaOk (l : HostLink) : Bool :=
  l.busMaster && !l.d3hot && !(l.ideRequired && !l.ideSecure)

/-- Host memory is within reach: over PCIe at the master, over Baton at a joined member (R189, R206,
R216, R529). -/
def State.dmaReady (s : State) : Bool :=
  if s.cascade.master then s.link.dmaOk else s.cascade.joined && decide ((s.port 0).state = .keyed)

/-- Ask for a run of host memory: a PCIe read, or a TREAD of a class with the host tag of its errand
(R519, R530). -/
def State.hostAsk (s : State) (cls tag : Nat) (address : Word64) (length : Nat) : State :=
  if s.cascade.master then s.emit (.hostRead address length)
  else s.sendFlit 0 4 cls [s.devicePath.toNat, tag, address.toNat, length] []

/-- Write a run of host memory: a posted PCIe write, or a TWRITE (R529). -/
def State.hostPut (s : State) (cls tag : Nat) (address : Word64) (octets : List Byte) : State :=
  if s.cascade.master then s.emit (.hostWrite address octets)
  else s.sendFlit 0 6 cls [s.devicePath.toNat, tag, address.toNat] octets

/-- Four words of the header log for an error seen now: the TLP's header is the link partner's (R200; log 10). -/
def State.freeHeader (s : State) : List (BitVec 32) × State :=
  ((List.range 4).map fun i => BitVec.ofNat 32 (Config.freeWord (s.free + i)), { s with free := s.free + 4 })

/-- An ERR_ message goes out where its kind is enabled: 0 correctable, 1 non-fatal, 2 fatal (R200; log 8). -/
def State.errMessage (s : State) (kind : Nat) : State :=
  if s.link.aer.report.getLsbD kind then s.emit (.errMsg kind) else s

/-- AER logs a correctable error, and reports it unless it is masked (R200; log 8). -/
def State.aerCorrected (s : State) (bit : Nat) : State :=
  let t := s.modLink fun l => { l with aer := { l.aer with cor := l.aer.cor ||| (1#32 <<< bit) } }
  if s.link.aer.corMask.getLsbD bit then t else t.errMessage 0

/-- AER logs an uncorrectable error: its status bit, the header of the first one that is not masked, and the
Advisory Non-Fatal bit when the error is reported as one; unless masked it is reported (R200, R201). -/
def State.aerLog (s : State) (bit : Nat) (advisory : Bool) : State :=
  let a := s.link.aer
  let b : BitVec 32 := 1#32 <<< bit
  let f := s.freeHeader
  let first := decide (a.uncor &&& ~~~a.uncorMask = 0) && decide (a.uncorMask &&& b = 0)
  let t := (if first then f.2 else s).modLink fun l => { l with aer := { a with
    uncor := a.uncor ||| b
    header := if first then f.1 else a.header } }
  if advisory then t.aerCorrected 13
  else if a.uncorMask.getLsbD bit then t
  else t.errMessage (if a.severity.getLsbD bit then 2 else 1)

/-- A poisoned or failed completion to a DMA read is logged as an Advisory Non-Fatal Error (R201). -/
def State.poisonedRead (s : State) : State := if s.cascade.master then s.aerLog 12 true else s

/-- MSI-X messages of a vector may go out (R189, R199, R206). -/
def HostLink.msixOpen (l : HostLink) (e : MsixEntry) : Bool :=
  l.dmaOk && l.msixEnable && !l.msixMask && !e.masked

/-- An MSI-X event: sent, or pending while masked or while no message may be issued (R199, log 22). -/
def State.msixEvent (s : State) (v : Nat) : State :=
  let e := aget {} s.link.msix v
  if !s.link.msixOpen e then
    s.modLink fun l => { l with msix := aput l.msix v { e with pending := true } }
  else s.emit (.msix v)

/-- Send the pending vectors whose messages may go out again (R199, log 22). -/
def State.flushMsix (s : State) : State :=
  s.link.msix.foldl (fun t kv =>
    if kv.2.pending && s.link.msixOpen kv.2 then
      (t.modLink fun l => { l with msix := aput l.msix kv.1 { kv.2 with pending := false } }).emit (.msix kv.1)
    else t) s

/-- Set a bit of HL_EVT; vector 0 is raised when it goes from 0 to 1 with EVT_EN (R197). -/
def State.hostEvent (s : State) (bit : Nat) : State :=
  if s.link.evt.getLsbD bit then s
  else
    let t := s.modLink fun l => { l with evt := l.evt ||| (1#9 <<< bit) }
    if s.link.evtEn then t.msixEvent 0 else t

/-- Tokens a bucket holds now, in units of 10^-8 (R633). -/
def RateCfg.fillNow (r : RateCfg) (now : Nat) : Nat :=
  min (max 1 r.burst * 10 ^ 8) (r.fill + r.rate * (now - r.at_))

/-- The words of a record: header, body and CRC (R626, Record header table). -/
def recordWords (s : State) (code kind supp : Nat) (path : Word) (body : List Word) : List Word :=
  let len := body.length + 7
  let t := s.link.tally
  let ws := [wd (code * 2 ^ 28 + kind * 2 ^ 26 + b2n s.watch.rtcValid * 2 ^ 25 + len * 2 ^ 16 + min supp 0xFFFF),
    wd (s.watch.rtcSec / 2 ^ 36 % 2 ^ 12 * 2 ^ 24 + s.parish.seq % 2 ^ 24),
    wd (t / 2 ^ 32 % 2 ^ 32), wd (t % 2 ^ 32), wd s.watch.rtcSec, path] ++ body
  ws ++ [wd (crc32c (words40 ws)).toNat]

/-- Remove whole records from OLDEST until n more words fit (R630). -/
def dropOldest (n : Nat) : Nat → Parish → Parish
  | 0, p => { p with oldest := p.next, used := 0 }
  | fuel + 1, p =>
    if p.used + n ≤ 16384 then p
    else
      let len := max 1 (wfield (aget 0 p.ring p.oldest) 23 16)
      if p.used ≤ len then { p with oldest := p.next, used := 0 }
      else dropOldest n fuel { p with oldest := (p.oldest + len) % 16384, used := p.used - len }

/-- Write words at NEXT, modulo 16,384. -/
def ringWrite (p : Parish) : List Word → Parish
  | [] => p
  | w :: ws => ringWrite { p with ring := aset 0 p.ring p.next w, next := (p.next + 1) % 16384, used := p.used + 1 } ws

/-- The words of the ring, from an index and with so many held, that lie in records before the first one whose CRC
fails, and one above the SEQ of the last of them (R628, R630). -/
def goodRecords (ring : Memory) : Nat → Nat → Nat → Nat → Nat × Nat
  | 0, _, _, seq => (0, seq)
  | fuel + 1, at_, held, seq =>
    let len := wfield (aget 0 ring at_) 23 16
    let ws := (List.range len).map fun i => aget 0 ring ((at_ + i) % 16384)
    if len < 7 || decide (held < len) || ws.getLast? != some (wd (crc32c (words40 ws.dropLast)).toNat) then (0, seq)
    else
      let r := goodRecords ring fuel ((at_ + len) % 16384) (held - len) ((wfield (ws.getD 1 0) 23 0 + 1) % 2 ^ 24)
      (len + r.1, r.2)

/-- The register checks the ring at start-up, and discards it from the first record that fails (R630). -/
def Parish.recheck (p : Parish) : Parish :=
  let r := goodRecords p.ring 2400 p.oldest p.used p.ringSeq
  if r.1 = p.used then p else { p with next := (p.oldest + r.1) % 16384, used := r.1, ringSeq := r.2 }

/-- Append a record to the ring and count it (R628, R630, PR_CTRL.THRESH). -/
def State.toRing (s : State) (ws : List Word) : State :=
  let p := ringWrite (dropOldest ws.length 2400 s.parish) ws
  let p := { p with seq := (p.seq + 1) % 2 ^ 24, ringSeq := (p.seq + 1) % 2 ^ 24, count := p.count + 1 }
  let t := { s with parish := p }
  if p.thresh ≠ 0 && p.count == p.thresh then t.interruptAll 18 else t

/-- The flash word address of archive line i of P4 to P7 (R632). -/
def archiveAddr (i : Nat) : Nat := 4 * 4096 + (i % 1024) * 16

/-- Runs of words with those from lo to hi taken out. -/
def cutRuns (lo hi : Nat) (runs : List (Nat × Nat)) : List (Nat × Nat) :=
  runs.flatMap fun r =>
    (if r.1 < lo then [(r.1, min r.2 (lo - r.1))] else [])
      ++ (if hi < r.1 + r.2 then [(max r.1 hi, r.1 + r.2 - max r.1 hi)] else [])

/-- First word and length of a sector by index (R484). -/
def sectorBase (i : Nat) : Nat := if i < 16 then i * 4096 else (i - 15) * 65536
def sectorSize (i : Nat) : Nat := if i < 16 then 4096 else 65536
/-- The sector index of a word address. -/
def sectorOf (a : Nat) : Nat := if a < 65536 then a / 4096 else a / 65536 + 15

/-- Program a line: its cells hold the words, and are no longer blank (R493, R494). -/
def Flash.programLine (f : Flash) (a : Nat) (ws : List Word) : Flash :=
  { f with
    words := asetRun erasedWord f.words a ws
    undef := cutRuns a (a + 16) f.undef
    programmed := (a / 16) :: f.programmed.filter (· ≠ a / 16) }

/-- Erase every cell of a sector. -/
def Flash.eraseSector (f : Flash) (i : Nat) : Flash :=
  let lo := sectorBase i; let hi := lo + sectorSize i
  { f with
    words := f.words.filter fun kv => kv.1 < lo || hi ≤ kv.1
    bad := f.bad.filter fun a => a < lo || hi ≤ a
    weak := f.weak.filter fun a => a < lo || hi ≤ a
    undef := cutRuns lo hi f.undef
    programmed := f.programmed.filter fun l => l * 16 < lo || hi ≤ l * 16
    marked := f.marked.filter (· ≠ i) }

/-- An internal requester's erase of the sector has not ended (R499, R636). -/
def Flash.erasing (f : Flash) (sector : Nat) : Bool := f.inner.any fun o => o.op == 2 && sectorOf o.addr == sector

/-- An internal requester's program of a line has not ended. -/
def Flash.lineQueued (f : Flash) (a : Nat) : Bool := f.inner.any fun o => o.op == 1 && o.addr == a

/-- An internal requester's operation joins those of bank 0 (R499). -/
def State.queueFlash (s : State) (o : FlashOp) : State := s.modFlash fun f => { f with inner := f.inner ++ [o] }

/-- A line whose program is over by the time of the event that tells of it; one in a sector still being erased
waits (R492, R656). -/
def State.programNow (s : State) (a : Nat) (ws : List Word) : State :=
  if s.flash.erasing (sectorOf a) then s.queueFlash { op := 1, addr := a, words := ws }
  else s.modFlash fun f => f.programLine a ws

/-- The array once the programs queued before a read of bank 0 have ended (R491). -/
def Flash.landed (f : Flash) : Flash :=
  (f.inner.filter fun o => o.op == 1).foldl (fun g o => g.programLine o.addr o.words) f

/-- A word lies in undefined content. -/
def Flash.openAt (f : Flash) (a : Nat) : Bool := f.undef.any fun r => decide (r.1 ≤ a) && decide (a < r.1 + r.2)

/-- The array as its n-th reader finds it: a free word in each undefined cell, and a free ECC indication
(R12, R13). -/
def Flash.seen (f : Flash) (n : Nat) : Flash :=
  f.undef.foldl (fun g r => (List.range r.2).foldl (fun g i =>
    let a := r.1 + i
    { g with
      words := aset erasedWord g.words a (Config.flashWord n a)
      bad := if Config.flashEcc n a = 2 then a :: g.bad else g.bad
      weak := if Config.flashEcc n a = 1 then a :: g.weak else g.weak }) g) f

/-- The array for one reading of many words: the next reading may find other words. -/
def State.seeFlash (s : State) : Flash × State :=
  (s.flash.seen s.free, if s.flash.undef.isEmpty then s else { s with free := s.free + 1 })

/-- Program the line buffer into the next archive line (R634, R635). -/
def State.programArchive (s : State) : State :=
  if s.parish.line.isEmpty then s
  else
    (s.queueFlash { op := 1, addr := archiveAddr s.parish.archLine, words := s.parish.line.take 16
                    seq := s.parish.lineSeq }).modParish fun p => { p with
      line := [], archLine := (p.archLine + 1) % 1024, archTokens := p.archTokens - 1 }

/-- Append words to the line buffer, programming each line as it fills (R634). -/
def toLines : Nat → List Word → State → State
  | 0, _, s => s
  | fuel + 1, ws, s =>
    let room := 16 - s.parish.line.length
    let t := s.modParish fun p => { p with line := p.line ++ ws.take room }
    if t.parish.line.length < 16 then t
    else
      let t := t.programArchive
      if ws.length ≤ room then t else toLines fuel (ws.drop room) t

/-- A record needs a new line: the buffer is empty, or has no room for all of it (R635). -/
def Parish.needsLine (p : Parish) (ws : List Word) : Bool := p.line.isEmpty || decide (16 < p.line.length + ws.length)

/-- The bucket has a token for each line the record would end in or fill, the one being filled included (R635). -/
def Parish.tokensFor (p : Parish) (ws : List Word) : Bool := decide ((p.line.length + ws.length + 15) / 16 ≤ p.archTokens)

/-- The archive line that a record would end in lies in a sector still being erased (R636). -/
def State.archiveBusy (s : State) (ws : List Word) : Bool :=
  let p := s.parish
  s.flash.erasing (sectorOf (archiveAddr (p.archLine + (p.line.length + ws.length - 1) / 16)))

/-- Send a record to the archive (R634 to R636); `must` for codes C6h and C7h, which take a line at once. -/
def State.toArchiveRaw (s : State) (must : Bool) (ws : List Word) : State :=
  if s.parish.needsLine ws && ((!s.parish.tokensFor ws && !must) || s.archiveBusy ws) then
    s.modParish fun p => { p with askip := satInc p.askip 127 }
  else
    let t := toLines 16 ws (s.modParish fun p => { p with lineSeq := (wfield (ws.getD 1 0) 23 0 + 1) % 2 ^ 24 })
    if must then t.programArchive else t

/-- One value of a snapshot body, and whether the entry reads nothing (R638; log 24). -/
def State.slistValue (s : State) (e : Word) : Word × Bool :=
  match ioReg s 0 (wfield e 17 0) with
  | some r => if r.active then (0, true) else (r.value, false)
  | none => (0, true)

/-- A SNAPSHOT record; it carries and clears the code's SUPP (R633, R638). -/
def State.snapshotRecord (s : State) (code detail : Nat) (path : Word) : State :=
  let entries := ((List.range 32).map fun i => (i, aget 0 s.parish.slist i)).filter fun e => e.2.getLsbD 35
  let vals := entries.map fun e => (e.1, s.slistValue e.2)
  let mask := vals.foldl (fun m v => m + (if v.2.2 then 2 ^ v.1 else 0)) 0
  let r := s.parish.rateOf code
  let ws := recordWords s code 1 r.supp path ([wd (detail % 2 ^ 32), wd mask] ++ vals.map fun v => v.2.1)
  (if r.supp = 0 then s else s.modParish fun p => { p with rates := aput p.rates code { r with supp := 0 } }).toRing ws

/-- The archive's EVENT record of an event that the ring holds as a SNAPSHOT (R637). -/
def State.archiveOnly (s : State) (code : Nat) (path : Word) (body : List Word) : List Word × State :=
  (recordWords s code 0 0 path body, s.modParish fun p => { p with seq := (p.seq + 1) % 2 ^ 24 })

/-- An EVENT record of the flash controller about an internal erase, put in ring and archive; in SNAPSHOT
mode the ring holds a SNAPSHOT of it (R634, R637). -/
def State.rawEvent (s : State) (code detail : Nat) : State :=
  let body := [wd (detail % 2 ^ 32)]
  if s.parish.snapshot then
    let r := (s.snapshotRecord code detail s.devicePath).archiveOnly code s.devicePath body
    r.2.toArchiveRaw true r.1
  else
    let ws := recordWords s code 0 (s.parish.rateOf code).supp s.devicePath body
    (s.toRing ws).toArchiveRaw true ws

/-- The line that the register programmed last. -/
def Parish.lastLine (p : Parish) : Nat := archiveAddr (p.archLine + 1023)

/-- An internal requester's erase: its intent record is programmed, and the erase queues behind it (R497, R499). -/
def State.internalErase (s : State) (sector : Nat) : State :=
  if s.flash.erasing sector then s
  else
    let t := s.rawEvent 0xC6 sector
    t.queueFlash { op := 2, addr := sectorBase sector, intent := some t.parish.lastLine }

/-- An internal requester erases a marked sector before it programs a line there (R497). -/
def State.eraseMarked (s : State) (sector : Nat) : State :=
  if s.flash.marked.contains sector then s.internalErase sector else s

/-- A marked sector of the archive is erased while the write point is in the one before it (R497; log 23). -/
def State.archiveMarked (s : State) : State := s.eraseMarked (4 + (s.parish.archLine / 256 + 1) % 4)

/-- On entering an archive sector the register erases the next one of the ring, its intent and
done records going into the sector being written (R497, R636; log 23). -/
def State.enterSector (s : State) : State := s.internalErase (4 + (s.parish.archLine / 256 + 1) % 4)

/-- Send a record to the archive, erasing ahead when the write point enters a sector. -/
def State.toArchive (s : State) (must : Bool) (ws : List Word) : State :=
  let s := s.archiveMarked
  let t := s.toArchiveRaw must ws
  if t.parish.archLine ≠ s.parish.archLine && t.parish.archLine % 256 == 1 then t.enterSector else t

/-- Write an EVENT (kind 0) or FIRMWARE (kind 3) record under R633, R634 and R637; its body is DETAIL, with
what R615 adds to it. -/
def State.recordBody (s : State) (kind code detail : Nat) (path : Word) (more : List Word) : State :=
  let r := s.parish.rateOf code
  let must := code == 0xC6 || code == 0xC7
  let fill := r.fillNow s.parish.now
  if kind = 0 ∧ s.parish.snapshot then
    let t := s.snapshotRecord code detail path
    if r.archive || must then
      let a := t.archiveOnly code path (wd (detail % 2 ^ 32) :: more)
      a.2.toArchive must a.1
    else t
  else if fill < 10 ^ 8 && r.rate ≠ 0 && !must then
    s.modParish fun p => { p with
      rates := aput p.rates code { r with supp := satInc r.supp 0xFFFF, fill := fill, at_ := p.now } }
  else
    let ws := recordWords s code kind r.supp path (wd (detail % 2 ^ 32) :: more)
    let t := s.modParish fun p => { p with
      rates := aput p.rates code { r with supp := 0, fill := fill - 10 ^ 8, at_ := p.now } }
    let t := t.toRing ws
    if r.archive || must then t.toArchive must ws else t

/-- A record whose body is DETAIL alone (R627). -/
def State.recordKind (s : State) (kind code detail : Nat) (path : Word) : State := s.recordBody kind code detail path []

/-- Write an EVENT record of the device. -/
def State.record (s : State) (code detail : Nat) : State := s.recordKind 0 code detail s.devicePath

/-- An uncorrectable word is read: ECC_UE, UE_ADDR and a record (R486). -/
def State.flashUe (s : State) (a : Nat) : State :=
  (s.modFlash fun f => { f with ueAddr := if f.eccUe then f.ueAddr else a, eccUe := true }).record 0xC8 a

/-- The ECC indications of a reading of the words chosen, in the array as the reader finds it (R13, R486). -/
def State.noteReads (s : State) (f : Flash) (sel : Nat → Bool) : State :=
  let corrected := (f.weak.filter sel).length
  (f.bad.filter sel).foldl State.flashUe (s.modFlash fun g => { g with ce := min 4095 (g.ce + corrected) })

/-- Report an event to its tamper monitor, which counts it in its next sample (R325, R402, R452, R515, R598). -/
def State.reportEvent (s : State) (m : Nat) : State :=
  s.modWatch fun w => { w with reported := w.reported ||| (1#28 <<< m) }

/-- Write an EVENT record that concerns a Hand. -/
def State.recordHand (s : State) (code detail h : Nat) : State :=
  s.recordKind 0 code detail (s.corePath (coreOf h))

end Sys2Proof.Machine
end

