-- ==== Sys2Proof/Machine/Acu.lean ====
section
/-!
DEFINITION. Sys2Proof/Machine/Acu.lean: the access control units (file 13): which rule decides an
access, the choice of R480 and the first-violation record.
-/
namespace Sys2Proof.Machine

/-- One word of an access as an ACU sees it. -/
structure Probe where
  /-- IO-space, else D-space or the fabric. -/
  io : Bool := false
  addr : Nat
  /-- first word of the access it belongs to (VADDR). -/
  start : Nat
  write : Bool
deriving DecidableEq, Repr

/-- Who makes an access (VINFO). -/
structure Accessor where
  /-- 0 Hand, 1 transfer for a Hand, 2 Baton, 3 debug. -/
  mkind : Nat
  master : Nat
  /-- 0 CU, 1 CS, 2 WU, 3 WS, 4 DEBUG. -/
  level : Nat
deriving DecidableEq, Repr

/-- The address bits a unit compares: bits above the width of the space are ignored. -/
def spaceWidth (k : AcuKind) (io : Bool) : Nat :=
  match k with
  | .device => 30
  | _ => if io then 18 else 24

/-- A rule matches an access (R475). -/
def AcuRules.matches (r : AcuRules) (k : AcuKind) (a : Accessor) (p : Probe) (i : Nat) : Bool :=
  let x := aget {} r.rules i
  let m := 2 ^ spaceWidth k p.io
  x.perm.getLsbD 35 && (k ≠ .core || x.perm.getLsbD 34 == p.io)
    && decide (x.base.toNat % m ≤ p.addr) && decide (p.addr ≤ x.limit.toNat % m)
    && (k == .device || decide (i < r.cbase) || decide (a.level ≤ 1))

/-- The deciding rule, 16 for DEFAULT, and its permissions (R475). -/
def AcuRules.decide (r : AcuRules) (k : AcuKind) (a : Accessor) (p : Probe) : Nat × Word :=
  match (List.range 16).find? (r.matches k a p) with
  | some i => (i, (aget {} r.rules i).perm)
  | none => (16, r.ctrl)

/-- The unit allows the access: the permission bit of its level and direction (PERM table). -/
def AcuRules.allows (r : AcuRules) (k : AcuKind) (a : Accessor) (p : Probe) : Bool :=
  (r.decide k a p).2.getLsbD (2 * a.level + b2n p.write)

/-- The rules an access meets: the new ones, or while writes are unfenced either set (R480, log 10). -/
def Acu.pick (u : Acu) (free : Nat) : AcuRules :=
  if u.writers.isEmpty || Config.acuNew free then u.rules else u.old

/-- Fill or count a first-violation record (R481). -/
def Acu.refuse (u : Acu) (a : Accessor) (p : Probe) (rule : Nat) : Acu :=
  if u.vinfo.getLsbD 35 then { u with vcount := satInc u.vcount (2 ^ 32 - 1) }
  else { u with
    vaddr := p.start
    vword := p.addr
    vinfo := wd (2 ^ 35 + a.mkind * 2 ^ 25 + b2n p.write * 2 ^ 24 + b2n p.io * 2 ^ 23
      + a.master * 2 ^ 14 + a.level * 2 ^ 11 + rule) }

/-- The refusal is a new record. -/
def Acu.recordsNew (u : Acu) : Bool := !u.vinfo.getLsbD 35

/-- A refusal by a core ACU: its record, and source 9 for a new one (R482). -/
def State.coreAcuRefuse (s : State) (c : Nat) (r : AcuRules) (a : Accessor) (p : Probe) : State :=
  let u := (s.core c).acu
  let t := s.modCore c fun x => { x with acu := u.refuse a p (r.decide .core a p).1 }
  if u.recordsNew then (t.assertOn c 9).settle else t

/-- A refusal by a Hamlet ACU: its record, and source 10 on the Hamlet's cores for a new one (R482). -/
def State.hamletAcuRefuse (s : State) (i : Nat) (r : AcuRules) (a : Accessor) (p : Probe) : State :=
  let u := (s.hamlet i).acu
  let t := s.modHamlet i fun x => { x with acu := u.refuse a p (r.decide .hamlet a p).1 }
  if u.recordsNew then
    ((List.range 16).foldl (fun t c => t.assertOn (16 * i + c) 10) t).settle
  else t

/-- This device's number (CS_STATE.DEVNUM; 0 on the master). -/
def State.ownNumber (s : State) : Nat := if s.cascade.master then 0 else s.cascade.devnum

/-- A refusal by the device ACU: its record, and a Parish record of the code for a new one, whose DETAIL is
VWORD (R482, R629, Record codes table; log 114). -/
def State.devAcuRefuse (s : State) (r : AcuRules) (a : Accessor) (p : Probe) (code : Nat) : State :=
  let u := s.devAcu
  let t := { s with devAcu := u.refuse a p (r.decide .device a p).1 }
  if u.recordsNew then
    if a.mkind = 1 then t.recordHand code p.addr a.master
    else t.record code p.addr
  else t

/-- What the units an access meets decide with, taken once for the whole access (R479, R480). -/
structure AcuView where
  core : AcuRules
  hamlet : AcuRules
  device : AcuRules
deriving DecidableEq, Repr

/-- Take the rule sets for one access of a Hand, counting the free choice of R480. -/
def State.acuView (s : State) (h : Nat) : AcuView × State :=
  let c := (s.core (coreOf h)).acu; let m := (s.hamlet (hamletOf h)).acu
  let v : AcuView := ⟨c.pick s.free, m.pick s.free, s.devAcu.pick s.free⟩
  (v, if c.writers.isEmpty && m.writers.isEmpty && s.devAcu.writers.isEmpty then s else { s with free := s.free + 1 })

/-- A word of the Commons: the Hamlet ACU checks it (ACU scope table). -/
def inCommons (addr : Nat) : Bool := 0x8000 ≤ addr && addr < 0x28000

/-- Check one word against the core ACU, recording a refusal (R471, R474). True when allowed. -/
def State.coreCheck (s : State) (v : AcuView) (h : Nat) (a : Accessor) (p : Probe) : Bool × State :=
  if p.io && decide (p.addr < 4096) then (true, s)
  else if !v.core.allows .core a p then (false, s.coreAcuRefuse (coreOf h) v.core a p)
  else (true, s)

/-- Check one word of the Commons against the Hamlet ACU, recording a refusal (R471). True when allowed. -/
def State.hamletCheck (s : State) (v : AcuView) (h : Nat) (a : Accessor) (p : Probe) : Bool × State :=
  if !p.io && inCommons p.addr && !v.hamlet.allows .hamlet a p then
    (false, s.hamletAcuRefuse (hamletOf h) v.hamlet a p)
  else (true, s)

/-- Check one word against the core ACU, then the Hamlet ACU (R472). True when allowed. -/
def State.acuCheck (s : State) (v : AcuView) (h : Nat) (a : Accessor) (p : Probe) : Bool × State :=
  match s.coreCheck v h a p with
  | (true, t) => t.hamletCheck v h a p
  | r => r

/-- Fabric address of a Workspace or Commons word reached for a Hand (Fabric addresses table). -/
def State.fabricAddr (s : State) (h addr : Nat) : Nat :=
  let c := coreOf h
  if addr < 0x8000 then 2 ^ 27 + hamletOf h * 2 ^ 24 + (c % 16) * 2 ^ 20 + (s.hand h).wsBase + addr
  else 2 * 2 ^ 27 + hamletOf h * 2 ^ 24 + (addr - 0x8000)

/-- Check one D-space word of a transfer made for a Hand against the device ACU, at its fabric address (R471). -/
def State.deviceCheck (s : State) (v : AcuView) (h : Nat) (a : Accessor) (p : Probe) (code : Nat) : Bool × State :=
  if p.addr < 0x28000 then
    let q : Probe := { p with addr := s.fabricAddr h p.addr, start := s.fabricAddr h p.start }
    if v.device.allows .device a q then (true, s) else (false, s.devAcuRefuse v.device a q code)
  else (true, s)

/-- Apply a rule or CTRL write to a rule set, by offset: 0 to 63 a rule field, 64 CTRL (R475 to R477). -/
def AcuRules.write (r : AcuRules) (k : AcuKind) (off : Nat) (data : Word) : AcuRules :=
  let common (i : Nat) : Bool := k ≠ .device && r.cbase ≤ i
  if off = 64 then
    let w : Word := match k with
      | .device => wmask 0x3FF#36 r.ctrl data
      | .hamlet => wmask 0x1F00FF#36 r.ctrl data
      | .core => wmask 0x1F30FF#36 r.ctrl data
    let r' := { r with ctrl := w }
    { r' with rules := r.rules.map fun kv =>
        if k ≠ .device && r'.cbase ≤ kv.1 then (kv.1, { kv.2 with perm := kv.2.perm &&& ~~~0x3F0#36 }) else kv }
  else
    let i := off / 4
    { r with rules := amod {} r.rules i fun x =>
        match off % 4 with
        | 0 => { x with base := data &&& 0x3FFFFFFF#36 }
        | 1 => { x with limit := data &&& 0x3FFFFFFF#36 }
        | 2 => { x with perm := if common i then data &&& k.permMask &&& ~~~0x3F0#36 else data &&& k.permMask }
        | _ => x }

/-- What a write may change of the rules as they stand: the Warden bits of a Common-owned rule's PERM are
dropped when it is written (R476). -/
def AcuRules.writable (r : AcuRules) (k : AcuKind) (off : Nat) (data : Word) : Word :=
  if k ≠ .device && off < 64 && off % 4 == 2 && r.cbase ≤ off / 4 then data &&& ~~~0x3F0#36 else data

/-- A Hand's write to a rule or CTRL: in force after its PFENCE at the latest (R480). -/
def Acu.writeRule (u : Acu) (k : AcuKind) (h off : Nat) (data : Word) : Acu :=
  let d := u.rules.writable k off data
  { u with rules := u.rules.write k off d, writers := u.writers ++ [(h, off, d)] }

/-- A PFENCE of a Hand: its writes are in force on both sets (R480). -/
def Acu.fence (u : Acu) (k : AcuKind) (h : Nat) : Acu :=
  let mine := u.writers.filter fun w => w.1 == h
  let rest := u.writers.filter fun w => w.1 ≠ h
  if rest.isEmpty then { u with old := u.rules, writers := [] }
  else { u with old := mine.foldl (fun o w => o.write k w.2.1 w.2.2) u.old, writers := rest }

/-- Clear VALID, and set VCOUNT: writes of the record registers (R481). -/
def Acu.writeRecord (u : Acu) (off : Nat) (data : Word) : Acu :=
  match off with
  | 3 => if data.getLsbD 35 then { u with vinfo := u.vinfo &&& ~~~0x800000000#36 } else u
  | 4 => { u with vcount := data.toNat % 2 ^ 32 }
  | _ => u

end Sys2Proof.Machine
end

