-- ==== Sys2Proof/Machine/Path.lean ====
section
/-!
DEFINITION. Sys2Proof/Machine/Path.lean: Holding Paths (R40 to R45, R730), and the moves of a
deadline contract's state (R288).
-/
namespace Sys2Proof.Machine

/-- HOPS of a path. -/
def hopsOf (p : Word) : Nat := wfield p 35 33
/-- The port taken at hop k, 1 to 6. -/
def hopPort (p : Word) (k : Nat) : Nat := wfield p (35 - 3 * k) (33 - 3 * k)
/-- LEVEL: 0 SUBTREE, 1 DEVICE, 2 HAMLET, 3 CORE. -/
def pathLevel (p : Word) : Nat := wfield p 14 12
/-- HAMLET of a path. -/
def pathHamlet (p : Word) : Nat := wfield p 11 9
/-- CORE of a path. -/
def pathCore (p : Word) : Nat := wfield p 5 0
/-- HOPS and ports: the device a path names or heads. -/
def pathDevice (p : Word) : Nat := p.toNat / 2 ^ 15

/-- A path is well formed (R43). -/
def pathOk (p : Word) : Bool :=
  hopsOf p ≤ 6
    && (List.range 6).all (fun i => if i < hopsOf p then 1 ≤ hopPort p (i + 1) else hopPort p (i + 1) == 0)
    && pathLevel p ≤ 3
    && (pathHamlet p == 0 || pathLevel p == 2 || pathLevel p == 3)
    && wfield p 8 6 == 0
    && pathCore p ≤ 15 && (pathCore p == 0 || pathLevel p == 3)

/-- H1 to H(n) of two paths agree. -/
def samePorts (a b : Word) (n : Nat) : Bool := (List.range n).all fun i => hopPort a (i + 1) == hopPort b (i + 1)

/-- A lies inside B (R730). -/
def pathInside (a b : Word) : Bool :=
  match pathLevel b with
  | 0 => decide (hopsOf b ≤ hopsOf a) && samePorts a b (hopsOf b)
  | 1 => pathDevice a == pathDevice b && (pathLevel a ≠ 0 || hopsOf a == 6)
  | 2 => pathDevice a == pathDevice b && (pathLevel a == 2 || pathLevel a == 3) && pathHamlet a == pathHamlet b
  | _ => a == b

/-- A device path lies in the subtree another path heads. -/
def deviceUnder (dev head : Word) : Bool := decide (hopsOf head ≤ hopsOf dev) && samePorts dev head (hopsOf head)

/-- The route entry of a device of the Holding, by device number. -/
def State.hcEntry (s : State) (n : Nat) : HcEntry := aget {} s.cascade.entries n

/-- The device a path names or heads is this one. -/
def State.ownDevice (s : State) (p : Word) : Bool := pathDevice p == pathDevice s.devicePath

/-- The master's record of the device a path names: PRESENT. -/
def State.memberPresent (s : State) (p : Word) : Bool :=
  s.cascade.entries.any fun kv => decide (kv.2.state = .present) && pathDevice kv.2.path == pathDevice p

/-- The port of this device towards a device path (Routing, file 15). -/
def State.portTo (s : State) (p : Word) : Nat := hopPort p (hopsOf s.devicePath + 1)

/-- A core of this device is in service. -/
def State.inService (s : State) (c : Nat) : Bool := !(s.core c).outOfService

/-- The cores of this device inside a well-formed path. -/
def State.coresIn (s : State) (p : Word) : List Nat :=
  if pathLevel p = 0 then
    if deviceUnder s.devicePath p then List.range 128 else []
  else if !s.ownDevice p then []
  else match pathLevel p with
    | 1 => List.range 128
    | 2 => (List.range 16).map (· + 16 * pathHamlet p)
    | _ => [16 * pathHamlet p + pathCore p]

/-- Cores of this device in service lie inside a path (R36). -/
def State.ownServes (s : State) (p : Word) : Bool := (s.coresIn p).any s.inService

/-- The device of an entry lies inside a path, PRESENT and with cores in service by its last report (R533). -/
def HcEntry.serves (e : HcEntry) (p : Word) : Bool :=
  decide (e.state = .present) && decide (0 < e.cores)
    && (if pathLevel p = 0 then deviceUnder e.path p else pathDevice e.path == pathDevice p)

/-- Some member serves a path, as far as the master knows: a member tests its own Hamlets and cores (R45, R729). -/
def State.memberServes (s : State) (p : Word) : Bool := s.cascade.entries.any fun kv => kv.2.serves p

/-- The target is present and in service (R36, R45): the device it names or is headed by is present, and cores
inside it are in service. -/
def State.targetPresent (s : State) (p : Word) : Bool :=
  (deviceUnder s.devicePath p || s.ownDevice p || s.memberPresent p) && (s.ownServes p || s.memberServes p)

/-- The device number of a path: 0 the master, none without an entry (HC_ENTRY, R526). -/
def State.deviceNumber (s : State) (p : Word) : Option Nat :=
  if s.ownDevice p then some s.cascade.devnum
  else (s.cascade.entries.find? fun kv => decide (kv.2.state ≠ .empty) && pathDevice kv.2.path == pathDevice p).map (·.1)

/-- DETAIL of HOLDING_ABSENT (Cascade status codes). -/
def State.absentDetail (s : State) (p : Word) : Nat :=
  match s.deviceNumber p with
  | some n => n + (if s.ownDevice p || s.memberPresent p then 2 ^ 31 else 0)
  | none => 0xFFFFFFFF

/-- TARGET of a descriptor (Errand descriptor table, R47); bits 63:36 are reserved (log 66). -/
def descTarget (raw : List Byte) : Word := wd (leNat ((raw.drop 8).take 8))

/-- A ring's contract is ADMITTED or AT_RISK. -/
def Contract.bound (c : Contract) : Bool := decide (c.state = .admitted) || decide (c.state = .atRisk)

/-- T, in ns (R558). -/
def State.tolerance (s : State) : Nat :=
  let rings := s.power.ltRingForce.filterMap fun kv =>
    if decide ((s.ring kv.1).sqState = .active) || (s.contract kv.1).bound then some kv.2 else none
  (rings ++ s.cascade.tolerance.toList).foldl min s.power.ltForce

/-- An LTR message with the tolerance in force, while the link is up (R203). -/
def State.sendLtr (s : State) : State := if s.link.dlUp then s.emit (.ltr s.tolerance) else s

/-- A tolerance not yet sent goes out: an LTR message, and from the master a message to every member
(R203, R535). -/
def State.announceTolerance (s : State) : State :=
  let t := s.tolerance
  if s.cascade.sentTolerance = some t then s
  else
    let s := s.modCascade fun c => { c with sentTolerance := some t }
    let s := s.sendLtr
    if s.cascade.master then s.sendDown 1 [6, t] [] else s

/-- The forwarded errands whose deadline has come into force or gone since an earlier state: their devices hear
it (R289; log 116). -/
def State.tellRanks (t s : State) : State :=
  t.steward.errands.foldl (fun u kv => match kv.2.phase with
    | .forwarded port _ =>
      if (s.deadlineOf kv.2).isSome = (t.deadlineOf kv.2).isSome then u
      else u.sendControl port [24, kv.1 % 65536, b2n (t.deadlineOf kv.2).isNone] []
    | _ => u) t

/-- Change a ring's contract; its forwarded errands rank anew (R289). -/
def State.rankContract (s : State) (n : Nat) (f : Contract → Contract) : State := (s.modContract n f).tellRanks s

/-- A contract moves to AT_RISK (22h) or BROKEN (23h), with its signals (R288, R629). -/
def State.moveContract (s : State) (n : Nat) (into : ContractState) (cause : Nat) : State :=
  let c := s.contract n
  if c.state = into then s.modContract n fun c => { c with cause := cause }
  else
    let t := s.rankContract n fun c => { c with state := into, cause := cause }
    match into with
    | .atRisk => ((t.hostEvent 3).interruptAll 27).record 0x22 (n * 256 + cause * 16)
    | .broken => ((t.hostEvent 3).interruptAll 27).record 0x23 (n * 256 + cause * 16)
    | _ => t

/-- Every ADMITTED contract that a test selects moves to AT_RISK. -/
def State.riskContracts (s : State) (cause : Nat) (which : Nat → Contract → Bool) : State :=
  s.steward.contracts.foldl (fun t kv =>
    if decide (kv.2.state = .admitted) && which kv.1 kv.2 then t.moveContract kv.1 .atRisk cause else t) s

/-- Every ADMITTED or AT_RISK contract that a test selects becomes BROKEN. -/
def State.breakContracts (s : State) (cause : Nat) (which : Nat → Contract → Bool) : State :=
  s.steward.contracts.foldl (fun t kv =>
    if kv.2.bound && which kv.1 kv.2 then t.moveContract kv.1 .broken cause else t) s

/-- The contracts a core's loss breaks: a CORE or HAMLET target that holds it (Contract causes table, 9). -/
def State.breakForCore (s : State) (c : Nat) : State :=
  s.breakContracts 9 fun _ k => (pathLevel k.target == 2 || pathLevel k.target == 3) && (s.coresIn k.target).contains c

end Sys2Proof.Machine
end

