-- ==== Sys2Proof/Machine/Stop.lean ====
section
/-!
DEFINITION. Sys2Proof/Machine/Stop.lean: ending and stopping an errand (R139, R280), and the reset
of one core (R35, R689).
-/
namespace Sys2Proof.Machine

/-! ### Stores that wait to become visible (R97 to R100) -/

/-- Write the word at a place; a frame becomes dirty (R320). -/
def State.pokeLoc (s : State) (l : Loc) (v : Word) : State :=
  match l with
  | .workspace c i => s.modCore c fun k => { k with workspace := aset 0 k.workspace i v }
  | .commons m i => s.modHamlet m fun k => { k with commons := aset 0 k.commons i v }
  | .frame p i => s.modStore fun t => { t with frames := amod {} t.frames p fun f =>
      { f with words := aset 0 f.words i v, dirty := true } }
  | .window h i => s.modHand h fun k => { k with window := aset 0 k.window i v }

/-- A store to a granule loses the reservation every other Hand holds on it (R105). -/
def State.loseReservations (s : State) (l : Loc) (by_ : Option Nat) : State :=
  { s with hands := s.hands.map fun kv =>
      if decide (some kv.1 ≠ by_) && decide (kv.2.resv.map Reservation.loc = some l)
      then (kv.1, { kv.2 with resv := none }) else kv }

/-- A store to a place by a Hand, or by another master (none), becomes visible. -/
def State.storeLoc (s : State) (l : Loc) (v : Word) (by_ : Option Nat) : State :=
  (s.loseReservations l by_).pokeLoc l v

/-- The place is still there: a frame the Granary has dropped takes no store. -/
def State.present (s : State) (l : Loc) : Bool :=
  match l with
  | .frame p _ => (afind s.store.frames p).isSome
  | _ => true

/-- One posted store becomes visible. -/
def State.land1 (s : State) (h : Nat) (p : Loc × Word) : State :=
  if s.present p.1 then s.storeLoc p.1 p.2 (some h) else s

/-- Posted stores of a Hand that a test picks become visible in program order, and the others stay. -/
def State.land (s : State) (h : Nat) (now : Loc × Word → Bool) : State :=
  let q := (s.hand h).posted
  if q.isEmpty then s
  else (q.filter now).foldl (fun t p => t.land1 h p)
    (s.modHand h fun x => { x with posted := q.filter fun p => !now p })

/-- Every posted store of the Hand becomes visible (R100). -/
def State.drain (s : State) (h : Nat) : State := s.land h fun _ => true

/-- A free choice lets the stores to the place of some posted store become visible, ahead of older
stores to other places (R98; log 88). -/
def State.stir (s : State) (h : Nat) : State :=
  let q := (s.hand h).posted
  if q.isEmpty then s
  else
    let f := s.freeValue
    match q[f.1 % (q.length + 1)]? with
    | some p => f.2.land h fun r => r.1 == p.1
    | none => f.2

/-! ### Releasing a Hand -/

/-- A slice operation of a stopped errand runs out its cycles; its key and scratch memory are zero-filled now (R403,
R412). -/
def SliceOp.stop (o : SliceOp) : SliceOp := { o with stopped := true, key := none, random := [] }

/-- The Hand leaves RUNNING for RELEASING: its stores are performed, its pending request is cancelled
and engines that run for it are told when the errand was stopped; a lane operation cut by a handback
runs on no unit and ends at once (R139, R280). -/
def State.releaseHand (s : State) (h : Nat) (stopped : Bool) : State :=
  let s := s.drain h
  let x := s.hand h
  let s := s.setHand h { x with state := .releasing, request := none, resv := none, delay := none, imp := none, irqDepth := none }
  let s := if stopped then { s with savedLanes := s.savedLanes.map fun kv =>
    if kv.1 = h then (kv.1, { kv.2 with op := none }) else kv } else s
  let s := match x.lane with
    | some l => if stopped then s.modLane l fun k => { k with regs := { k.regs with
        op := k.regs.op.map fun o => { o with stopped := true } } } else s
    | none => s
  match x.slice with
  | some l => if stopped then s.modSlice l fun k => { k with regs := { k.regs with op := k.regs.op.map SliceOp.stop } } else s
  | none => s

/-- An errand ends with a status: the Steward owes its completion. -/
def State.endErrand (s : State) (e : Nat) (status : Nat) (result : Word) (detail : Nat) (done stopped : Bool) : State :=
  match s.errand? e with
  | none => s
  | some x =>
    let hand : Option Nat := match x.phase with
      | .placed h => some h
      | _ => none
    let path := match hand with
      | some h => s.corePath (coreOf h)
      | none => s.devicePath
    let s := s.setErrand e { x with
      phase := .ending hand, status := BitVec.ofNat 8 status, result := result,
      detail := BitVec.ofNat 32 detail, done := done, execPath := path }
    match hand with
    | some h => (s.releaseHand h stopped).settle
    | none => s

/-- The devices an errand was forwarded to hear that it is stopped (R532). -/
def State.recall (s : State) (e : Nat) (x : Errand) : State :=
  let ports := match x.phase with
    | .forwarded port _ => [port]
    | _ => x.awaits.map s.portTo
  ports.foldl (fun t p => t.sendControl p [3, e % 65536] []) s

/-- The Steward stops an errand: RESULT 0, no write-back (R280); of a forwarded one the master writes the
completion itself (R532). -/
def State.stopErrand (s : State) (e status detail : Nat) : State :=
  match s.errand? e with
  | some x => match x.phase with
    | .ending _ => s
    | _ => ((s.recall e x).modErrand e fun z => { z with awaits := [], loads := none, ckWait := none }).endErrand e status 0 detail
        false true
  | none => s

/-- Stop the errands on a core's Hands (R35). -/
def State.stopCoreErrands (s : State) (c status : Nat) : State :=
  (handsOf c).foldl (fun s h => match (s.hand h).errand with
    | some e => s.stopErrand e status 0
    | none => s) s

/-- A Hand's registers at core reset; what it still holds of an ending errand stays until it is freed. -/
def Hand.coreReset (x : Hand) : Hand :=
  { x with
    regs := [], pc := 0, st := 0, faa := 0, faaWs := false, eraC := 0, estC := 0, scrC := 0, eraW := 0,
    estW := 0, scrW := 0, rsC := {}, rsW := {}, resv := none, delay := none, imp := none, causeC := {},
    causeW := {}, gc := false, gw := false, htCount := 0, htReload := 0, htExpired := false,
    htInten := false, htRun := false, timerEvents := 0, laneEv := none, sliceEv := none, grantEv := none,
    evHandback := false, evDeadline := false, boot := false, housekeeping := false, halted := false,
    stepOne := false,
    state := match x.state with
      | .releasing => .releasing
      | _ => .free }

/-- Sources a block holds pending by level: STEWARD while internal completions wait (R297). -/
def State.heldSources (s : State) : BitVec 32 := if s.steward.icpl.isEmpty then 0 else 1#32 <<< 27

/-- Reset one core: its Hands, its core-local window and its core ACU; I-RAM is kept (R689), and a source held
pending by level is pending again (R297; log 116). -/
def State.resetCore (s : State) (c : Nat) : State :=
  let s := (handsOf c).foldl (fun s h => s.modHand h Hand.coreReset) s
  s.modCore c fun k => { k with
    vecC := 0, vecW := 0, deleg := 0, icPend := s.heldSources, icRoute := [], acu := {}, wdCount := 0, lastHand := 0 }

/-- Waiting errands that no core in service can take any more complete with HOLDING_ABSENT (R36, R45). -/
def State.strandErrands (s : State) : State :=
  s.steward.errands.foldl (fun t kv =>
    if decide (kv.2.phase = .waiting) && !t.targetPresent (descTarget kv.2.raw) then
      t.endErrand kv.1 0xE0 0 (t.absentDetail (descTarget kv.2.raw)) false false
    else t) s

/-- A core goes out of service: its errands complete with CORE_RESET, it alone is reset, and errands that
waited for it complete (R35, R36, R296). -/
def State.takeCoreOut (s : State) (c : Nat) : State :=
  let s := s.stopCoreErrands c 0x0A
  (((s.resetCore c).modCore c fun k => { k with outOfService := true }).breakForCore c).strandErrands

/-- Source 27 on every core but one. -/
def State.stewardEventBut (s : State) (c : Nat) : State :=
  ({ s with cores := (List.range 128).map fun d =>
      (d, if d = c then s.core d else { s.core d with icPend := (s.core d).icPend ||| (1#32 <<< 27) }) }).settle

end Sys2Proof.Machine
end

