-- ==== Sys2Proof/Machine/Operands.lean ====
section
/-!
DEFINITION. Sys2Proof/Machine/Operands.lean: the operand forms of Ramua instructions, the words
that spell them (R109 to R111), and which words are assigned.
-/
namespace Sys2Proof.Machine

/-- `sext(imm18)`. -/
def sext18 (i : BitVec 18) : Word := i.signExtend 36
/-- `zext(imm18)`. -/
def zext18 (i : BitVec 18) : Word := i.zeroExtend 36

/-- The effective address of the memory group, the 36-bit sum (R62, R127). -/
def effAddr (b : Word) (imm : BitVec 18) : Word := b + sext18 imm
/-- The effective IO address, the 36-bit sum (IO access). -/
def effIo (b : Word) (io : BitVec 18) : Word := b + zext18 io

/-- A W-format word. -/
def encW (op : Nat) (a b c : BitVec 5) (fn : Nat) : Word :=
  wd (op * 2 ^ 28 + a.toNat * 2 ^ 23 + b.toNat * 2 ^ 18 + c.toNat * 2 ^ 13 + fn)
/-- An I-format or X-format word. -/
def encI (op : Nat) (a b : BitVec 5) (imm : BitVec 18) : Word :=
  wd (op * 2 ^ 28 + a.toNat * 2 ^ 23 + b.toNat * 2 ^ 18 + imm.toNat)
/-- A J-format word. -/
def encJ (op : Nat) (a b : BitVec 5) (target : BitVec 16) : Word :=
  wd (op * 2 ^ 28 + a.toNat * 2 ^ 23 + b.toNat * 2 ^ 18 + target.toNat)

/-- The fields of a W-format word: a, b, c, fn. -/
def wordA (w : Word) : Nat := wfield w 27 23
def wordB (w : Word) : Nat := wfield w 22 18
def wordC (w : Word) : Nat := wfield w 17 13
def wordFn (w : Word) : Nat := wfield w 12 0

/-- The fields a SYS instruction's table marks 0 are 0 (SYS group table): flags say which are used. -/
def sysFieldsOk (w : Word) : Bool :=
  let a0 := wordA w == 0; let b0 := wordB w == 0; let c0 := wordC w == 0
  match wordFn w with
  | 6 => a0 && c0
  | 7 => a0 && c0
  | 8 => b0
  | 9 => a0
  | 10 => c0
  | 12 => c0
  | 13 => a0 && c0
  | _ => a0 && b0 && c0

/-- The word is one that the catalogue assigns to an instruction (R110, R111). -/
def assignedWord (w : Word) : Bool :=
  let op := wfield w 35 28
  match op with
  | 0 => decide (wordFn w ≤ 15) && sysFieldsOk w
  | 1 => decide (wordFn w ≤ 17) && (wordFn w ≠ 17 || wordC w == 0)
  | 2 => decide (wordFn w ≤ 7)
  | 3 => decide (wordFn w ≤ 5) && (decide (wordFn w ≤ 3) || wordC w == 0)
  | 4 => wordC w == 0
  | 5 => decide (wordFn w ≤ 4)
  | 13 => wordB w == 0
  | _ =>
    if 8 ≤ op ∧ op ≤ 19 then true
    else if 24 ≤ op ∧ op ≤ 28 then true
    else if op = 32 ∨ op = 33 then true
    else if op = 40 ∨ op = 41 then wordA w == 0 && wordB w == 0 && wfield w 17 16 == 0
    else if 42 ≤ op ∧ op ≤ 47 then wfield w 17 16 == 0
    else false

end Sys2Proof.Machine
end

