-- ==== Sys2Proof/Decode.lean ====
section
/-!
DEFINITION. Sys2Proof/Decode.lean: the instruction a 36-bit word of I-space is (R109 to R111), and the
command a word spells by the opcode table's bits: no row of the table gives bits, so there none does.
-/
namespace Sys2Proof.Machine

/-! ### Instruction words (R109, R111) -/

/-- Field a of a word, as a register. -/
def regA (w : Word) : Reg := BitVec.ofNat 5 (wordA w)
/-- Field b. -/
def regB (w : Word) : Reg := BitVec.ofNat 5 (wordB w)
/-- Field c. -/
def regC (w : Word) : Reg := BitVec.ofNat 5 (wordC w)
/-- imm18 or io18 of an I- or X-format word. -/
def wordImm (w : Word) : Imm18 := w.setWidth 18
/-- target of a J-format word. -/
def wordTarget (w : Word) : BitVec 16 := w.setWidth 16

/-- The SYS group by fn (R136). -/
def decodeSys (h : HandId) (w : Word) : Option Instr :=
  match wordFn w with
  | 0 => some (.nop h)
  | 1 => some (.mfence h)
  | 2 => some (.iofence h)
  | 3 => some (.pfence h)
  | 4 => some (.eret h)
  | 5 => some (.ret h)
  | 6 => some (.jr h (regB w))
  | 7 => some (.callr h (regB w))
  | 8 => some (.mfs h (regA w) (regC w))
  | 9 => some (.mts h (regB w) (regC w))
  | 10 => some (.done h (regA w) (regB w))
  | 11 => some (.yield h)
  | 12 => some (.wait h (regA w) (regB w))
  | 13 => some (.syscall h (regB w))
  | 14 => some (.brk h)
  | 15 => some (.pkclr h)
  | _ => none

/-- The ALU group by fn (R116). -/
def decodeAlu (h : HandId) (w : Word) : Option Instr :=
  match wordFn w with
  | 0 => some (.add h (regA w) (regB w) (regC w))
  | 1 => some (.addv h (regA w) (regB w) (regC w))
  | 2 => some (.sub h (regA w) (regB w) (regC w))
  | 3 => some (.subv h (regA w) (regB w) (regC w))
  | 4 => some (.adc h (regA w) (regB w) (regC w))
  | 5 => some (.sbc h (regA w) (regB w) (regC w))
  | 6 => some (.and h (regA w) (regB w) (regC w))
  | 7 => some (.or h (regA w) (regB w) (regC w))
  | 8 => some (.xor h (regA w) (regB w) (regC w))
  | 9 => some (.andn h (regA w) (regB w) (regC w))
  | 10 => some (.sll h (regA w) (regB w) (regC w))
  | 11 => some (.srl h (regA w) (regB w) (regC w))
  | 12 => some (.sra h (regA w) (regB w) (regC w))
  | 13 => some (.ror h (regA w) (regB w) (regC w))
  | 14 => some (.slt h (regA w) (regB w) (regC w))
  | 15 => some (.sltu h (regA w) (regB w) (regC w))
  | 16 => some (.seq h (regA w) (regB w) (regC w))
  | 17 => some (.clz h (regA w) (regB w))
  | _ => none

/-- The MULDIV group by fn (R119). -/
def decodeMulDiv (h : HandId) (w : Word) : Option Instr :=
  match wordFn w with
  | 0 => some (.mul h (regA w) (regB w) (regC w))
  | 1 => some (.mulh h (regA w) (regB w) (regC w))
  | 2 => some (.mulhu h (regA w) (regB w) (regC w))
  | 3 => some (.mulv h (regA w) (regB w) (regC w))
  | 4 => some (.div h (regA w) (regB w) (regC w))
  | 5 => some (.divu h (regA w) (regB w) (regC w))
  | 6 => some (.rem h (regA w) (regB w) (regC w))
  | 7 => some (.remu h (regA w) (regB w) (regC w))
  | _ => none

/-- The DEC group by fn (R122, R123). -/
def decodeDec (h : HandId) (w : Word) : Option Instr :=
  match wordFn w with
  | 0 => some (.dadd h (regA w) (regB w) (regC w))
  | 1 => some (.dsub h (regA w) (regB w) (regC w))
  | 2 => some (.dadc h (regA w) (regB w) (regC w))
  | 3 => some (.dsbc h (regA w) (regB w) (regC w))
  | 4 => some (.dcvtBd h (regA w) (regB w))
  | 5 => some (.dcvtDb h (regA w) (regB w))
  | _ => none

/-- The FIELD group: fn 12 is the operation, 11:6 POS, 5:0 the width minus one (R125). -/
def decodeField (h : HandId) (w : Word) : Instr :=
  let pos := BitVec.ofNat 6 (wfield w 11 6)
  let widthM1 := BitVec.ofNat 6 (wfield w 5 0)
  if w.getLsbD 12 then .ins h (regA w) (regB w) pos widthM1 else .ext h (regA w) (regB w) pos widthM1

/-- The BLOCK group by fn, its run carried out whole (R144). -/
def decodeBlock (h : HandId) (w : Word) : Option Instr :=
  match wordFn w with
  | 0 => some (.wmov h (regA w) (regB w) (regC w) none)
  | 1 => some (.wfill h (regA w) (regB w) (regC w) none)
  | 2 => some (.wsumCrc h (regA w) (regB w) (regC w) none)
  | 3 => some (.wsumAdd h (regA w) (regB w) (regC w) none)
  | 4 => some (.macn h (regA w) (regB w) (regC w) none)
  | _ => none

/-- A major opcode's instruction, fields that must be zero not yet looked at (Opcode map). -/
def decodeOpcode (h : HandId) (w : Word) : Option Instr :=
  match wfield w 35 28 with
  | 0o00 => decodeSys h w
  | 0o01 => decodeAlu h w
  | 0o02 => decodeMulDiv h w
  | 0o03 => decodeDec h w
  | 0o04 => some (decodeField h w)
  | 0o05 => decodeBlock h w
  | 0o10 => some (.addi h (regA w) (regB w) (wordImm w))
  | 0o11 => some (.addiv h (regA w) (regB w) (wordImm w))
  | 0o12 => some (.andi h (regA w) (regB w) (wordImm w))
  | 0o13 => some (.ori h (regA w) (regB w) (wordImm w))
  | 0o14 => some (.xori h (regA w) (regB w) (wordImm w))
  | 0o15 => some (.lui h (regA w) (wordImm w))
  | 0o16 => some (.slti h (regA w) (regB w) (wordImm w))
  | 0o17 => some (.sltiu h (regA w) (regB w) (wordImm w))
  | 0o20 => some (.slli h (regA w) (regB w) (wordImm w))
  | 0o21 => some (.srli h (regA w) (regB w) (wordImm w))
  | 0o22 => some (.srai h (regA w) (regB w) (wordImm w))
  | 0o23 => some (.rori h (regA w) (regB w) (wordImm w))
  | 0o30 => some (.ld h (regA w) (regB w) (wordImm w))
  | 0o31 => some (.st h (regA w) (regB w) (wordImm w))
  | 0o32 => some (.lwr h (regA w) (regB w) (wordImm w))
  | 0o33 => some (.swc h (regA w) (regB w) (wordImm w))
  | 0o34 => some (.ild h (regA w) (regB w) (wordImm w))
  | 0o40 => some (.inp h (regA w) (regB w) (wordImm w))
  | 0o41 => some (.out h (regA w) (regB w) (wordImm w))
  | 0o50 => some (.jmp h (wordTarget w))
  | 0o51 => some (.call h (wordTarget w))
  | 0o52 => some (.beq h (regA w) (regB w) (wordTarget w))
  | 0o53 => some (.bne h (regA w) (regB w) (wordTarget w))
  | 0o54 => some (.blt h (regA w) (regB w) (wordTarget w))
  | 0o55 => some (.bge h (regA w) (regB w) (wordTarget w))
  | 0o56 => some (.bltu h (regA w) (regB w) (wordTarget w))
  | 0o57 => some (.bgeu h (regA w) (regB w) (wordTarget w))
  | _ => none

/-- The instruction that a word of I-space is on a Hand: RESERVED_OPCODE where the word is not assigned
(R109 to R111). -/
def decodeWord (h : HandId) (w : Word) : Instr :=
  if assignedWord w then (decodeOpcode h w).getD (.reservedOpcode h w) else .reservedOpcode h w

end Sys2Proof.Machine

namespace Sys2Proof

/-- The command that a word spells by the table's bits: the table gives no row any bits. -/
def decodeTableWord (_nbits _w : Nat) : Option Instr := none

end Sys2Proof
end

