-- ==== Sys2Proof/Machine/LaneFields.lean ====
section
/-!
DEFINITION. Sys2Proof/Machine/LaneFields.lean: what an LN_GO word says (file 09): its fields, lengths, purposes of the
Lane modes table, and the time an operation takes.
-/
namespace Sys2Proof.Machine

/-! ### LN_GO fields -/

def goMode (w : Word) : Nat := wfield w 17 14
def goDec (w : Word) : Bool := w.getLsbD 13
def goPack (w : Word) : Nat := wfield w 12 11
/-- DST: 0 D-space, 1 and 2 host buffers, 3 none. -/
def goDst (w : Word) : Nat := wfield w 10 9
/-- SRCK: 0 D-space, 1 and 2 host buffers. -/
def goSrc (w : Word) : Nat := wfield w 8 7
def goWords (w : Word) : Nat := wfield w 6 0
def goNonce (w : Word) : Nat := wfield w 30 27
/-- TAGLEN, 0 meaning 16. -/
def goTag (w : Word) : Nat := if wfield w 34 31 = 0 then 16 else wfield w 34 31
def goAfcont (w : Word) : Bool := w.getLsbD 35

/-- LN_GO of a command row. -/
def goWord (g : LaneGo) (mode : Nat) (dec : Bool) : Word :=
  wd (b2n g.afcont * 2 ^ 35 + g.taglen.toNat * 2 ^ 31 + g.nonce.toNat * 2 ^ 27 + mode * 2 ^ 14 + b2n dec * 2 ^ 13
    + g.pack.toNat * 2 ^ 11 + g.dst.toNat * 2 ^ 9 + g.srck.toNat * 2 ^ 7 + g.words.toNat)

/-- Octets WORDS stands for (R360). -/
def goOctets (w : Word) : Nat :=
  match goPack w with
  | 0 => goWords w * 4
  | 1 => goWords w * 9 / 2
  | _ => goWords w * 8

/-- The payload length, none when R360 refuses (Payload from destination words table). -/
def goPayload (w : Word) (lnLen : Nat) : Option Nat :=
  let d := goOctets w
  if goWords w = 0 then some lnLen
  else if goPack w = 1 ∧ goWords w % 2 = 1 then none
  else if goSrc w = 0 then some d
  else if goDst w ≠ 0 then none
  else match goMode w, goDec w with
    | 3, false => if d < goTag w then none else some (d - goTag w)
    | 4, false => if d < goTag w then none else some (d - goTag w)
    | 5, _ => none
    | 7, false => if d < 8 then none else some (d - 8)
    | 7, true => some (d + 8)
    | 8, _ => none
    | _, _ => some d

/-- The length, TAGLEN and NONCE rules of the Lane modes table. -/
def goLengthOk (w : Word) (n : Nat) : Bool :=
  let t := goTag w
  match goMode w with
  | 0 => n % 16 == 0 && decide (16 ≤ n)
  | 1 => n % 16 == 0 && decide (16 ≤ n)
  | 2 => decide (1 ≤ n)
  | 3 => t == 4 || t == 8 || decide (12 ≤ t)
  | 4 => t % 2 == 0 && decide (4 ≤ t) && decide (7 ≤ goNonce w) && decide (goNonce w ≤ 13)
      && decide (n < 2 ^ (8 * (15 - goNonce w)))
  | 5 => decide (4 ≤ t)
  | 6 => decide (16 ≤ n)
  | 7 => n % 8 == 0 && (if goDec w then decide (24 ≤ n) && decide (n ≤ 4104) else decide (16 ≤ n) && decide (n ≤ 4096))
  | 8 => if goDec w then n % 8 == 0 && decide (16 ≤ n) && decide (n ≤ 4104) else decide (1 ≤ n) && decide (n ≤ 4096)
  | _ => false

/-- Fields, encodings and DST of the table (R381, check 2). -/
def goFieldsOk (w key : Word) : Bool :=
  wfield w 26 18 == 0 && decide (goMode w ≤ 8) && goPack w != 3 && goSrc w != 3
    && (goDst w == 3) == (goMode w == 5) && (goMode w == 4 || goNonce w == 0)
    && !(key.getLsbD 35 && wfield key 23 12 != 0)

/-- AAD octets that count (LN_AAD). -/
def goAad (w : Word) (aad : Nat) : Nat := if goMode w = 3 ∨ goMode w = 4 then aad else 0

/-- Octets read from the source: AAD, payload and tag (R377). -/
def goInput (w : Word) (n aad : Nat) : Nat :=
  goAad w aad + n + (if goDec w ∧ 3 ≤ goMode w ∧ goMode w ≤ 5 then goTag w else 0)

/-- Octets that may be written to the destination. -/
def goOutput (w : Word) (n : Nat) : Nat :=
  match goMode w, goDec w with
  | 3, false => n + goTag w
  | 4, false => n + goTag w
  | 5, _ => 0
  | 7, false => n + 8
  | 7, true => n - 8
  | 8, false => (n + 7) / 8 * 8 + 8
  | 8, true => n - 8
  | _, _ => n

/-- Plaintext held in the Release Buffer: GCM and CCM decryption and key unwrap (R373). -/
def goHeld (w : Word) (n : Nat) : Option Nat :=
  match goMode w, goDec w with
  | 3, true => some n
  | 4, true => some n
  | 7, true => some (n - 8)
  | 8, true => some (n - 8)
  | _, _ => none

/-! ### Lane time (R377, R379) -/

/-- Rounds of AES by LN_KEY's key octets, plus one: the L of the Lane rate table. -/
def laneL (key : List Byte) : Nat := if key.length = 16 then 11 else if key.length = 24 then 13 else 15

/-- Equivalent octets an input octet costs before any release pass (Lane rate table). -/
def goFactor (w : Word) (key : List Byte) : Nat :=
  match goMode w, goDec w with
  | 1, false => laneL key
  | 4, _ => laneL key
  | 5, _ => laneL key
  | 7, _ => 12 * laneL key
  | 8, _ => 12 * laneL key
  | _, _ => 1

/-- A 1 MiB boundary of equivalent octets lies within the operation; one inside the release pass counts as its end
(R379). -/
def LaneOp.boundaryInside (o : LaneOp) (keyHit : Bool) : Bool :=
  let n := goInput o.go o.len o.aad
  let head := 1024 + (if keyHit then 0 else 6400) + goFactor o.go o.key * n
  !o.keyDue && (if (goHeld o.go o.len).isSome then decide (2 ^ 20 ≤ head) else decide (2 ^ 20 < head))

end Sys2Proof.Machine
end

