-- ==== Sys2Proof/Machine/Flags.lean ====
section
/-!
DEFINITION. Sys2Proof/Machine/Flags.lean: carry, borrow, signed overflow, decimal digits, and the
two flags of ST that instructions write (R73, R116 to R124).
-/
namespace Sys2Proof.Machine

/-- ST.CY. -/
def cyOf (st : Word) : Bool := st.getLsbD 0
/-- ST with CY written. -/
def setCy (st : Word) (c : Bool) : Word := wsetBit st 0 c
/-- ST with BDI set when an invalid digit was read; it is sticky (R124). -/
def orBdi (st : Word) (bad : Bool) : Word := if bad then wsetBit st 1 true else st
/-- ST.PRECISE. -/
def preciseOf (st : Word) : Bool := st.getLsbD 32
/-- ST.IE. -/
def ieOf (st : Word) : Bool := st.getLsbD 33

/-- The sum and the carry out of bit 35. -/
def addCarry (x y : Word) (c : Bool) : Word × Bool :=
  let n := x.toNat + y.toNat + b2n c
  (wd n, decide (2 ^ 36 ≤ n))

/-- The difference and the borrow. -/
def subBorrow (x y : Word) (c : Bool) : Word × Bool :=
  (x - y - wd (b2n c), decide (x.toNat < y.toNat + b2n c))

/-- A number lies outside the signed range of a word. -/
def outOfRange (n : Int) : Bool := n < -(2 ^ 35) || 2 ^ 35 ≤ n

/-- Signed overflow of a sum, a difference and a product. -/
def addOverflows (x y : Word) : Bool := outOfRange (x.toInt + y.toInt)
def subOverflows (x y : Word) : Bool := outOfRange (x.toInt - y.toInt)
def mulOverflows (x y : Word) : Bool := outOfRange (x.toInt * y.toInt)

/-- A comparison's result word. -/
def boolWord (b : Bool) : Word := if b then 1 else 0

/-- Leading zero bits, 0 to 36. -/
def leadingZeros (w : Word) : Nat := 36 - (if w.toNat = 0 then 0 else Nat.log2 w.toNat + 1)

/-- `digit(x, k)`: an invalid code reads as 9. -/
def bcdDigit (x : Word) (k : Nat) : Nat := min 9 (wfield x (4 * k + 3) (4 * k))
/-- Digit k has an invalid code (R55). -/
def bcdBad (x : Word) (k : Nat) : Bool := decide (9 < wfield x (4 * k + 3) (4 * k))
/-- A BCD word holds an invalid digit. -/
def bcdInvalid (x : Word) : Bool := (List.range 9).any (bcdBad x)

/-- One digit of a decimal sum or difference: the digit and the carry (R122). -/
def bcdStep (sub : Bool) (x y : Nat) (carry : Bool) : Nat × Bool :=
  if sub then
    let t := y + b2n carry
    if x < t then (x + 10 - t, true) else (x - t, false)
  else
    let t := x + y + b2n carry
    (t % 10, decide (10 ≤ t))

/-- Decimal add or subtract over digits D0 to D8 (R122): the result and the carry out of D8. -/
def bcdArith (sub : Bool) (x y : Word) (carry : Bool) : Word × Bool :=
  let r := (List.range 9).foldl (fun (acc : Nat × Bool) k =>
    let d := bcdStep sub (bcdDigit x k) (bcdDigit y k) acc.2
    (acc.1 + d.1 * 2 ^ (4 * k), d.2)) (0, carry)
  (wd r.1, r.2)

/-- The nine-digit BCD form of a number below 10^9 (R123). -/
def toBcd (n : Nat) : Word := wd ((List.range 9).foldl (fun acc k => acc + n / 10 ^ k % 10 * 2 ^ (4 * k)) 0)
/-- The binary value of a BCD word, invalid digits reading as 9 (R123). -/
def fromBcd (x : Word) : Word := wd ((List.range 9).foldl (fun acc k => acc + bcdDigit x k * 10 ^ k) 0)

end Sys2Proof.Machine
end

