-- ==== Sys2Proof/Machine/Ops.lean ====
section
/-!
DEFINITION. Sys2Proof/Machine/Ops.lean: a Hand's view of D-space, taking an exception or interrupt
(R154 to R161), returning from one (R136, R169, R170), and issuing one instruction (R112 to R114,
R164 to R168, R174, R82 to R85).
-/
namespace Sys2Proof.Machine

/-! ### D-space (R61 to R64, R104, R105) -/

/-- What the region rules say of one D-space access. -/
inductive Region.Answer where
  | ok | reserved | fault
deriving DecidableEq, Repr

/-- First word of the Store Apertures and of the Errand Window (D-space map). -/
def apertureBase : Nat := 0x40000
def windowBase : Nat := 0x80000

/-- The region rules for one address (R31, R61, R63, R64, R248, R320). -/
def dRegion (x : Hand) (addr : Nat) (write : Bool) : Region.Answer :=
  if addr < 0x8000 then (if addr < x.wsSize then .ok else .fault)
  else if addr < 0x28000 then .ok
  else if addr < 0x40000 then .reserved
  else if addr < 0x50000 then
    match afind x.slots ((addr - apertureBase) / 1024) with
    | some a => if (addr - apertureBase) % 1024 < 896 && !(write && a.readOnly) then .ok else .fault
    | none => .fault
  else if addr < 0x80000 then .reserved
  else if addr < 0x90000 then
    let off := addr - windowBase
    if (write && off < 64) || 64 + x.argWords ≤ off then .fault else .ok
  else .reserved

/-- The physical place of a D-space word the region rules allow. -/
def State.place (s : State) (h addr : Nat) : Loc :=
  let x := s.hand h
  if addr < 0x8000 then .workspace (coreOf h) (x.wsBase + addr)
  else if addr < 0x28000 then .commons (hamletOf h) (addr - 0x8000)
  else if addr < 0x50000 then
    match afind x.slots ((addr - apertureBase) / 1024) with
    | some a => .frame a.page ((addr - apertureBase) % 1024)
    | none => .window h 0
  else .window h (addr - windowBase)

/-- The page a place needs resident, when it is not. -/
def State.missing (s : State) (l : Loc) : Option Nat :=
  match l with
  | .frame p _ => if (afind s.store.frames p).isSome then none else some p
  | _ => none

/-- The word at a place. -/
def State.readLoc (s : State) (l : Loc) : Word :=
  match l with
  | .workspace c i => aget 0 (s.core c).workspace i
  | .commons m i => aget 0 (s.hamlet m).commons i
  | .frame p i => match afind s.store.frames p with
    | some f => aget 0 f.words i
    | none => 0
  | .window h i => aget 0 (s.hand h).window i

/-- The word as a Hand itself sees it: its own newest store there, visible to others or not (R97). -/
def State.readFor (s : State) (h : Nat) (l : Loc) : Word :=
  match (s.hand h).posted.reverse.find? fun p => p.1 == l with
  | some p => p.2
  | none => s.readLoc l

/-- A store by a Hand: older stores of its own to the place come first; in an ORDERED region it is
visible at once, in a RELAXED one a free choice decides whether it waits (R95, R97 to R99; log 88). -/
def State.storeBy (s : State) (h : Nat) (l : Loc) (v : Word) (relaxed : Bool) : State :=
  if relaxed then
    let f := s.freeValue
    if f.1 % 2 = 1 then f.2.modHand h fun x => { x with posted := x.posted ++ [(l, v)] }
    else (f.2.land h fun r => r.1 == l).storeLoc l v (some h)
  else (s.land h fun r => r.1 == l).storeLoc l v (some h)

/-! ### Page misses (R129, R279, R734) -/

/-- The Verb index of a descriptor, octet 06h. -/
def descVerb (raw : List Byte) : Nat := (raw.getD 6 0).toNat

/-- The declaration of the Verb a Hand runs. -/
def State.verbOf (s : State) (h : Nat) : Option VerbDecl :=
  match s.errandOf h, s.almanacOf h with
  | some (_, x), some a => a.verbs[descVerb x.raw]?
  | _, _ => none

/-- The first in the order of R265 of some errands, by their standing now. -/
def State.firstAsker (s : State) (es : List Nat) : Option (Nat × Errand) :=
  (es.filterMap fun e => (s.errand? e).map fun x => (e, x)).foldl (fun b kv => match b with
    | none => some kv
    | some k => if keyBefore (s.errandKey kv.1 kv.2) (s.errandKey k.1 k.2) then some kv else some k) none

/-- The order of R265 among page-in requests, as their askers stand now: a wake's pinned pages first, then
contracted requests by deadline, then the others by arrival, ties to the lower device tag (R265, R289, R323,
R734). A request no errand asks for any more, or the Steward's own, comes before the best-effort ones (log 25). -/
def State.pageKey (s : State) (q : PageIn) : Nat × Nat × Nat :=
  if q.wake then (0, 0, 0)
  else match s.firstAsker q.askers with
    | some (e, x) => let k := s.errandKey e x; (k.1 + 1, k.2.1, k.2.2)
    | none => (2, 0, 4096)

/-- A page-in request of a contracted errand (R265, R289). -/
def State.pageContracted (s : State) (q : PageIn) : Bool :=
  q.askers.any fun e => ((s.errand? e).bind s.deadlineOf).isSome

/-- What an asker puts into the queue: its errand's standing, and whether its miss was counted. -/
def pageRequest (page : Nat) (forPin : Bool) (e : Option Nat) (opener : Option Bool) : PageIn :=
  { page := page, forPin := forPin, opener := opener, askers := e.toList
    counted := if forPin then [] else e.toList }

/-- A second request for a page: its askers too, the first opener's world, each miss once. -/
def PageIn.join (q r : PageIn) : PageIn :=
  { q with
    forPin := q.forPin || r.forPin
    wake := q.wake || r.wake
    askers := q.askers ++ r.askers.filter fun e => !q.askers.contains e
    opener := q.opener.or r.opener
    counted := q.counted ++ r.counted.filter fun e => !q.counted.contains e }

/-- Put a page-in request in the Granary's queue, or join the one there (R34, R265, R734). -/
def State.askPage (s : State) (page : Nat) (forPin : Bool) (e : Option Nat) (opener : Option Bool) : State :=
  let r := pageRequest page forPin e opener
  let joined := s.store.queue.map fun q => if q.page == page then q.join r else q
  let asked := s.store.queue.any fun q => q.page == page
  s.modStore fun t => { t with queue := if asked then joined else t.queue ++ [r] }

/-- Count one page miss of the Hand's errand; false when it would pass STORE_MISSES, and then the
errand is stopped with OVERRUN (R279). -/
def State.countMiss (s : State) (h : Nat) : Bool × State :=
  match s.errandOf h, s.verbOf h with
  | some (e, x), some d =>
    if d.storeMisses ≤ x.misses then (false, s.stopErrand e 0x20 4)
    else (true, s.setErrand e { x with misses := x.misses + 1 })
  | _, _ => (true, s)

/-- The errand has counted a miss for the page-in of a page that is queued or under way. -/
def State.missCounted (s : State) (page e : Nat) : Bool :=
  s.store.queue.any fun q => q.page == page && q.counted.contains e

/-- Count a Hand's miss on a page once for each page-in it starts or joins; false when the errand has
no miss left and is stopped (R279; log 25). -/
def State.missOn (s : State) (h page : Nat) : Bool × State :=
  match (s.hand h).errand with
  | none => (true, s)
  | some e => if s.missCounted page e then (true, s) else s.countMiss h

/-- An Aperture access to a non-resident page: the Hand blocks; the miss counts unless its errand
counted one when it started or joined this page-in (R129, R279; log 25). -/
def State.blockOnPage (s : State) (h page : Nat) : State :=
  match s.missOn h page with
  | (true, t) => ((t.askPage page false (t.hand h).errand (some ((t.hand h).st.getLsbD 35))).modHand h fun x =>
      { x with state := .blocked (.pageIn page) }).settle
  | (false, t) => t

/-! ### Exceptions and interrupts -/

/-- The load in its delay slot takes effect (R82, R83). -/
def Hand.commitDelay (x : Hand) : Hand :=
  match x.delay with
  | some (r, v) => { x.setReg r v with delay := none }
  | none => x

/-- The exception or interrupt goes to WS (Delivery table). Causes of 40q and above are interrupts. -/
def State.goesToWs (s : State) (h cause : Nat) : Bool :=
  let x := s.hand h
  if 32 ≤ cause then (if cause < 36 then !s.timerToCs h else true)
  else x.st.getLsbD 35 || (cause == 12) || (cause == 13) || (s.core (coreOf h)).deleg.getLsbD cause

/-- ST as entry leaves it: the destination's world, supervisor level, IE 0 (R155, R156). -/
def entrySt (st : Word) (toWs : Bool) : Word := wsetBit (wsetBit (wsetBit st 35 toWs) 34 true) 33 false

/-- Entry stopped at the WS guard: the errand ends with HAND_FAULT, or the housekeeping core is
taken out of service (R159; log 111: a Hand that runs the boot ROM is taken as housekeeping). -/
def State.handFault (s : State) (h cause : Nat) : State :=
  let s := s.modHand h fun x => { x with causeW := { x.causeW with orig := BitVec.ofNat 6 cause } }
  match (s.hand h).errand with
  | some e => (s.stopErrand e 0x09 cause).recordHand 0x09 cause h
  | none =>
    let c := coreOf h
    ((s.takeCoreOut c).stewardEventBut c).recordHand 0x09 cause h

/-- A branch or an exception of a traced Hand enters its trace: from and to (TRACE; log 47). -/
def State.traceTo (s : State) (h : Nat) (from_ to_ : BitVec 16) : State :=
  match afind s.life.traces h with
  | some l => s.modLife fun k => { k with traces := aput k.traces h (l ++ [wd (from_.toNat * 2 ^ 16 + to_.toNat)]) }
  | none => s

/-- Taking an exception or an interrupt (R155): the return address, whether it is an imprecise
arithmetic exception, and the fault value, which an interrupt leaves unchanged. -/
def State.takeException (s : State) (h cause0 : Nat) (era : BitVec 16) (imprecise : Bool) (faa : Word) : State :=
  let s := s.modHand h Hand.commitDelay
  let x := s.hand h
  let k := s.core (coreOf h)
  let nest := !s.goesToWs h cause0 && x.gc
  let toWs := s.goesToWs h cause0 || x.gc
  let cause := if nest then 13 else cause0
  let orig := if nest then cause0 else 0
  if toWs && x.gw then s.handFault h cause
  else
    let est := wsetBit x.st 30 imprecise
    let reg : CauseReg := { orig := BitVec.ofNat 6 orig, code := BitVec.ofNat 6 cause }
    let interrupt := decide (32 ≤ cause0)
    let x := { x with
      st := entrySt x.st toWs
      pc := if toWs then k.vecW else k.vecC
      faa := if interrupt then x.faa else faa
      faaWs := if interrupt then x.faaWs else toWs
      resv := none }
    let x := if toWs then { x with eraW := era, estW := est, causeW := reg, gw := true, irqDepth := x.nestIrq interrupt }
      else { x with eraC := era, estC := est, causeC := reg, gc := true }
    ((s.setHand h x).traceTo h era x.pc).settle

/-- Take the pending imprecise exception (R166, R168). -/
def State.takeImprecise (s : State) (h : Nat) : State :=
  let x := s.hand h
  match x.imp with
  | some i => (s.setHand h { x with imp := none }).takeException h i.cause.toNat x.pc true (wd i.addr.toNat)
  | none => s

/-- An IN of DR_OUT that an interrupt abandons leaves no claim on a seed, unless a slice operation of the Hand draws
too (R180, R456). -/
def State.dropClaim (s : State) (h : Nat) : State :=
  let draws := match (s.hand h).slice with
    | some l => (s.slice l).regs.op.any fun o => o.randomDue != 0
    | none => false
  match (s.hand h).drbg with
  | some i => if (s.drbg i).waiting && !draws then s.modDrbg i fun d => { d with waiting := false } else s
  | none => s

/-- Take interrupt source n. -/
def State.takeInterrupt (s : State) (h n : Nat) : State :=
  (s.dropClaim h).takeException h (32 + n) (s.hand h).pc false 0

/-- The imprecise exception is due at this boundary (R165). -/
def State.impreciseDue (s : State) (h : Nat) : Bool :=
  match (s.hand h).imp with
  | some i => i.left == 0 || s.takeable h
  | none => false

/-- What the Hand takes at a boundary before an instruction (R174, items 1 to 3). -/
def State.boundary (s : State) (h : Nat) : Option State :=
  if s.impreciseDue h then some (s.takeImprecise h)
  else match s.wsTakeable h with
    | some n => some (s.takeInterrupt h n)
    | none => match s.csTakeable h with
      | some n => some (s.takeInterrupt h n)
      | none => none

/-! ### Issuing one instruction -/

/-- The Hand may fetch at an address (R56 to R58); the boot ROM runs outside the regions (log 26). -/
def State.fetchOk (s : State) (h : Nat) (pc : BitVec 16) : Bool :=
  let x := s.hand h
  x.boot || (s.core (coreOf h)).regions.any fun r =>
    decide (r.base ≤ pc.toNat) && decide (pc.toNat < r.base + r.size) &&
    match x.level, r.kind with
    | 3, _ => true
    | 1, .commonHandler => true
    | lv, .almanac i => match s.errandOf h with
      | some (_, e) => descAlmanac e.raw == i && (lv ≠ 1 || !s.errandWarden h)
      | none => false
    | _, _ => false

/-- What an instruction does at its boundary. -/
inductive Act where
  /-- it completes: an immediate and a delayed register write, the next PC, and what follows. -/
  | ok (s : State) (dst load : Option (BitVec 5 × Word)) (pc : BitVec 16) (post : State → State)
  /-- it completes with its imprecise result and pends an arithmetic exception (R165). -/
  | imprecise (s : State) (dst : Option (BitVec 5 × Word)) (cause : Nat)
  /-- it raises: cause, FAA, and whether ERA is the next instruction (SYSCALL). -/
  | raise (s : State) (cause : Nat) (faa : Word) (next : Bool)
  /-- it would block for a page-in. -/
  | page (s : State) (p : Nat)
  /-- it does not complete: the Hand stalls or blocks with its PC unchanged. -/
  | hold (s : State)

/-- Complete an instruction: the load delay (R82, R85), the register writes, the PC, the imprecise
count (R165), the core watchdog (R296) and a debug step. -/
def Hand.retire (x : Hand) (dst load : Option (BitVec 5 × Word)) (pc : BitVec 16) : Hand :=
  let written (r : BitVec 5) : Bool := decide (dst.map (·.1) = some r) || decide (load.map (·.1) = some r)
  let x := match x.delay with
    | some (r, v) => if written r then x else x.setReg r v
    | none => x
  let x := match dst with
    | some (r, v) => x.setReg r v
    | none => x
  { x with
    delay := load
    pc := pc
    imp := x.imp.map fun i => { i with left := i.left - 1 }
    halted := x.halted || x.stepOne
    stepOne := false }

/-- The state after an instruction of a Hand completes. -/
def State.retire (s : State) (h : Nat) (dst load : Option (BitVec 5 × Word)) (pc : BitVec 16) : State :=
  let old := (s.hand h).pc
  let s := (s.modHand h fun x => x.retire dst load pc).modCore (coreOf h) fun k => { k with wdCount := 0 }
  if pc = old + 1 then s else s.traceTo h old pc

/-- Pend an arithmetic exception; only the first of several is kept (R167). -/
def State.pendImprecise (s : State) (h cause : Nat) (addr : BitVec 16) : State :=
  s.modHand h fun x => match x.imp with
    | some _ => x
    | none => { x with imp := some { cause := BitVec.ofNat 6 cause, addr := addr, left := 8 } }

/-- Carry out what an instruction of Hand h answered; `imp` says that an imprecise exception is pending. -/
def State.perform (s : State) (h : Nat) (act : Act) : Res :=
  let x := s.hand h
  let pending := x.imp.isSome
  match act with
  | .ok t dst load pc post => .next (post (t.retire h dst load pc))
  | .imprecise t dst cause => .next ((t.retire h dst none (x.pc + 1)).pendImprecise h cause x.pc)
  | .raise t cause faa next =>
    if pending then .next (s.takeImprecise h)
    else .next (t.takeException h cause (if next then x.pc + 1 else x.pc) false faa)
  | .page t p => if pending then .next (s.takeImprecise h) else .next (t.blockOnPage h p)
  | .hold t => .next t

/-- Present one instruction to a Hand. It issues only in Run, while the Hand is RUNNING and not halted (R553, R592);
at its boundary an imprecise exception or a takeable interrupt comes first (R174), then the fetch rules;
`drain` marks the instructions before which a pending imprecise exception is taken (R165). -/
def issueOn (h : Nat) (drain : Bool) (body : State → Hand → Act) (s : State) : Res :=
  let x := s.hand h
  if decide (s.power.state ≠ .run) || decide (x.state ≠ .running) || (s.frozen h && !s.thawed h) then s.same
  else match s.boundary h with
    | some t => .next t
    | none =>
      if !s.fetchOk h x.pc then s.perform h (.raise s 1 (wd x.pc.toNat) false)
      else if drain && x.imp.isSome then .next (s.takeImprecise h)
      else s.perform h (body s x)

/-- Completes with a register write. -/
def Act.set (s : State) (x : Hand) (r : BitVec 5) (v : Word) : Act := .ok s (some (r, v)) none (x.pc + 1) id
/-- Completes with nothing but the PC's advance. -/
def Act.step (s : State) (x : Hand) : Act := .ok s none none (x.pc + 1) id
/-- Completes with a delayed register write (R82). -/
def Act.delayed (s : State) (x : Hand) (r : BitVec 5) (v : Word) : Act := .ok s none (some (r, v)) (x.pc + 1) id
/-- Completes at another PC. -/
def Act.goto (s : State) (pc : BitVec 16) : Act := .ok s none none pc id
/-- Completes with a register write and a new ST. -/
def Act.setSt (s : State) (h : Nat) (x : Hand) (r : BitVec 5) (v st : Word) : Act :=
  .ok (s.setHand h { x with st := st }) (some (r, v)) none (x.pc + 1) id

/-- Raises ILLEGAL_INSTR with the instruction word (Cause codes table). -/
def Act.illegal (s : State) (word : Word) : Act := .raise s 2 word false
/-- Raises PRIVILEGE with the instruction word. -/
def Act.privilege (s : State) (word : Word) : Act := .raise s 3 word false

/-! ### ERET -/

/-- ERET at a supervisor level: PC and ST come back and the guard clears (R75, R160, R169). -/
def Hand.eret (x : Hand) : Hand :=
  if x.st.getLsbD 35 then { x with st := wsetBit x.estW 30 false, gw := false, irqDepth := x.unnestIrq }
  else { x with st := wsetBit x.estC 30 false, gc := false }

/-- The ERET operation (System group): PRIV_FORGE at user level or for a forged world, else the return. -/
def eretAct (h : Nat) (s : State) (x : Hand) : Act :=
  let warden := x.st.getLsbD 35
  if !x.st.getLsbD 34 then .raise s 12 (if warden then x.estW else x.estC) false
  else if !warden && x.estC.getLsbD 35 then .raise s 12 x.estC false
  else .ok (s.setHand h x.eret) none none (if warden then x.eraW else x.eraC) State.settle

end Sys2Proof.Machine
end

