-- ==== Sys2Proof/Machine/Memory.lean ====
section
/-!
DEFINITION. Sys2Proof/Machine/Memory.lean: loads, stores and reservations (R127 to R129, R104 to
R108) and ILD.
-/
namespace Sys2Proof.Machine

/-- A Hand as an ACU sees it. -/
def handAccessor (h : Nat) (x : Hand) : Accessor := { mkind := 0, master := h, level := x.level }

/-- The core ACU's deciding rule, or DEFAULT, gives the word the RELAXED behaviour: ORDER is 0 (R98, R478). -/
def AcuView.relaxed (v : AcuView) (a : Accessor) (p : Probe) : Bool := !(v.core.decide .core a p).2.getLsbD 13

/-- One checked D-space access: R62, the region rules, the core and Hamlet ACUs, then residency
(R112, R127, R472, R129); the access learns the ordering of its word (R478), and stores that wait may
become visible before it (R98). -/
def dAccess (h : Nat) (ea : Word) (write : Bool) (k : Bool → Loc → State → Act) (s : State) (x : Hand) : Act :=
  let addr := ea.toNat
  if 2 ^ 24 ≤ addr then .raise s 4 ea false
  else match dRegion x addr write with
    | .reserved => .raise s 4 ea false
    | .fault => .raise s 5 ea false
    | .ok =>
      let v := s.acuView h
      let p : Probe := { addr := addr, start := addr, write := write }
      match v.2.acuCheck v.1 h (handAccessor h x) p with
      | (false, t) => .raise t 5 ea false
      | (true, t) =>
        let t := t.stir h
        let l := t.place h addr
        match t.missing l with
        | some page => .page t page
        | none => k (v.1.relaxed (handAccessor h x) p) l t

/-- LD (R127, R82). -/
def execLd (h : HandId) (a b : Reg) (imm : Imm18) (s : State) : Res :=
  issueOn h false (fun s x => dAccess h (effAddr (x.reg b) imm) false
    (fun _ l t => .delayed t x a (t.readFor h l)) s x) s

/-- ST (R98, R99, R127). -/
def execSt (h : HandId) (a b : Reg) (imm : Imm18) (s : State) : Res :=
  issueOn h false (fun s x => dAccess h (effAddr (x.reg b) imm) true
    (fun relaxed l t => .step (t.storeBy h l (x.reg a) relaxed) x) s x) s

/-- LWR sets the reservation on its own address (R104, R127). -/
def execLwr (h : HandId) (a b : Reg) (imm : Imm18) (s : State) : Res :=
  issueOn h false (fun s x => dAccess h (effAddr (x.reg b) imm) false
    (fun _ l t => .delayed (t.modHand h fun y => { y with
      resv := some { ea := (effAddr (x.reg b) imm).toNat, loc := l } }) x a (t.readFor h l)) s x) s

/-- SWC stores only under a reservation on its own address, which is gone afterwards (R106, R128). -/
def execSwc (h : HandId) (a b : Reg) (imm : Imm18) (s : State) : Res :=
  issueOn h true (fun s x => dAccess h (effAddr (x.reg b) imm) true
    (fun _ l t =>
      let held := decide (x.resv.map Reservation.ea = some (effAddr (x.reg b) imm).toNat)
      let t := t.modHand h fun y => { y with resv := none }
      if held then .set (t.storeBy h l (x.reg a) false) x a 1 else .set t x a 0) s x) s

/-- ILD: WS only, one I-space word, no load delay (R60, R127). -/
def execIld (h : HandId) (a b : Reg) (imm : Imm18) (s : State) : Res :=
  issueOn h false (fun s x =>
    let ea := effAddr (x.reg b) imm
    if x.level ≠ 3 then .privilege s (encI 28 a b imm)
    else if 2 ^ 16 ≤ ea.toNat then .raise s 4 ea false
    else .set s x a (aget 0 (s.core (coreOf h)).iram ea.toNat)) s

end Sys2Proof.Machine
end

