-- ==== Sys2Proof/Machine/Block.lean ====
section
/-!
DEFINITION. Sys2Proof/Machine/Block.lean: the block instructions over D-space (R144 to R149, R78
to R81, R727).
-/
namespace Sys2Proof.Machine

/-- The address of word i of a run whose pointer is a register: the register advances by one a word, and w0 reads
zero for every word, so a run goes on alike when it is cut and executed again (R69, R78, R79; log 89). -/
def Hand.runAddr (x : Hand) (r : BitVec 5) (i : Nat) : Word := if r = 0 then 0 else x.reg r + wd i

/-- A word of a block run: its address and direction, with the run's start (R145, R479). -/
def Hand.runProbe (x : Hand) (r : BitVec 5) (write : Bool) (i : Nat) : Word × Probe :=
  (x.runAddr r i, { addr := (x.runAddr r i).toNat, start := (x.reg r).toNat, write := write })

/-- Check the words of a run in order: region rules, then the core ACU, the first failing word raising
its own exception (R145, R65). -/
def coreProbes (v : AcuView) (h : Nat) (x : Hand) : List (Word × Probe) → State → Option (State × Nat × Word)
  | [], _ => none
  | (ea, p) :: ps, s =>
    if 2 ^ 24 ≤ p.addr then some (s, 4, ea)
    else match dRegion x p.addr p.write with
      | .reserved => some (s, 4, ea)
      | .fault => some (s, 5, ea)
      | .ok => match s.coreCheck v h (handAccessor h x) p with
        | (false, t) => some (t, 5, ea)
        | (true, _) => coreProbes v h x ps s

/-- The Hamlet ACU's check of a run, which sees it once the core ACU has allowed all of it (R472, R479). -/
def hamletProbes (v : AcuView) (h : Nat) (x : Hand) (ps : List (Word × Probe)) (s : State) : Option (State × Nat × Word) :=
  ps.findSome? fun p => match s.hamletCheck v h (handAccessor h x) p.2 with
    | (false, t) => some (t, 5, p.1)
    | (true, _) => none

/-- The check of a whole run (R145, R472, R479; log 114). -/
def checkProbes (v : AcuView) (h : Nat) (x : Hand) (ps : List (Word × Probe)) (s : State) : Option (State × Nat × Word) :=
  (coreProbes v h x ps s).or (hamletProbes v h x ps s)

/-- The run's words in check order: for each word the source, then the destination (R145). Longer
runs than the largest region fail within it, so the list is cut there. -/
def Hand.runList (x : Hand) (n : Nat) (srcs dsts : List (BitVec 5)) : List (Word × Probe) :=
  (List.range (min n 0x28001)).flatMap fun i =>
    srcs.map (fun r => x.runProbe r false i) ++ dsts.map fun r => x.runProbe r true i

/-- Progress of a block instruction: the state, its registers and whether a page is missing. -/
structure BlockRun where
  s : State
  a : Word
  b : Word
  c : Word
  page : Option Nat
  /-- words done. -/
  moved : Nat

/-- One word's places for an address. -/
def placeOrMiss (s : State) (h : Nat) (ea : Word) : Except Nat Loc :=
  let l := s.place h ea.toNat
  match s.missing l with
  | some p => .error p
  | none => .ok l

/-- What a register holds once a block instruction has written it: w0 reads zero (R69). -/
def kept (r : BitVec 5) (v : Word) : Word := if r = 0 then 0 else v

/-- Run words until the count is done or a page is missing; `word` moves one word and gives the new
a, b and state. -/
def runWords (ra rb : BitVec 5) (word : State → Word → Word → Nat → Except Nat (State × Word × Word)) :
    Nat → BlockRun → BlockRun
  | 0, r => r
  | fuel + 1, r =>
    match word r.s r.a r.b r.moved with
    | .error p => { r with page := some p }
    | .ok (s, a, b) => runWords ra rb word fuel
      { s := s, a := kept ra a, b := kept rb b, c := r.c - 1, page := none, moved := r.moved + 1 }

/-- The registers after a block run: those it names hold the progress, a load in flight takes effect
elsewhere (R78, R79, R85). -/
def Hand.blockRegs (x : Hand) (ra rb rc : BitVec 5) (bWritten : Bool) (r : BlockRun) : Hand :=
  if r.moved = 0 then x
  else
    let y := (x.commitDelay.setReg ra r.a).setReg rc r.c
    if bWritten then y.setReg rb r.b else y

/-- The words a command moves: the whole run, or up to the point where the Hand is to be interrupted
(R79, R114, R178; log 71). -/
def cutAt (cut : Option Nat) (n : Nat) : Nat :=
  match cut with
  | some k => min k n
  | none => n

/-- The end of a run within one command: a missing page, which a pending imprecise exception precedes
(R165); a cut, which leaves the instruction to be executed again with its progress in its registers
(R79); or the last word. -/
def blockEnd (h n : Nat) (r : BlockRun) (t : State) (x : Hand) : Act :=
  match r.page with
  | some p =>
    if r.moved = 0 then .page t p
    else if x.imp.isSome then .hold (t.takeImprecise h) else .hold (t.blockOnPage h p)
  | none => if r.moved < n then .hold t else .step t x

/-- A Hand's registers that a two-role instruction names, each with a free value (R11, R81; log 66). -/
def freeRegs (h : Nat) (rs : List (BitVec 5)) (s : State) : State :=
  rs.foldl (fun t r =>
    let f := t.freeValue
    f.2.modHand h fun y => y.setReg r (wd f.1)) s

/-- An instruction that names one register in two roles: a free number of the run's words is moved, all
of them checked, and the registers it names hold free values (R11, R81; log 66). -/
def twoRoles (h : Nat) (ra rb rc : BitVec 5) (n : Nat) (run : Nat → State → BlockRun) (s : State) (x : Hand) : Act :=
  let f := s.freeValue
  let r := run (f.1 % (n + 1)) f.2
  .step (freeRegs h [ra, rb, rc] (r.s.modHand h Hand.commitDelay)) x

/-- A block instruction: nothing at count 0 (R80); the whole-run check; the words; and when a page is
missing, the Hand blocks with its progress kept (R79, R129). -/
def blockAct (h : Nat) (ra rb rc : BitVec 5) (bWritten : Bool) (cut : Option Nat) (srcs dsts : List (BitVec 5))
    (word : AcuView → State → Word → Word → Nat → Except Nat (State × Word × Word)) (s : State) (x : Hand) : Act :=
  let n := (x.reg rc).toNat
  if n = 0 then .step s x
  else
    let v := s.acuView h
    match checkProbes v.1 h x (x.runList n srcs dsts) v.2 with
    | some (t, cause, ea) => .raise t cause ea false
    | none =>
      let run (k : Nat) (u : State) : BlockRun :=
        runWords ra rb (word v.1) k { s := u, a := x.reg ra, b := x.reg rb, c := x.reg rc, page := none, moved := 0 }
      if ra = rb || rb = rc || ra = rc then twoRoles h ra rb rc n run v.2 x
      else
        let r := run (cutAt cut n) (v.2.stir h)
        blockEnd h n r (r.s.modHand h fun y => y.blockRegs ra rb rc bWritten r) x

/-- A word a block instruction stores, as its own store of the Hand (R98, R145). -/
def blockStore (v : AcuView) (h : Nat) (x : Hand) (base ea : Word) (l : Loc) (w : Word) (s : State) : State :=
  s.storeBy h l w (v.relaxed (handAccessor h x) { addr := ea.toNat, start := base.toNat, write := true })

/-- The value WFILL stores: the first word reads the old b, later ones a loaded value (R727). -/
def Hand.fillValue (x : Hand) (rb : BitVec 5) (i : Nat) : Word :=
  if i = 0 then x.reg rb
  else match x.delay with
    | some (r, v) => if r = rb ∧ r ≠ 0 then v else x.reg rb
    | none => x.reg rb

/-- WMOV: an ascending word-by-word copy (R144, R146). -/
def execWmov (h : HandId) (a b c : Reg) (cut : Option Nat) (s : State) : Res :=
  issueOn h false (fun s x => blockAct h a b c true cut [b] [a]
    (fun v t pa pb _ => match placeOrMiss t h pb, placeOrMiss t h pa with
      | .ok lb, .ok la => .ok (blockStore v h x (x.reg a) pa la (t.readFor h lb) t, pa + 1, pb + 1)
      | .error p, _ => .error p
      | _, .error p => .error p) s x) s

/-- WFILL (R144, R727). -/
def execWfill (h : HandId) (a b c : Reg) (cut : Option Nat) (s : State) : Res :=
  issueOn h false (fun s x => blockAct h a b c false cut [] [a]
    (fun v t pa pb i => match placeOrMiss t h pa with
      | .ok la => .ok (blockStore v h x (x.reg a) pa la (x.fillValue b i) t, pa + 1, pb)
      | .error p => .error p) s x) s

/-- One word into the CRC accumulator (R144). -/
def crcWord (acc w : Word) : Word :=
  wd (crcUpdate (acc.setWidth 32) (beOctets 4 (w.toNat % 2 ^ 32))).toNat

/-- WSUM.CRC: a is the accumulator, b the source pointer (R144). -/
def execWsumCrc (h : HandId) (a b c : Reg) (cut : Option Nat) (s : State) : Res :=
  issueOn h false (fun s x => blockAct h a b c true cut [b] []
    (fun _ t acc pb _ => match placeOrMiss t h pb with
      | .ok lb => .ok (t, crcWord acc (t.readFor h lb), pb + 1)
      | .error p => .error p) s x) s

/-- WSUM.ADD (R144). -/
def execWsumAdd (h : HandId) (a b c : Reg) (cut : Option Nat) (s : State) : Res :=
  issueOn h false (fun s x => blockAct h a b c true cut [b] []
    (fun _ t acc pb _ => match placeOrMiss t h pb with
      | .ok lb => .ok (t, acc + t.readFor h lb, pb + 1)
      | .error p => .error p) s x) s

end Sys2Proof.Machine
end

