-- ==== Sys2Proof/Machine/System.lean ====
section
/-!
DEFINITION. Sys2Proof/Machine/System.lean: the SYS group but PKCLR (R136 to R142), special
registers (R70 to R75, R92), and reserved words (R110).
-/
namespace Sys2Proof.Machine

/-- NOP (R136). -/
def execNop (h : HandId) (s : State) : Res := issueOn h false (fun s x => .step s x) s

/-- MFENCE: every earlier store of the Hand becomes visible (R100). -/
def execMfence (h : HandId) (s : State) : Res := issueOn h true (fun s x => .step (s.drain h) x) s

/-- IOFENCE: every IN and OUT of this model is accepted in program order already (R101; log 27). -/
def execIofence (h : HandId) (s : State) : Res := issueOn h true (fun s x => .step s x) s

/-- A PFENCE of a Hand reaches the three ACUs it may have written (R480). -/
def State.fenceAcus (s : State) (h : Nat) : State :=
  let s := if (s.core (coreOf h)).acu.writers.isEmpty then s
    else s.modCore (coreOf h) fun c => { c with acu := c.acu.fence .core h }
  let s := if (s.hamlet (hamletOf h)).acu.writers.isEmpty then s
    else s.modHamlet (hamletOf h) fun m => { m with acu := m.acu.fence .hamlet h }
  if s.devAcu.writers.isEmpty then s else { s with devAcu := s.devAcu.fence .device h }

/-- PFENCE: supervisor levels only (R136, R480). -/
def execPfence (h : HandId) (s : State) : Res :=
  issueOn h true (fun s x =>
    if x.level % 2 = 0 then .privilege s (encW 0 0 0 0 3) else .step (s.fenceAcus h) x) s

/-- ERET (R136, R169, R170). -/
def execEret (h : HandId) (s : State) : Res := issueOn h true (eretAct h) s

/-- A special register's levels, 0 any, 1 CS and WS, 3 WS; none when unlisted (Special registers table). -/
def specialLevel (n : Nat) : Option Nat :=
  if n = 0 ∨ n = 1 then some 0
  else if n = 2 ∨ (8 ≤ n ∧ n ≤ 12) then some 1
  else if 16 ≤ n ∧ n ≤ 20 then some 3
  else none

/-- RSC as a word (RSC table). -/
def RetStack.control (r : RetStack) : Word := wd (r.top.toNat * 32 + r.depth)
/-- The entry at TOP in bits 15:0 (R92). -/
def RetStack.entryWord (r : RetStack) : Word := wd (aget 0 r.entries r.top.toNat).toNat

/-- What MFS reads (Special registers table, R72). -/
def readSpecial (x : Hand) (n : Nat) : Word :=
  match n with
  | 0 => wd x.pc.toNat
  | 1 => x.st
  | 2 => if x.level == 1 && x.faaWs then 0 else x.faa
  | 8 => wd x.eraC.toNat
  | 9 => x.estC
  | 10 => x.scrC
  | 11 => x.rsC.control
  | 12 => x.rsC.entryWord
  | 16 => wd x.eraW.toNat
  | 17 => x.estW
  | 18 => x.scrW
  | 19 => x.rsW.control
  | 20 => x.rsW.entryWord
  | _ => 0

/-- The ST fields a level may write: PRECISE, BDI and CY, and at CS and WS also IE and RSW (R74). -/
def stMask (level : Nat) : Word := if level % 2 = 1 then 0x380000003#36 else 0x100000003#36

/-- The fields EST holds: all but the reserved ones (R73; log 28). -/
def estMask : Word := 0xFC0000003#36

/-- A return stack with RSC or RSE written (R92). -/
def RetStack.setControl (r : RetStack) (v : Word) : RetStack :=
  { r with top := BitVec.ofNat 4 (wfield v 8 5), depth := wfield v 4 0 }
def RetStack.setEntry (r : RetStack) (v : Word) : RetStack :=
  { r with entries := aset 0 r.entries r.top.toNat (v.setWidth 16) }

/-- What MTS writes (R70, R74, R92). -/
def writeSpecial (x : Hand) (n : Nat) (v : Word) : Hand :=
  match n with
  | 1 => { x with st := wmask (stMask x.level) x.st v }
  | 8 => { x with eraC := v.setWidth 16 }
  | 9 => { x with estC := v &&& estMask }
  | 10 => { x with scrC := v }
  | 11 => { x with rsC := x.rsC.setControl v }
  | 12 => { x with rsC := x.rsC.setEntry v }
  | 16 => { x with eraW := v.setWidth 16 }
  | 17 => { x with estW := v &&& estMask }
  | 18 => { x with scrW := v }
  | 19 => { x with rsW := x.rsW.setControl v }
  | 20 => { x with rsW := x.rsW.setEntry v }
  | _ => x

/-- MFS (R71). -/
def execMfs (h : HandId) (a c : Reg) (s : State) : Res :=
  issueOn h false (fun s x =>
    match specialLevel c.toNat with
    | none => .illegal s (encW 0 a 0 c 8)
    | some lv => if levelOk lv x.level then .set s x a (readSpecial x c.toNat) else .privilege s (encW 0 a 0 c 8)) s

/-- What a write of RSC with a DEPTH above 16 stores: TOP as written, and as DEPTH a free value of those
the field allows (R11, R92; log 66). -/
def deepControl (free : Nat) (v : Word) : Word := wd (wfield v 8 5 * 32 + free % 17)

/-- MTS; a DEPTH above 16 is UNPREDICTABLE: a free one is stored (R71, R74, R92, R137; log 66). -/
def execMts (h : HandId) (b c : Reg) (s : State) : Res :=
  issueOn h true (fun s x =>
    let n := c.toNat
    match specialLevel n with
    | none => .illegal s (encW 0 0 b c 9)
    | some lv =>
      if n = 0 ∨ n = 2 then .illegal s (encW 0 0 b c 9)
      else if !levelOk lv x.level then .privilege s (encW 0 0 b c 9)
      else if (n = 11 ∨ n = 19) ∧ 16 < wfield (x.reg b) 4 0 then
        let f := s.freeValue
        .step (f.2.setHand h (writeSpecial x n (deepControl f.1 (x.reg b)))) x
      else .step (s.setHand h (writeSpecial x n (x.reg b))) x) s

/-- A status a Verb may report (R261). -/
def verbStatusOk (st : Nat) : Bool :=
  st == 0 || st == 4 || (0x18 ≤ st && st ≤ 0x1F) || (0x40 ≤ st && st ≤ 0xDF)

/-- DONE ends the errand with a status and a result; a Hand that runs no errand raises (R138, R261). -/
def execDone (h : HandId) (a b : Reg) (s : State) : Res :=
  issueOn h true (fun s x =>
    match x.errand with
    | none => .illegal s (encW 0 a b 0 10)
    | some e =>
      let st := (x.reg a).toNat % 256
      let r := x.reg b
      .ok s none none (x.pc + 1) fun t =>
        if verbStatusOk st then t.endErrand e st r 0 true false else t.endErrand e 0x0B r st true false) s

/-- YIELD: the Hand becomes READY, and the core chooses (R140). -/
def execYield (h : HandId) (s : State) : Res :=
  issueOn h true (fun s x =>
    .ok s none none (x.pc + 1) fun t => t.yieldHand h) s

/-- The selector WAIT reads (WAIT selectors table). -/
def waitSel (b : Word) : Option WaitSel :=
  match b.toNat with
  | 1 => some .lane
  | 2 => some .slice
  | 3 => some .grant
  | 4 => some .timer
  | 5 => some .steward
  | _ => none

/-- The TIMER event word (R183). -/
def Hand.timerWord (x : Hand) : Word := wd (2 ^ 35 + x.timerEvents.toNat)
/-- The STEWARD event word. -/
def Hand.stewardWord (x : Hand) : Word := wd (2 ^ 35 + 2 * b2n x.evHandback + b2n x.evDeadline)

/-- The latched event of a source (R141). -/
def Hand.latched (x : Hand) : WaitSel → Option Word
  | .lane => x.laneEv
  | .slice => x.sliceEv
  | .grant => x.grantEv
  | .timer => if x.timerEvents = 0 then none else some x.timerWord
  | .steward => if x.evHandback || x.evDeadline then some x.stewardWord else none

/-- Delivery clears the latch (R141, R183). -/
def Hand.deliver (x : Hand) : WaitSel → Hand
  | .lane => { x with laneEv := none }
  | .slice => { x with sliceEv := none }
  | .grant => { x with grantEv := none }
  | .timer => { x with timerEvents := 0 }
  | .steward => { x with evHandback := false, evDeadline := false }

/-- The lane or slice operation of a Hand still runs, on its unit or in its save area (R277). -/
def State.laneBusy (s : State) (h : Nat) : Bool :=
  match (s.hand h).lane with
  | some l => (s.lane l).regs.op.isSome
  | none => match afind s.savedLanes h with
    | some r => r.op.isSome
    | none => false
def State.sliceBusy (s : State) (h : Nat) : Bool :=
  match (s.hand h).slice with
  | some l => (s.slice l).regs.op.isSome
  | none => false

/-- The source has something outstanding; a Steward event always may come (R141, R183; log 29). -/
def State.outstanding (s : State) (h : Nat) : WaitSel → Bool
  | .lane => s.laneBusy h
  | .slice => s.sliceBusy h
  | .grant => (s.hand h).request.isSome
  | .timer => (s.hand h).htRun
  | .steward => true

/-- WAIT (R141). -/
def execWait (h : HandId) (a b : Reg) (s : State) : Res :=
  issueOn h true (fun s x =>
    match waitSel (x.reg b) with
    | none => .illegal s (encW 0 a b 0 12)
    | some w => match x.latched w with
      | some v => .set (s.setHand h (x.deliver w)) x a v
      | none =>
        if s.outstanding h w then
          .hold (s.modHand h fun y => { y with state := .blocked (.wait w a) }).settle
        else .set s x a 0) s

/-- An event reaches a Hand: one BLOCKED in WAIT on it takes the event word, completes the WAIT and
becomes READY; else the event stays latched (R141). -/
def State.eventTo (s : State) (h : Nat) (w : WaitSel) : State :=
  let x := s.hand h
  match x.state, x.latched w with
  | .blocked (.wait w' a), some v =>
    if w' = w then
      (((s.setHand h (x.deliver w)).retire h (some (a, v)) none (x.pc + 1)).modHand h fun y =>
        { y with state := .ready }).settle
    else s
  | _, _ => s

/-- SYSCALL: FAA takes b, ERA the next instruction (R136, R162). -/
def execSyscall (h : HandId) (b : Reg) (s : State) : Res :=
  issueOn h true (fun s x => .raise s 10 (x.reg b) true) s

/-- BRK halts under a debug session that may halt the Hand's world, else raises (R136, R162; log 30). -/
def execBrk (h : HandId) (s : State) : Res :=
  issueOn h true (fun s x =>
    if s.mayHalt (x.st.getLsbD 35) then
      .ok s none none (x.pc + 1) fun t => (t.modHand h fun y => { y with halted := true }).settle
    else .raise s 11 0 false) s

/-- A word the catalogue assigns to no instruction is an illegal instruction (R17, R110); a word it
does assign is no reserved word, and the command changes nothing. -/
def execReservedOpcode (h : HandId) (word : Word) (s : State) : Res :=
  if assignedWord word then s.same else issueOn h false (fun s _ => .illegal s word) s

end Sys2Proof.Machine
end

