-- ==== Sys2Proof/Machine/IoAccess.lean ====
section
/-!
DEFINITION. Sys2Proof/Machine/IoAccess.lean: a register access of a Hand arriving at its block: the
checks every IO-space access passes (R131, R185, R472, R474), shared by IN, OUT and the commands
that name one register access (log 31).
-/
namespace Sys2Proof.Machine

/-- What an IO access does once its checks pass. -/
inductive IoRes where
  /-- it completes: the value an IN reads, and the state. -/
  | done (v : Word) (s : State)
  /-- the block answers later: the Hand stalls (R132). -/
  | stall (s : State)
  /-- ACCESS_FAULT with a fault value (R67). -/
  | fault (s : State) (faa : Nat)
  /-- RESERVED_ADDR. -/
  | reserved (s : State)
  /-- the Hand blocks until it holds a unit again (R277). -/
  | block (s : State)

/-- The ACU and level checks of one access to a register the map defines. -/
def ioChecks (h addr : Nat) (write : Bool) (need : Nat) (k : State → IoRes) (s : State) : IoRes :=
  let x := s.hand h
  let v := s.acuView h
  match v.2.acuCheck v.1 h (handAccessor h x) { io := true, addr := addr, start := addr, write := write } with
  | (false, t) => .fault t addr
  | (true, t) => if levelOk need x.level then k t else .fault t addr

/-- The exception of a register access, behind a pending imprecise one, which is taken in its place
from the state before the access (R165, R168). -/
def accessFault (h addr cause : Nat) (s t : State) : State :=
  if (s.hand h).imp.isSome then s.takeImprecise h
  else t.takeException h cause (s.hand h).pc false (wd addr)

/-- What a register access of a RUNNING Hand in Run (R553) comes to at its instruction's boundary: an imprecise
exception or interrupt due there goes first, before an OUT any pending imprecise one (R165, R168, R174);
then it takes effect, or raises; the PC's advance belongs to the IN or OUT itself (log 31). -/
def accessOn (h addr : Nat) (write : Bool) (k : State → IoRes) (s : State) : Res :=
  if decide (s.power.state ≠ .run) || decide ((s.hand h).state ≠ .running) || (s.frozen h && !s.thawed h) then s.same
  else match s.boundary h with
    | some t => .next t
    | none =>
      if write && (s.hand h).imp.isSome then .next (s.takeImprecise h)
      else match k s with
        | .done _ t => .next t
        | .stall t => .next t
        | .fault t faa => .next (accessFault h faa 5 s t)
        | .reserved t => .next (accessFault h addr 4 s t)
        | .block t => .next t

/-- A command that is one register access of a RUNNING Hand. -/
def regAccess (h addr : Nat) (write : Bool) (need : Nat) (k : State → IoRes) (s : State) : Res :=
  accessOn h addr write (ioChecks h addr write need k) s

/-- A write access whose effect is a change of state. -/
def regWrite (h addr need : Nat) (f : State → State) (s : State) : Res :=
  regAccess h addr true need (fun t => .done 0 (f t)) s

end Sys2Proof.Machine
end

