-- ==== Sys2Proof/Machine/Traps.lean ====
section
/-!
DEFINITION. Sys2Proof/Machine/Traps.lean: interrupts, imprecise exceptions, Hand timers, and the
core-local registers' writes (file 04).
-/
namespace Sys2Proof.Machine

/-- The device is in Run, the Hand has its core, and no debug session holds it (R553). -/
def State.atBoundary (s : State) (h : Nat) : Bool :=
  decide (s.power.state = .run) && decide ((s.hand h).state = .running) && (!s.frozen h || s.thawed h)

/-- INTERRUPT: at its boundary the Hand takes what comes first (R174): a due imprecise exception,
then the lowest takeable source for WS, then for CS. -/
def execInterrupt (h : HandId) (s : State) : Res :=
  if s.atBoundary h then
    match s.boundary h with
    | some t => .next t
    | none => s.same
  else s.same

/-- IMPRECISE_EXCEPTION: a pending one that is due is taken (R165, R166). -/
def execImpreciseException (h : HandId) (s : State) : Res :=
  if s.atBoundary h && s.impreciseDue h then .next (s.takeImprecise h) else s.same

/-- A Hand timer reaches 0 (R182). -/
def Hand.timerExpire (x : Hand) : Hand :=
  { x with
    htExpired := true
    timerEvents := if x.timerEvents = 0xFFFF#16 then x.timerEvents else x.timerEvents + 1
    htCount := x.htReload
    htRun := decide (x.htReload ≠ 0) }

/-- The expiry reaches WAIT and the interrupt controller; of Hand 0 of the Reeve core with INTEN 1 it is a wake event
(R552). -/
def State.timerExpire (s : State) (h : Nat) : State :=
  let t := ((s.modHand h Hand.timerExpire).eventTo h .timer).settle
  if h = 0 ∧ (s.hand 0).htInten then t.owesWake else t

/-- HAND_TIMER_EXPIRY: HT_COUNT of a running timer reaches 0 (R182). -/
def execHandTimerExpiry (h : HandId) (s : State) : Res :=
  let x := s.hand h
  if x.htRun && decide (x.htCount ≠ 0) then .next (s.timerExpire h) else s.same

/-- Software interrupts 4 to 7 of the Hand's core (IC_SWI, R171). -/
def State.softInterrupt (s : State) (c : Nat) (set : BitVec 4) : State :=
  (s.modCore c fun k => { k with icPend := k.icPend ||| (set.zeroExtend 32 <<< 4) }).settle

/-- IC_SWI written at WS (Core-local window). -/
def execIcSwi (h : HandId) (set : BitVec 4) (s : State) : Res :=
  regWrite h 129 3 (fun t => t.softInterrupt (coreOf h) set) s


/-- A write of a core-local register below 000400q that the level allows (R184, R185). -/
def coreLocalWrite (h addr : Nat) (data : Word) (s : State) : State :=
  let c := coreOf h
  let x := s.hand h
  match addr with
  | 2 => s.setHand h { x with gc := data.getLsbD 0, gw := if x.level = 3 then data.getLsbD 1 else x.gw }
  | 8 => s.modCore c fun k => { k with vecC := data.setWidth 16 }
  | 9 => s.modCore c fun k => { k with vecW := data.setWidth 16 }
  | 10 => (s.modCore c fun k => { k with deleg := data &&& 0xF0FFE#36 }).settle
  | 64 => s.setHand h { x with htCount := data.setWidth 32 }
  | 65 => s.setHand h { x with htReload := data.setWidth 32 }
  | 66 => (s.setHand h { x with
      htExpired := x.htExpired && !data.getLsbD 2, htInten := data.getLsbD 1, htRun := data.getLsbD 0 }).settle
  | 128 => s.modCore c fun k => { k with
      icPend := (k.icPend &&& ~~~(data.setWidth 32 &&& 0xFFFFFFF0#32)) ||| s.heldSources }
  | 129 => s.softInterrupt c (data.setWidth 4)
  | _ =>
    if 164 ≤ addr ∧ addr < 192 then
      (s.modCore c fun k => { k with icRoute := aset 0 k.icRoute (addr - 160) (data &&& 7#36) }).settle
    else s

/-- A write of an ACU register, 000400q to 000777q (R476, R477, R481). -/
def acuRegWrite (h addr : Nat) (data : Word) (s : State) : State :=
  let c := coreOf h
  let m := hamletOf h
  if addr < 320 then s.modCore c fun k => { k with acu := k.acu.writeRule .core h (addr - 256) data }
  else if addr = 320 then s.modCore c fun k => { k with acu := k.acu.writeRule .core h 64 data }
  else if addr < 328 then s.modCore c fun k => { k with acu := k.acu.writeRecord (addr - 320) data }
  else if addr = 328 then s.modHamlet m fun k => { k with acu := k.acu.writeRule .hamlet h 64 data }
  else if addr < 336 then s.modHamlet m fun k => { k with acu := k.acu.writeRecord (addr - 328) data }
  else if addr = 336 then { s with devAcu := s.devAcu.writeRule .device h 64 data }
  else if addr < 344 then { s with devAcu := s.devAcu.writeRecord (addr - 336) data }
  else if addr < 448 then s.modHamlet m fun k => { k with acu := k.acu.writeRule .hamlet h (addr - 384) data }
  else { s with devAcu := s.devAcu.writeRule .device h (addr - 448) data }

/-- A write of any register of the core-local window. -/
def coreWindowWrite (h addr : Nat) (data : Word) (s : State) : State :=
  if addr < 256 then coreLocalWrite h addr data s else acuRegWrite h addr data s

/-- ACU_CTRL: a write of CA_CTRL, HA_CTRL or DA_CTRL at WS (R476, R477, R480). -/
def execAcuCtrl (h : HandId) (unit : AcuUnit) (data : Word) (s : State) : Res :=
  let addr := match unit with
    | .core => 320
    | .hamlet => 328
    | .device => 336
  regWrite h addr 3 (acuRegWrite h addr data) s

end Sys2Proof.Machine
end

