-- ==== Sys2Proof/Machine/FlashOps.lean ====
section
/-!
DEFINITION. Sys2Proof/Machine/FlashOps.lean: the flash controller (file 14) and the Parish Register's
window (file 19).
-/
namespace Sys2Proof.Machine

/-- The bank of a word address (Flash geometry). -/
def bankOf (a : Nat) : Bool := decide (0x800000 ≤ a)
/-- The bank of a sector. -/
def sectorBank (i : Nat) : Bool := decide (143 ≤ i)

def Flash.bank (f : Flash) (b : Bool) : FlashBank := if b then f.bank1 else f.bank0
def Flash.setBank (f : Flash) (b : Bool) (x : FlashBank) : Flash := if b then { f with bank1 := x } else { f with bank0 := x }

/-- Set a bank's DONE bit; with IEN, source 19 becomes pending when it goes from 0 to 1 (FL_CTRL). -/
def State.flashDone (s : State) (b : Bool) (status : Nat) : State :=
  let k := s.flash.bank b
  let t := s.modFlash fun f => f.setBank b { k with op := none, susp := false, done := true, status := BitVec.ofNat 8 status }
  if s.flash.ien && !k.done then t.interruptAll 19 else t

/-- A line of undefined content is found blank or not: its n-th reading (R12). -/
def lineShows (n l : Nat) : Bool := (List.range 16).any fun i => Config.flashWord n (16 * l + i) != erasedWord

/-- A line holds a cell that is not erased; in undefined content the n-th reading decides (R12, R493). -/
def Flash.lineUsed (f : Flash) (n a : Nat) : Bool :=
  if f.openAt (a / 16 * 16) then lineShows n (a / 16)
  else f.programmed.contains (a / 16)
    || (List.range 16).any fun i => aget erasedWord f.words (a / 16 * 16 + i) != erasedWord

/-- The check of R493 that refuses an operation, in order. -/
def State.flashRefusal (s : State) (op : Nat) : Option Nat :=
  let f := s.flash
  let sec := sectorOf f.addr
  if (f.bank (bankOf f.addr)).op.isSome || (!bankOf f.addr && !f.inner.isEmpty) then some 0xC2
  else if op = 1 ∧ f.addr % 16 ≠ 0 then some 0xC3
  else if !f.unprotected.contains sec || (2 ≤ sec && sec ≤ 15) then some 0xC1
  else if op = 2 ∧ s.startup.pfw then some 0xC5
  else if op = 1 ∧ f.lineUsed s.free f.addr then some 0xC0
  else none

/-- A command starts in its bank, or is refused (R493, R494, R497). -/
def State.flashStart (s : State) (op : Nat) : State :=
  let f := s.flash
  let b := bankOf f.addr
  let refusal := s.flashRefusal op
  let s := s.seeFlash.2
  match refusal with
  | some c => if c = 0xC2 then
      let k := f.bank b
      let t := s.modFlash fun f => f.setBank b { k with done := true, status := 0xC2 }
      if f.ien && !k.done then t.interruptAll 19 else t
    else s.flashDone b c
  | none =>
    let t := if op = 2 then s.record 0xC6 (sectorOf f.addr) else s
    t.modFlash fun g => g.setBank b { g.bank b with op := some {
      op := op, addr := f.addr, words := agetRun 0 f.buf 0 16
      intent := if op = 2 then some t.parish.lastLine else none } }

/-- FL_CMD written at WS with OP. -/
def flCmd (h : Nat) (op : Nat) (s : State) : Res := regWrite h 32770 3 (fun t => t.flashStart op) s

/-- PROGRAM (R492 to R494). -/
def execProgram (h : HandId) (s : State) : Res := flCmd h 1 s
/-- ERASE (R492, R493, R497). -/
def execErase (h : HandId) (s : State) : Res := flCmd h 2 s
/-- BLANK_CHECK (R492, R493, R496). -/
def execBlankCheck (h : HandId) (s : State) : Res := flCmd h 3 s

/-- Leave UNDEFINED CONTENT in a run of flash words: what a read finds there is open each time (R12, R495,
R498). -/
def State.scramble (s : State) (a count : Nat) : State :=
  let out (x : Nat) : Bool := decide (x < a) || decide (a + count ≤ x)
  s.modFlash fun f => { f with
    words := f.words.filter fun (kv : Nat × Word) => out kv.1
    bad := f.bad.filter out
    weak := f.weak.filter out
    programmed := f.programmed.filter fun l => out (16 * l)
    undef := (a, count) :: cutRuns a (a + count) f.undef }

/-- A failed verify leaves undefined content and its record (R495, Flash status codes; DETAIL of log 107). -/
def State.verifyFails (s : State) (a count detail : Nat) : State := (s.scramble a count).record 0xC4 detail

/-- A program ends: the line holds the words, or undefined content (R494, R495). -/
def State.endProgram (s : State) (b : Bool) (o : FlashOp) (ok : Bool) : State :=
  let t := if ok then s.modFlash fun f => f.programLine o.addr o.words else s.verifyFails o.addr 16 o.addr
  t.flashDone b (if ok then 0 else 0xC4)

/-- An erase ends: the sector is erased, or holds undefined content; its FLASH_ERASE_DONE record
carries the outcome (R495, R497; DETAIL of log 32). -/
def State.endErase (s : State) (b : Bool) (o : FlashOp) (ok : Bool) : State :=
  let sec := sectorOf o.addr
  let t := if ok then s.modFlash fun f => f.eraseSector sec
    else s.verifyFails (sectorBase sec) (sectorSize sec) (sectorBase sec)
  let t := t.record 0xC7 (sec + (if ok then 0 else 0xC4 * 2 ^ 16))
  t.flashDone b (if ok then 0 else 0xC4)

/-- Lines of undefined content that the n-th reading finds not blank. -/
def Flash.openLines (f : Flash) (n : Nat) : List Nat :=
  (f.undef.flatMap fun r => (List.range (r.2 / 16)).map (r.1 / 16 + ·)).filter (lineShows n)

/-- BLANK_CHECK ends: OK, or NOT_BLANK with FL_ADDR at the first line that is not blank (R496). -/
def State.endBlankCheck (s : State) (b : Bool) (o : FlashOp) : State :=
  let sec := sectorOf o.addr
  let lo := sectorBase sec
  let hi := lo + sectorSize sec
  let used := ((s.flash.words.map fun (kv : Nat × Word) => kv.1 / 16) ++ s.flash.programmed ++ s.flash.openLines s.free).filter
    fun l => decide (lo ≤ l * 16) && decide (l * 16 < hi)
  let s := s.seeFlash.2
  match used.min? with
  | some l => (s.modFlash fun f => { f with addr := l * 16 }).flashDone b 0xC0
  | none => s.flashDone b 0

/-- The oldest program whose sector no erase before it has still to erase. -/
def nextProgram (held : List Nat) : List FlashOp → Option FlashOp
  | [] => none
  | o :: os =>
    if o.op = 2 then nextProgram (sectorOf o.addr :: held) os
    else if held.contains (sectorOf o.addr) then nextProgram held os
    else some o

/-- The operation a bank runs, true where it is an internal requester's: a program of theirs suspends an erase, and
their erases queue behind the bank's operation (R492, R499). -/
def Flash.turn (f : Flash) (b : Bool) : Option (Bool × FlashOp) :=
  let own := (f.bank b).op.map fun o => (false, o)
  if b then own
  else match (nextProgram [] f.inner).map (fun o => (true, o)), own with
    | some p, some o => some (if o.2.op = 2 then p else o)
    | some p, none => some p
    | none, some o => some o
    | none, none => f.inner.head?.map fun o => (true, o)

/-- An erase has started: its intent record is programmed, and PFW_N was not asserted before that (R497, R500). -/
def State.eraseBegun (s : State) (b : Bool) (o : FlashOp) : Bool :=
  !(o.intent.any s.flash.lineQueued) && (!s.startup.pfw || (s.flash.bank b).susp)

/-- The erase a bank has under way, running or suspended (R491, R499, R500). -/
def State.eraseUnderWay (s : State) (b : Bool) : Option FlashOp :=
  let o := match (s.flash.bank b).op with
    | some o => if o.op = 2 then some o else none
    | none => if b then none else s.flash.inner.head?.filter fun o => o.op == 2
  o.filter (s.eraseBegun b)

/-- A bank is programming a line (R491). -/
def Flash.programming (f : Flash) (b : Bool) : Bool := (f.turn b).any fun t => t.2.op == 1

/-- An internal requester's operation ends: a sector whose erase failed is erased again before its next line, and the
done record carries the outcome (R495, R497; log 32). -/
def State.endInner (s : State) (o : FlashOp) (ok : Bool) : State :=
  let s := s.modFlash fun f => { f with inner := f.inner.erase o }
  if o.op = 1 then
    if ok then
      let t := s.modFlash fun f => f.programLine o.addr o.words
      let i := sectorOf o.addr
      if 4 ≤ i ∧ i < 8 then t.modParish fun p => { p with archSeq := o.seq } else t
    else s.verifyFails o.addr 16 o.addr
  else
    let sec := sectorOf o.addr
    if ok then (s.modFlash fun f => f.eraseSector sec).rawEvent 0xC7 sec
    else ((s.verifyFails (sectorBase sec) (sectorSize sec) (sectorBase sec)).modFlash fun f => { f with
      marked := sec :: f.marked.filter (· ≠ sec) }).rawEvent 0xC7 (sec + 0xC4 * 2 ^ 16)

/-- The operation a bank runs ends, its verify passing or not; a suspended erase, and one that has not started, does
not end (R491, R495 to R497, R500). -/
def State.flashEnds (s : State) (b ok : Bool) : State :=
  match s.flash.turn b with
  | none => s
  | some (inner, o) =>
    if o.op = 2 ∧ ((s.flash.bank b).susp ∨ !s.eraseBegun b o) then s
    else if inner then s.endInner o ok
    else match o.op with
      | 1 => s.endProgram b o ok
      | 2 => s.endErase b o ok
      | _ => s.endBlankCheck b o

/-- A read of a bank suspends the erase under way there (R491). -/
def State.suspendErase (s : State) (b : Bool) : State :=
  if (s.eraseUnderWay b).isSome then s.modFlash fun f => f.setBank b { f.bank b with susp := true } else s

/-- One flash word read through the controller. Undefined content gives a free word with a free ECC
indication each time; a word with one bit in error is corrected (R12, R13, R486). -/
def State.flashReadWord (s : State) (a : Nat) : Word × State :=
  if s.flash.openAt a then
    let t := { s with free := s.free + 1 }
    (Config.flashWord s.free a, match Config.flashEcc s.free a with
      | 0 => t
      | 1 => t.modFlash fun f => { f with ce := satInc f.ce 4095 }
      | 2 => t.flashUe a)
  else
    (aget erasedWord s.flash.words a,
      if s.flash.bad.contains a then s.flashUe a
      else if s.flash.weak.contains a then s.modFlash fun f => { f with ce := satInc f.ce 4095 }
      else s)

/-- An IN of FL_DATA: it waits for a program in the bank, suspends an erase there, and advances
FL_ADDR (R490, R491, FL_DATA). -/
def readFlData (s : State) : IoRes :=
  let a := s.flash.addr
  let b := bankOf a
  if s.flash.programming b then .stall s
  else
    let r := (s.suspendErase b).flashReadWord a
    .done r.1 (r.2.modFlash fun f => { f with addr := (a + 1) % 2 ^ 24 })

/-- FL_DATA: a read of it arrives at the flash controller (R490, R491). -/
def execFlData (h : HandId) (s : State) : Res := regAccess h 32769 false 3 readFlData s

/-- ERASE_RESUME: a suspended erase resumes, with PFW_N high (R491, R500). -/
def execEraseResume (bank : Fin 2) (s : State) : Res :=
  let b := bank.val == 1
  if (s.flash.bank b).susp && !s.startup.pfw then
    .next (s.modFlash fun f => f.setBank b { f.bank b with susp := false })
  else s.same

/-- A write of FL_WPk: both ways while WP_LOCK is 0, only towards 1 afterwards (R501). -/
def Flash.writeWp (f : Flash) (k : Nat) (data : Word) : Flash :=
  let mine := (List.range (wpCount k)).map (· + 32 * k)
  let clear := mine.filter fun i => !data.getLsbD (i - 32 * k) && (!f.wpLock || f.unprotected.contains i)
  { f with unprotected := (f.unprotected.filter fun i => !mine.contains i) ++ clear }

/-- FL_WP: the write-protect bits (R501). -/
def execFlWp (h : HandId) (k : Fin 9) (data : Word) (s : State) : Res :=
  regWrite h (32800 + k) 3 (fun t => t.modFlash fun f => f.writeWp k data) s

/-- A write of any register of the flash window, by offset. -/
def flashWrite (off : Nat) (data : Word) (s : State) : State :=
  match off with
  | 0 => s.modFlash fun f => { f with addr := wfield data 23 0 }
  | 2 => if wfield data 1 0 = 0 then s else s.flashStart (wfield data 1 0)
  | 3 => s.modFlash fun f => { f with
      eccUe := f.eccUe && !data.getLsbD 3
      bank0 := { f.bank0 with done := f.bank0.done && !data.getLsbD 0 }
      bank1 := { f.bank1 with done := f.bank1.done && !data.getLsbD 1 } }
  | 4 => s.modFlash fun f => { f with wpLock := f.wpLock || data.getLsbD 1, ien := data.getLsbD 0 }
  | _ =>
    if 16 ≤ off ∧ off < 32 then s.modFlash fun f => { f with buf := aset 0 f.buf (off - 16) data }
    else if 32 ≤ off ∧ off < 41 then s.modFlash fun f => f.writeWp (off - 32) data
    else s

/-! ### The Parish window -/

/-- PR_WRITE: a FIRMWARE record of the code, with the writing Hand's path (R633). -/
def State.prWrite (s : State) (h code : Nat) : State :=
  s.recordKind 3 code s.parish.wdetail.toNat (s.corePath (coreOf h))
/-- PR_SNAP: a snapshot in SNAPSHOT mode, ignored in RECORD mode (R637). -/
def State.prSnap (s : State) (h code : Nat) : State :=
  if s.parish.snapshot then s.snapshotRecord code s.parish.wdetail.toNat (s.corePath (coreOf h)) else s

/-- PR_WRITE at WS. -/
def execPrWrite (h : HandId) (code : Byte) (s : State) : Res := regWrite h 28679 3 (fun t => t.prWrite h code.toNat) s
/-- PR_SNAP at WS. -/
def execPrSnap (h : HandId) (code : Byte) (s : State) : Res := regWrite h 28680 3 (fun t => t.prSnap h code.toNat) s

/-- A read of PR_RDATA: the ring word at the pointer, which advances (R631). -/
def readPrData (s : State) : IoRes :=
  .done (aget 0 s.parish.ring s.parish.rptr) (s.modParish fun p => { p with rptr := (p.rptr + 1) % 16384 })

/-- PR_RDATA at WS. -/
def execPrRdata (h : HandId) (s : State) : Res := regAccess h 28675 false 3 readPrData s

/-- PR_CTRL: ACK restarts the count; MODE and THRESH are written. -/
def Parish.writeCtrl (p : Parish) (data : Word) : Parish :=
  { p with
    count := if data.getLsbD 18 then 0 else p.count
    snapshot := data.getLsbD 17
    thresh := wfield data 15 0 }

/-- PR_CTRL at WS (R637). -/
def execPrCtrl (h : HandId) (data : Word) (s : State) : Res :=
  regWrite h 28673 3 (fun t => t.modParish fun p => p.writeCtrl data) s

/-- ARCHIVE_FLUSH: 60 s have passed since the line buffer's first record (R634). -/
def execArchiveFlush (s : State) : Res :=
  if s.parish.line.isEmpty then s.same
  else
    let t := s.archiveMarked.programArchive
    .next (if t.parish.archLine % 256 = 1 then t.enterSector else t)

/-- PR_RATE: the limits of the code PR_CODE names (R633). -/
def Parish.writeRate (p : Parish) (data : Word) : Parish :=
  let r := p.rateOf p.code
  { p with rates := aput p.rates p.code { r with
      archive := data.getLsbD 35, burst := wfield data 31 24, rate := wfield data 23 16
      fill := min (r.fillNow p.now) (max 1 (wfield data 31 24) * 10 ^ 8), at_ := p.now } }

/-- A write of any register of the Parish window by Hand h, by offset. -/
def parishWrite (h off : Nat) (data : Word) (s : State) : State :=
  match off with
  | 1 => s.modParish fun p => p.writeCtrl data
  | 2 => s.modParish fun p => { p with rptr := wfield data 13 0 }
  | 4 => s.modParish fun p => { p with code := wfield data 7 0 }
  | 5 => s.modParish fun p => p.writeRate data
  | 6 => s.modParish fun p => { p with wdetail := data.setWidth 32 }
  | 7 => s.prWrite h (wfield data 7 0)
  | 8 => s.prSnap h (wfield data 7 0)
  | _ =>
    if 32 ≤ off ∧ off < 64 then s.modParish fun p => { p with slist := aset 0 p.slist (off - 32) (data &&& 0x80003FFFF#36) }
    else s

end Sys2Proof.Machine
end

