-- ==== Sys2Proof/Machine/HostLink.lean ====
section
/-!
DEFINITION. Sys2Proof/Machine/HostLink.lean: the PCIe link's configuration requests, global control,
MSI-X, DOE, IDE and PTM (file 05).
-/
namespace Sys2Proof.Machine

/-- A host request to a BAR reaches the master's registers: the link is up in D0 and configuration works (R1,
R209, R210, R508, R692). -/
def State.hostReach (s : State) : Bool :=
  s.cascade.master && s.linkAwake && !s.link.perst && !s.link.d3hot && (s.link.fwReady || s.link.retryEnded)

/-- The IDE rule refuses a BAR0 or BAR4 request: IDE_REQUIRED, and the request is not inside the Secure
stream (R216). -/
def HostLink.ideRefuses (l : HostLink) (inStream : Bool) : Bool := l.ideRequired && !(inStream && l.ideSecure)

/-- A request refused under the IDE rule: Unsupported Request, IDE_DROP (R200, R216). -/
def State.refuseRequest (s : State) : State := (s.modLink fun l => { l with ideDrop := true }).aerLog 20 true

/-- A host write, inside the stream or outside it, which is a wake event (R552). A non-zero RESERVED bit is
UNPREDICTABLE: a free choice lets the write act as if the bits were zero or drops it (R10, R15; log 66). -/
def hostWriteIn (inStream : Bool) (reserved data : Word64) (f : State → Res) (s : State) : Res :=
  if !s.hostReach then s.same
  else if s.link.ideRefuses inStream then .next s.refuseRequest
  else if data &&& reserved = 0 then f s.owesWake
  else if s.freeValue.1 % 2 = 0 then f s.freeValue.2.owesWake
  else .next s.freeValue.2.owesWake

/-- A BAR0 or BAR4 write of a row of its own: inside the IDE stream whenever it is Secure (log 91). -/
def hostWrite (reserved data : Word64) (f : State → Res) (s : State) : Res := hostWriteIn true reserved data f s

/-- A host read of BAR0 or BAR4 (R216). -/
def hostReadIn (inStream : Bool) (f : State → Res) (s : State) : Res :=
  if !s.hostReach then s.same
  else if s.link.ideRefuses inStream then .next (s.refuseRequest.emit .unsupported)
  else f s

/-- A BAR0 read of a row of its own. -/
def hostRead (f : State → Res) (s : State) : Res := hostReadIn true f s

/-- PH_RDATA: the host reads the ring word at its own pointer, which advances (R631, R639). -/
def execPhRdata (s : State) : Res := hostRead (fun s =>
  let w := aget 0 s.parish.ring s.parish.hptr
  .next ((s.modParish fun p => { p with hptr := (p.hptr + 1) % 16384 }).emit (.barData (leOctets 8 w.toNat)))) s

/-- The highest place of a partner's set that the device supports too: every rate and every width (R187). -/
def highest {n : Nat} (set : BitVec n) : Option Nat := ((List.range n).filter fun i => set.getLsbD i).getLast?

/-- The rates open to training: non-FLIT operation exists only at 32 GT/s and below (R188). -/
def openRates (rates : BitVec 7) (flit : Bool) : BitVec 7 := if flit then rates else rates &&& 0x1F

/-- LINK_UP: the master's link has trained at the highest rate and width both partners support, in FLIT mode
when the partner supports it, and the Data Link Layer is up (R187, R188, R508, Readiness ladder). -/
def execLinkUp (rates : BitVec 7) (widths : BitVec 5) (flit : Bool) (s : State) : Res :=
  if s.link.perst || s.startup.inReset || !s.cascade.master then s.same
  else match highest (openRates rates flit), highest widths with
    | some r, some w =>
      .next (s.modLink fun l => { l with dlUp := true, rate := r, width := w, flitMode := flit }).sendLtr
    | _, _ => s.same

/-- The size of a BAR in octets (BARs table). -/
def barSize (n : Fin 3) : Nat := if n = 0 then 65536 else 4096

/-- What a BAR reads: its address, of which the bits below its size are 0, with type 64-bit memory and BAR2
prefetchable (BARs table; the bits' places are PCIe's, log 8). -/
def HostLink.barWord (l : HostLink) (n : Fin 3) : Nat :=
  (aget 0 l.bars n.val).toNat / barSize n * barSize n + 4 + (if n = 1 then 8 else 0)

/-- What a configuration read returns (Configuration identity table, R190 to R218). -/
def State.cfgValue (s : State) (f : CfgField) : Nat :=
  let l := s.link
  match f with
  | .vendorId => 0x1F3B
  | .deviceId => 0x3616
  | .revisionId => Config.stepMajor.toNat * 16 + Config.stepMinor.toNat
  | .classCode => 0x108000
  | .subVendorId => (Config.subsystem.getD (0x1F3B, 0x3616)).1.toNat
  | .subsystemId => (Config.subsystem.getD (0x1F3B, 0x3616)).2.toNat
  | .serialNumber => Config.serial.toNat
  | .bar n high => if high then l.barWord n / 2 ^ 32 else l.barWord n % 2 ^ 32
  | .busMaster => b2n l.busMaster
  | .pmeEn => b2n l.pmeEn
  | .noSoftReset => 1
  | .msixTableSize => 256
  | .msixEnable => b2n l.msixEnable
  | .msixFunctionMask => b2n l.msixMask
  | .aerUncor => l.aer.uncor.toNat
  | .aerUncorMask => l.aer.uncorMask.toNat
  | .aerSeverity => l.aer.severity.toNat
  | .aerCor => l.aer.cor.toNat
  | .aerCorMask => l.aer.corMask.toNat
  | .aerHeader i => (l.aer.header.getD i 0).toNat
  | .ptmEnable => b2n l.ptmEnable
  | .cplTimeout => match l.cplTimeout with
    | .standard => 0
    | .range r => 1 + r.toNat
    | .disabled => 5
  | .doeBusy => b2n !l.fwReady
  | .doeError => b2n l.doeError
  | .linkSpeed => l.rate
  | .linkWidth => l.width
  | .flitMode => b2n l.flitMode
  | .ideSecure => b2n l.ideSecure
  | .idePcrc => b2n l.ide.pcrc
  | .ideRid limit => match l.ide.rid with
    | some r => if limit then r.2.toNat else r.1.toNat
    | none => 0
  | .ideAddr b limit => match afind l.ide.addr (b2n b) with
    | some r => if limit then r.2.toNat else r.1.toNat
    | none => 0
  | .aspmL1 => b2n l.aspmL1
  | .l12 => b2n l.l12

/-- An error on the link, as AER logs and reports it: PCIe's bit places and defaults (R200; log 8). -/
def State.linkError (s : State) (e : PcieError) : State :=
  match e with
  | .dataLink => s.aerLog 4 false
  | .flowControl => s.aerLog 13 false
  | .unexpectedCompletion => s.aerLog 16 true
  | .receiverOverflow => s.aerLog 17 false
  | .malformed => s.aerLog 18 false
  | .ecrc => s.aerLog 19 true
  | .receiver => s.aerCorrected 0
  | .badTlp => s.aerCorrected 6
  | .badDllp => s.aerCorrected 7
  | .replayRollover => s.aerCorrected 8
  | .replayTimeout => s.aerCorrected 12

/-- What a configuration request changes (R189, R190, R199, R200, R202, R207, R212, R215, R218). -/
def State.configure (s : State) (req : CfgReq) : State :=
  match req with
  | .read f => s.emit (.configData (s.cfgValue f))
  | .bar n a => s.modLink fun l => { l with bars := aput l.bars n.val a }
  | .busMaster on => (s.modLink fun l => { l with busMaster := on }).flushMsix
  | .pmeEn on => s.modLink fun l => { l with pmeEn := on }
  | .msix enable mask => (s.modLink fun l => { l with msixEnable := enable, msixMask := mask }).flushMsix
  | .aerMask u c => s.modLink fun l => { l with aer := { l.aer with uncorMask := u, corMask := c } }
  | .aerSeverity v => s.modLink fun l => { l with aer := { l.aer with severity := v } }
  | .aerClear u c => s.modLink fun l => { l with aer := { l.aer with uncor := l.aer.uncor &&& ~~~u, cor := l.aer.cor &&& ~~~c } }
  | .ptmEnable on => s.modLink fun l => { l with ptmEnable := on }
  | .cplTimeout off r => s.modLink fun l => { l with cplTimeout := if off then .disabled else match r with
      | some x => .range x
      | none => .standard }
  | .doeAbort => s.modLink fun l => { l with doeError := false, doeObjects := [] }
  | .ideRid b => s.modLink fun l => { l with ide := { l.ide with rid := b } }
  | .ideAddr b r => s.modLink fun l => { l with ide := { l.ide with addr := aput l.ide.addr (b2n b) r } }
  | .idePcrc on => s.modLink fun l => { l with ide := { l.ide with pcrc := on } }
  | .aspm l1 l12 => s.modLink fun l => { l with aspmL1 := l1, l12 := l12 }
  | .report v => s.modLink fun l => { l with aer := { l.aer with report := v } }
  | .faulty e => s.linkError e

/-- CONFIG_REQUEST: Retry Status until FW_READY or the 900 ms limit, then completed (R209, R210); a link error, which
has no row of its own, is logged and gets no answer (R200; log 8). -/
def execConfigRequest (req : CfgReq) (s : State) : Res :=
  if !s.linkAwake || !s.cascade.master then s.same
  else if req.isFault then .next (s.configure req)
  else if s.link.fwReady || s.link.retryEnded then .next ((s.owesWake.configure req).emit .configDone)
  else .next (s.owesWake.emit .configRetry)

/-- READINESS_TIMEOUT: 900 ms after PERST_N with FW_READY 0, Retry Status ends (R210). -/
def execReadinessTimeout (s : State) : Res :=
  if s.link.perst || s.link.fwReady then s.same else .next (s.modLink fun l => { l with retryEnded := true })

/-- D0: the device returns from D3hot with everything kept; the request is a wake event (R204, R552). -/
def execD0 (s : State) : Res :=
  if s.link.d3hot && s.linkAwake then .next (s.owesWake.modLink fun l => { l with d3hot := false }).flushMsix else s.same

/-- The effect of a write of HL_CTRL: its fields, and source 26 on every core (R195). -/
def State.writeHlCtrl (s : State) (data : Word64) : State :=
  (s.modLink fun l => { l with
    evtEn := data.getLsbD 2, ptmAlign := data.getLsbD 1, quiesce := data.getLsbD 0 }).interruptAll 26

/-- HL_CTRL (R195). -/
def execHlCtrl (data : Word64) (s : State) : Res :=
  hostWrite 0xFFFFFFFFFFFFFFF8#64 data (fun t => .next (t.writeHlCtrl data)) s

/-- MSIX_UNMASK: one message when an event came while masked (R199). -/
def execMsixUnmask (vector : Nat) (s : State) : Res :=
  if !s.hostReach || decide (256 < vector) then s.same
  else if s.link.ideRefuses true then .next s.refuseRequest
  else
    let e := aget {} s.link.msix vector
    .next (s.owesWake.modLink fun l => { l with msix := aput l.msix vector { e with masked := false } }).flushMsix

/-- A data object written to the mailbox: over 16 KiB discarded with DOE Error; else it waits for Warden firmware
(R212). -/
def State.doeWrite (s : State) (object : List Byte) : State :=
  if 16384 < object.length then (s.modLink fun l => { l with doeError := true }).emit (.doe false true)
  else (s.modLink fun l => { l with doeObjects := l.doeObjects ++ [object] }).emit (.doe false s.link.doeError)

/-- DOE_REQUEST: Busy while FW_READY is 0; its configuration requests are wake events (R211, R212, R552). -/
def execDoeRequest (object : List Byte) (s : State) : Res :=
  if !s.linkAwake || !s.cascade.master then s.same
  else if !s.link.fwReady then .next (s.owesWake.emit (.doe true s.link.doeError))
  else .next (s.owesWake.doeWrite object)

/-- The certificate chain of an SPDM slot: slot 0 the Device Attestation Key's, slot 1 as Warden firmware
provisioned it, slots 2 to 7 empty (R214). -/
def State.certSlot (s : State) (n : Fin 8) : Option (List Byte) :=
  if n = 0 then some Config.dakChain else if n = 1 then s.link.certSlot1 else none

/-- IDE_INSECURE: the stream leaves the Secure state (R216, R217, R629). -/
def execIdeInsecure (s : State) : Res :=
  if !s.link.ideSecure then s.same
  else
    let t := (s.modLink fun l => { l with ideSecure := false }).hostEvent 7
    if t.link.ideRequired then .next ((t.record 0x22 0x30).riskContracts 3 fun _ _ => true) else .next t

/-- PTM_INTERVAL: with PTM Enable and PTM_ALIGN a request goes out (R218). -/
def execPtmInterval (s : State) : Res :=
  if s.link.dlUp && s.link.ptmEnable && s.link.ptmAlign then
    .next ((s.modLink fun l => { l with ptmPending := true }).emit .ptmRequest)
  else s.same

/-- A signed number of ticks, saturating at 32 bits. -/
def satTicks (d : Int) : BitVec 32 := BitVec.ofInt 32 (max (-(2 ^ 31)) (min (2 ^ 31 - 1) d))

/-- PTM_RESPONSE: the target tick; a first exchange may step forward while no contract is admitted,
any other slews; the Tally never decreases (R218, R219; log 94: PTM_LOCK sets at any exchange). -/
def execPtmResponse (masterNs : Nat) (s : State) : Res :=
  if !s.link.ptmPending then s.same
  else
    let target := masterNs / 10
    let d : Int := (s.link.tally : Int) - target
    let step := !s.link.ptmDone && !(s.steward.contracts.any fun kv => kv.2.bound) && decide (d < 0)
    .next ((s.modLink fun l => { l with
      ptmPending := false, ptmDone := true, ptmLock := true, ptmOffset := satTicks d
      tally := if step then target else l.tally
      slew := if step then 0 else d
      slewPhase := 0 }).modCascade fun c => { c with stepOwed := c.stepOwed || step })

end Sys2Proof.Machine
end

