-- ==== Sys2Proof/Machine/Errands.lean ====
section
/-!
DEFINITION. Sys2Proof/Machine/Errands.lean: descriptors, the checks of R729, deadlines and classes,
placement and the start of an errand on its Hand (files 01, 06 and 07).
-/
namespace Sys2Proof.Machine

/-! ### Descriptor fields (Errand descriptor table) -/

def descField (raw : List Byte) (off n : Nat) : Nat := leNat ((raw.drop off).take n)
def descHtag (raw : List Byte) : Nat := descField raw 0 2
def descFlags (raw : List Byte) : Nat := descField raw 2 1
def descFence (raw : List Byte) : Bool := bitOf (descFlags raw) 0
def descNoIrq (raw : List Byte) : Bool := bitOf (descFlags raw) 1
def descKind (raw : List Byte) : Nat := descField raw 3 1

/-- A named page: PAGE0, or PAGE1 which counts only when PAGE0.V = 1. -/
def descPage (raw : List Byte) (i : Nat) : Option Nat :=
  let v0 := descField raw 0x10 4
  let v1 := descField raw 0x14 4
  if i = 0 then (if bitOf v0 31 then some (v0 % 2 ^ 30) else none)
  else if bitOf v0 31 && bitOf v1 31 then some (v1 % 2 ^ 30) else none
def descPages (raw : List Byte) : List Nat := ((descPage raw 0).toList ++ (descPage raw 1).toList)
def bufAddr (raw : List Byte) (i : Nat) : Nat := descField raw (0x18 + 8 * i) 8
def bufLen (raw : List Byte) (i : Nat) : Nat := descField raw (0x30 + 4 * i) 3
def bufPack (raw : List Byte) (i : Nat) : Nat := bitsOf (descField raw (0x33 + 4 * i) 1) 1 0
/-- DIR: 0 unused, 1 IN, 2 OUT, 3 INOUT. -/
def bufDir (raw : List Byte) (i : Nat) : Nat := bitsOf (descField raw (0x33 + 4 * i) 1) 3 2
def packOf (n : Nat) : Packing := match n with
  | 0 => .loose
  | 1 => .dense
  | _ => .raw36

/-! ### The share map (R299 to R305) -/

/-- The share a page lies in. -/
def State.shareOf (s : State) (page : Nat) : Option (Nat × Share) :=
  s.store.map.find? fun kv => kv.2.valid && decide (kv.2.first ≤ page) && decide (page < kv.2.first + kv.2.count)

/-- The share this device owns. -/
def State.ownShare (s : State) : Option Share := s.store.own.map fun i => aget {} s.store.map i


/-! ### Conditions under which an errand completes without running (R729) -/

/-- The first buffer at fault (R239). -/
def badBuffer (raw : List Byte) : Option Nat :=
  let kind := descKind raw
  (List.range 3).find? fun i =>
    bufPack raw i == 3 || (i == 0 && bufDir raw 0 == 2)
      || (bufPack raw i == 2 && bufDir raw i != 0 && (bufAddr raw i % 8 != 0 || bufLen raw i % 8 != 0))
      || (kind == 2 && i == 1 && (bufDir raw 1 == 0 || bufDir raw 1 == 2 || bufLen raw 1 == 0))

/-- A reserved field of a descriptor is not zero (R15, R262): FLAGS 7:2, octet 07h, TARGET 63:36, PAGE0 and
PAGE1 bit 30, the ATTR octets' bits 7:4 and octets 3Ch to 3Fh. -/
def descReserved (raw : List Byte) : Bool :=
  bitsOf (descFlags raw) 7 2 != 0 || descField raw 7 1 != 0 || decide (2 ^ 36 ≤ descField raw 8 8)
    || bitOf (descField raw 0x10 4) 30 || bitOf (descField raw 0x14 4) 30
    || (List.range 3).any (fun i => bitsOf (descField raw (0x33 + 4 * i) 1) 7 4 != 0) || descField raw 0x3C 4 != 0

/-- An Almanac that is loaded and not being unloaded (R239, R259); an UNLOAD fetched earlier has taken hold. -/
def State.almanacUsable (s : State) (i : Nat) : Option Almanac :=
  match afind s.steward.almanacs i with
  | some a => if a.unloading then none else some a
  | none => none

/-- A core holds the image of an Almanac in I-space. -/
def State.coreHolds (s : State) (i c : Nat) : Bool := (s.core c).regions.any fun r => decide (r.kind = .almanac i)

/-- A member has loaded an Almanac, as it reported to the master. -/
def Almanac.onDevice (a : Almanac) (p : Word) : Bool := a.devices.any fun d => pathDevice d == pathDevice p

/-- An Almanac an errand may name: usable, and loaded in a core of the target Holding in service (R239). -/
def State.almanacIn (s : State) (i : Nat) (target : Word) : Option Almanac :=
  match s.almanacUsable i with
  | some a =>
    if (s.coresIn target).any (fun c => s.inService c && s.coreHolds i c)
        || s.cascade.entries.any (fun kv => kv.2.serves target && a.onDevice kv.2.path)
    then some a else none
  | none => none

/-- Words buffer 0 needs (R239, R249). -/
def buf0Words (raw : List Byte) : Nat :=
  if bufDir raw 0 = 0 then 0 else packWords (packOf (bufPack raw 0)) (bufLen raw 0)

/-- The checks on named pages, conditions 9 to 12 of R729; a CHECKPOINT, whose TARGET is ignored, may name any page
of the Holding (R336). -/
def State.pageRefusal (s : State) (raw : List Byte) (target : Word) : Option (Nat × Nat) :=
  let pages := descPages raw
  let target : Word := if descKind raw = 1 then 0 else target
  match pages.find? fun p => (s.shareOf p).isNone with
  | some p => some (0x41, p)
  | none =>
    let shares := pages.filterMap fun p => (s.shareOf p).map fun sh => (p, sh.1, sh.2)
    match shares with
    | [] => none
    | (p0, i0, sh0) :: rest =>
      match rest.find? fun x => x.2.1 != i0 with
      | some x => some (0x42, x.1)
      | none =>
        if !pathInside sh0.path target then some (0x40, p0)
        else match sh0.state with
          | .opened => if s.store.state = .opened ∨ s.store.state = .closing then none else some (0x45, p0)
          | .stale => some (0x46, p0)
          | .absent => some (0xE0, s.absentDetail sh0.path)
          | _ => some (0x45, p0)

/-- A status of R729 with its DETAIL. -/
abbrev Refused := Option (Nat × Nat)

/-- Conditions 1 to 3 of R729: kind, path and buffers. -/
def State.shapeRefusal (s : State) (internal : Bool) (raw : List Byte) : Refused :=
  let kind := descKind raw
  let target := descTarget raw
  if 3 < kind then some (0x01, kind)
  else if !pathOk target || (internal && !pathInside target s.devicePath)
      || ((kind == 2 || kind == 3) && 1 < pathLevel target) then some (0x02, 0)
  else (badBuffer raw).map fun i => (0x06, i)

/-- Condition 4 of R729: the target is present and in service; a CHECKPOINT's TARGET is otherwise ignored (R336). -/
def State.absentRefusal (s : State) (raw : List Byte) : Refused :=
  if descKind raw = 1 ∨ s.targetPresent (descTarget raw) then none else some (0xE0, s.absentDetail (descTarget raw))

/-- Conditions 5 to 7 of R729: the Almanac, the Verb and its arguments. -/
def State.verbRefusal (s : State) (host : Bool) (raw : List Byte) : Refused :=
  let kind := descKind raw
  let alm := descAlmanac raw
  let verb := descVerb raw
  if kind ≠ 0 ∧ kind ≠ 3 then none
  else match s.almanacIn alm (descTarget raw) with
  | none => some (0x03, alm)
  | some a =>
    if kind = 3 then none
    else match a.verbs[verb]? with
      | none => some (0x05, verb)
      | some d =>
        if host && !d.host then some (0x05, verb)
        else if d.argWords < buf0Words raw then some (0x07, buf0Words raw)
        else none

/-- Condition 8 of R729: the ring's contract, the Verb set before the target (R266). -/
def State.contractRefusal (s : State) (ring : Option Nat) (raw : List Byte) : Refused :=
  match ring.map s.contract with
  | some c =>
    if descKind raw ≠ 0 || !c.bound then none
    else if !c.verbs.contains (descAlmanac raw, descVerb raw) then some (0x24, 1)
    else if !pathInside (descTarget raw) c.target then some (0x24, 2)
    else none
  | none => none

/-- The status of THERMAL_TRIP and its DETAIL, TJ at the trip (Cascade, power and security codes). -/
def State.tripStatus (s : State) : Nat × Nat := (0xEA, (BitVec.ofInt 8 s.power.tj).toNat)

/-- Condition 13 of R729: an errand whose placement can fall only on this device, which has tripped (R566): its
target is this device or a part of it, it names a page of this device, or no other device of its subtree serves.
A CHECKPOINT is placed on no device (R336). -/
def State.tripRefusal (s : State) (raw : List Byte) : Refused :=
  let target := descTarget raw
  let here : Bool := match pathLevel target, (descPage raw 0).bind s.shareOf with
    | 0, some sh => s.ownDevice sh.2.path
    | 0, none => deviceUnder s.devicePath target
        && !(s.cascade.entries.any fun kv => kv.2.serves target && kv.2.gov != 3)
    | _, _ => s.ownDevice target
  if descKind raw ≠ 1 ∧ s.power.gov = .trip ∧ here then some s.tripStatus else none

/-- The first condition of R729 that applies: status and DETAIL. `ring` names the SQ of a host errand. The
checks on named pages hold for every KIND (R46, R300, R305, R329). -/
def State.refusalOf (s : State) (ring : Option Nat) (internal : Bool) (raw : List Byte) : Refused :=
  (s.shapeRefusal internal raw).orElse fun _ =>
  (s.absentRefusal raw).orElse fun _ =>
  (s.verbRefusal ring.isSome raw).orElse fun _ =>
  (s.contractRefusal ring raw).orElse fun _ =>
  (s.pageRefusal raw (descTarget raw)).orElse fun _ => s.tripRefusal raw

/-- The conditions a member meets when an errand has reached it: the master has made the other checks, and
the order is R729's. -/
def State.memberRefusal (s : State) (raw : List Byte) : Refused :=
  (s.absentRefusal raw).orElse fun _ => (s.verbRefusal false raw).orElse fun _ => s.tripRefusal raw

/-- The conditions of R729 that events between fetch and launch change, judged again at the launch: the target's
presence (R36, R45), at the master the named pages (R305), and a trip (R566). The Almanac, the Verb and the
contract are judged at fetch alone (R259, R264; log 116). -/
def State.laterRefusal (s : State) (raw : List Byte) : Refused :=
  (s.absentRefusal raw).orElse fun _ =>
  (if s.cascade.master then s.pageRefusal raw (descTarget raw) else none).orElse fun _ => s.tripRefusal raw

/-! ### Contracts' buckets (R264, R285) -/

/-- Bring a bucket up to date, in units of 10^-8 token. -/
def Contract.refill (c : Contract) (now : Nat) : Contract :=
  { c with fill := min (c.burst * 10 ^ 8) (c.fill + c.rate * (now - c.filledAt)), filledAt := max now c.filledAt }

/-- The deadline and class of a conforming host VERB errand, and the contract after it (R264). -/
def Contract.classify (c : Contract) (doorbell : Nat) : Option Nat × Contract :=
  if !c.bound then (none, c)
  else
    let c := c.refill doorbell
    if 10 ^ 8 ≤ c.fill then (some (doorbell + c.deadline), { c with fill := c.fill - 10 ^ 8 })
    else (none, { c with excess := satInc c.excess 0xFFFF })

/-! ### Choosing the device (R49, R269, R528) -/

/-- Where an errand runs. -/
inductive RunsOn where
  | own
  | member (num port : Nat)
  | nowhere
deriving DecidableEq, Repr


/-- The ports of this device that lead to some devices, each once. -/
def State.portsTo (s : State) (ps : List Word) : List Nat := (ps.map s.portTo).eraseDups

/-- Errands waiting on this device, and those forwarded to a member that have not told of a Hand there: the ready
sets (R269; log 33). -/
def State.waitingCount (s : State) : Nat :=
  (s.steward.errands.filter fun kv => decide (kv.2.phase = .waiting)).length
def State.forwardedCount (s : State) (num : Nat) : Nat :=
  (s.steward.errands.filter fun kv => match kv.2.phase with
    | .forwarded _ d => d == num && !kv.2.running
    | _ => false).length

/-- Scores of R269 as fractions: count over cores, plus hops; the smaller wins, a tie to the lower path. -/
def betterScore (a b : Nat × Nat × Nat × Nat) : Bool :=
  -- (count, cores, hops, path)
  let l := (a.1 + a.2.2.1 * a.2.1) * b.2.1
  let r := (b.1 + b.2.2.1 * b.2.1) * a.2.1
  if l ≠ r then l < r else a.2.2.2 < b.2.2.2

/-- The device an errand with a checked target runs on: the best of those that hold the Almanac, loaded or being
unloaded (R259, R269). When all of them have tripped, one of them answers THERMAL_TRIP (R566). -/
def State.chooseDevice (s : State) (raw : List Byte) (target : Word) : RunsOn :=
  let toMember (n : Nat) (e : HcEntry) : RunsOn :=
    if decide ((s.port (s.portTo e.path)).state = .keyed) then .member n (s.portTo e.path) else .nowhere
  let find (p : Word) : RunsOn :=
    if s.ownDevice p then .own
    else match s.cascade.entries.find? fun kv => decide (kv.2.state = .present) && pathDevice kv.2.path == pathDevice p with
      | some (n, e) => toMember n e
      | none => .nowhere
  if pathLevel target ≠ 0 then find target
  else match (descPage raw 0).bind s.shareOf with
    | some sh => find sh.2.path
    | none =>
      let ownC : List (Nat × Nat × Nat × Nat × RunsOn) :=
        if deviceUnder s.devicePath target
            && (List.range 128).any (fun c => s.inService c && s.coreHolds (descAlmanac raw) c) then
          [(s.waitingCount, ((List.range 128).filter s.inService).length, hopsOf s.devicePath, s.devicePath.toNat, .own)]
        else []
      let mem (tripped : Bool) := (s.cascade.entries.filter fun kv =>
          kv.2.serves target && (kv.2.gov == 3) == tripped
            && ((afind s.steward.almanacs (descAlmanac raw)).any fun a => a.onDevice kv.2.path)).map fun kv =>
        (s.forwardedCount kv.1, kv.2.cores, hopsOf kv.2.path, kv.2.path.toNat, toMember kv.1 kv.2)
      let up := (if s.power.gov = .trip then [] else ownC) ++ mem false
      let tripped := (if s.power.gov = .trip then ownC else []) ++ mem true
      match if up = [] then tripped else up with
      | [] => .nowhere
      | x :: xs => (xs.foldl (fun b c =>
          if betterScore (c.1, c.2.1, c.2.2.1, c.2.2.2.1) (b.1, b.2.1, b.2.2.1, b.2.2.2.1) then c else b) x).2.2.2.2

/-! ### Admitting an errand -/

/-- The lowest free device tag (R241). -/
def State.freeDtag (s : State) : Option Nat :=
  let used := s.steward.errands.filterMap fun kv => kv.2.dtag
  (List.range 4096).find? fun t => !used.contains t

/-- The errands that wait for a device tag: those this device runs itself, of every KIND (R241). -/
def State.untagged (s : State) : Assoc Errand :=
  s.steward.errands.filter fun kv =>
    (decide (kv.2.phase = .waiting) || decide (kv.2.phase = .service)) && kv.2.dtag.isNone

/-- The first of some errands in the order of R265. -/
def State.firstOf (s : State) (l : Assoc Errand) : Option Nat :=
  l.foldl (fun b kv => match b with
    | none => some kv.1
    | some k => if s.errandBefore kv.1 k then some kv.1 else some k) none

/-- A free device tag goes to the errand first in the order of R265 (R241, R265). -/
def State.giveTag1 (s : State) : State :=
  match s.firstOf s.untagged, s.freeDtag with
  | some e, some d => s.modErrand e fun x => { x with dtag := some d }
  | _, _ => s

/-- Waiting errands of this device take the device tags there are (R241). -/
def State.giveTags (s : State) : State := (List.range s.untagged.length).foldl (fun t _ => t.giveTag1) s

/-- Enter an errand in the Steward's records. -/
def State.addErrand (s : State) (x : Errand) : State :=
  s.modSteward fun w => { w with errands := aput w.errands w.nextErrand x, nextErrand := w.nextErrand + 1 }

/-- The UNLOAD takes hold when its errand is fetched (R259). -/
def State.markUnloading (s : State) (i : Nat) : State :=
  s.modSteward fun w => match afind w.almanacs i with
    | some a => { w with almanacs := aput w.almanacs i { a with unloading := true } }
    | none => w

/-- The contracts an UNLOAD of an Almanac breaks (Contract causes table, 7). -/
def State.breakForUnload (s : State) (i : Nat) : State :=
  s.breakContracts 7 fun _ c => c.verbs.any fun v => v.1 == i

/-- An errand over Baton: its device, HTAG, deadline and SQ, then the descriptor (R248, R528; log 40). -/
def errandContent (path : Word) (htag : Nat) (deadline : Option Nat) (sq : Nat) : List Nat :=
  [path.toNat, htag, match deadline with
    | some d => d + 1
    | none => 0, sq]

/-- The SQ number the Errand Window shows (Errand Window, word 021q). -/
def Errand.shownSq (x : Errand) : Nat :=
  match x.src with
  | .ring n => n
  | .internal => 256
  | .baton => x.sq

/-- The errand goes over Baton to a device of the route table (R52, R528). -/
def State.forwardTo (s : State) (e : Nat) (x : Errand) (num port : Nat) : State :=
  (s.setErrand e { x with phase := .forwarded port num, dtag := none, running := false }).sendFlit port 2 (s.flitClass x)
    (errandContent (s.hcEntry num).path (e % 65536) (s.deadlineOf x) x.shownSq) x.raw

/-- An errand completes without running. -/
def Errand.refused (x : Errand) (st d : Nat) (path : Word) : Errand :=
  { x with phase := .ending none, status := BitVec.ofNat 8 st, result := 0, detail := BitVec.ofNat 32 d, execPath := path }

/-- An errand the Steward serves itself waits for its device tag (R241, R253, R336). -/
def State.serveErrand (s : State) (e : Nat) (x : Errand) : State :=
  (s.setErrand e { x with phase := .service, execPath := s.devicePath }).giveTags

/-- An admitted errand goes where it is served: the Steward, a Hand of this device, or a member (R49, R52, R253,
R269, R336). -/
def State.launch (s : State) (e : Nat) : State :=
  match s.errand? e with
  | none => s
  | some x => match s.laterRefusal x.raw with
    | some (st, d) => s.setErrand e (x.refused st d s.devicePath)
    | none => match descKind x.raw with
      | 0 => match s.chooseDevice x.raw (descTarget x.raw) with
        | .own => (s.setErrand e { x with phase := .waiting }).giveTags
        | .member num port => s.forwardTo e x num port
        | .nowhere => s.setErrand e (x.refused 0xE0 (s.absentDetail (descTarget x.raw)) s.devicePath)
      | 1 => if s.store.state = .closed then s.setErrand e (x.refused 0x45 0 s.devicePath) else s.serveErrand e x
      | _ => s.serveErrand e x

/-- An earlier errand of the same SQ is still in flight: FENCE waits for its completion (R243). -/
def State.fenced (s : State) (e : Nat) (x : Errand) : Bool :=
  descFence x.raw && (match x.src with
    | .ring n => s.steward.errands.any fun kv => decide (kv.1 < e) && decide (kv.2.src = .ring n)
    | _ => false)

/-- Errands whose FENCE has lifted are admitted (R243). -/
def State.liftFences (s : State) : State :=
  s.steward.errands.foldl (fun t kv => match t.errand? kv.1 with
    | some x => if decide (x.phase = .fenced) && !t.fenced kv.1 x then t.launch kv.1 else t
    | none => t) s

/-- The effect of an UNLOAD as it is fetched (R259). -/
def State.fetchUnload (s : State) (x : Errand) : State :=
  if descKind x.raw = 3 then (s.markUnloading (descAlmanac x.raw)).breakForUnload (descAlmanac x.raw) else s

/-- The statuses a device may return to an errand that it does not run (General status codes). -/
def plainStatus (v : Nat) : Nat := 1 + v % 16

/-- An errand whose descriptor has arrived: refused (R729), held by its FENCE, at whose lift only the conditions of
State.laterRefusal are judged again (R243; log 116), or launched. A non-zero
reserved field makes it UNPREDICTABLE: a free choice runs it as if the field were zero, or ends it with a
status (R262; log 66). -/
def State.admitErrand (s : State) (x : Errand) : State :=
  let ring := match x.src with
    | .ring n => some n
    | _ => none
  let e := s.steward.nextErrand
  match s.refusalOf ring (decide (x.src = .internal)) x.raw with
  | some (st, d) => s.addErrand (x.refused st d s.devicePath)
  | none =>
    if descReserved x.raw ∧ s.freeValue.1 % 2 = 1 then
      s.freeValue.2.addErrand (x.refused (plainStatus (s.freeValue.1 / 2)) 0 s.devicePath)
    else
      let s := if descReserved x.raw then s.freeValue.2 else s
      let t := (s.fetchUnload x).addErrand { x with phase := .fenced }
      if s.fenced e x then t else t.launch e

/-! ### Placing an errand on a Hand (R50, R270 to R272, R318) -/

/-- A lane or slice that can be granted: powered, held by none, and passed at start-up. -/
def State.laneFree (s : State) (l : Nat) : Bool :=
  s.lanePowered l && (s.lane l).holder.isNone && (s.lane l).regs.op.isNone && !s.startup.badLanes.contains l
def State.sliceFree (s : State) (l : Nat) : Bool :=
  s.slicePowered l && (s.slice l).holder.isNone && (s.slice l).regs.op.isNone && !s.startup.badSlices.contains l

/-- The Hands of a core that errands may take (R37). -/
def errandHands (c : Nat) : List Nat := if c = 0 then [1, 2, 3] else handsOf c

def State.freeHands (s : State) (c : Nat) : List Nat :=
  (errandHands c).filter fun h => decide ((s.hand h).state = .free)

/-- Granules of 1,024 words. -/
def granules (n : Nat) : Nat := (n + 1023) / 1024

/-- The lowest base of a free Workspace span of g granules (R30). -/
def State.workspaceGap (s : State) (c g : Nat) : Option Nat :=
  let used := ((handsOf c).map s.hand).filter fun x => decide (x.state ≠ .free) && decide (0 < x.wsSize)
  (List.range (33 - g)).find? fun b =>
    used.all fun x => decide ((b + g) * 1024 ≤ x.wsBase) || decide (x.wsBase + granules x.wsSize * 1024 ≤ b * 1024)

/-- The argument granules of a core in use (R272). -/
def State.argUsed (s : State) (c : Nat) : Nat :=
  ((handsOf c).map s.hand).foldl (fun a x =>
    a + (if decide (x.state ≠ .free) && x.errand.isSome then granules (64 + x.argWords) else 0)) 0

/-- Aperture frames reserved by the errands on Hands (R318). -/
def State.reservedFrames (s : State) : Nat :=
  s.hands.foldl (fun a kv => a + (match s.verbOf kv.1 with
    | some d => d.apertures
    | none => 0)) 0

/-- The declaration of the Verb an errand names. -/
def State.declOf (s : State) (x : Errand) : Option VerbDecl :=
  (afind s.steward.almanacs (descAlmanac x.raw)).bind fun a => a.verbs[descVerb x.raw]?

/-- A core that can take the errand. -/
def State.coreFits (s : State) (x : Errand) (d : VerbDecl) (c : Nat) : Bool :=
  (s.coresIn (descTarget x.raw)).contains c && s.inService c && s.coreHolds (descAlmanac x.raw) c
    && !(s.freeHands c).isEmpty
    && (s.workspaceGap c (max 1 (granules d.workspace))).isSome
    && decide (s.argUsed c + granules (64 + d.argWords) ≤ 64)

/-- The preferences of R270, larger better: affinity, a free engine of its Hamlet, free Hands. -/
def State.corePreference (s : State) (x : Errand) (d : VerbDecl) (c : Nat) : Nat :=
  let aff := match descPage x.raw 0 with
    | some p => decide (afind s.steward.affinity p = some c)
    | none => false
  let m := c / 16
  let eng := (decide (0 < d.laneBytes) && (s.laneFree (2 * m) || s.laneFree (2 * m + 1)))
    || ((decide (d.pk5.1 ≠ 0) || decide (d.pk6.1 ≠ 0)) && (s.sliceFree (2 * m) || s.sliceFree (2 * m + 1)))
  100 * b2n aff + 10 * b2n eng + (s.freeHands c).length

/-- The core the Steward chooses: the best preference, a tie to the lower number (R270). -/
def State.chooseCore (s : State) (x : Errand) (d : VerbDecl) : Option Nat :=
  ((List.range 128).filter (s.coreFits x d)).foldl (fun b c => match b with
    | none => some c
    | some k => if s.corePreference x d k < s.corePreference x d c then some c else some k) none

/-- A waiting errand that can be placed now; none while HALTED (R602). -/
def State.placeable (s : State) (x : Errand) : Option (VerbDecl × Nat) :=
  if decide (x.phase ≠ .waiting) || x.dtag.isNone || !s.steward.started || s.watch.halted then none
  else match s.declOf x with
    | none => none
    | some d =>
      if 16384 - 512 - s.store.pins.length < s.reservedFrames + d.apertures then none
      else (s.chooseCore x d).map fun c => (d, c)

/-- The first placeable errand in the order of R265. -/
def State.firstPlaceable (s : State) : Option Nat :=
  s.firstOf (s.steward.errands.filter fun kv => (s.placeable kv.2).isSome)

/-- Zero a run of words. -/
def zeroRun (m : Memory) (lo n : Nat) : Memory := m.filter fun kv => decide (kv.1 < lo) || decide (lo + n ≤ kv.1)

/-- The device facts of the Errand Window, words 020q to 024q (R248); a best-effort errand's two words of
DEADLINE are 36 ones each (log 116). -/
def deviceFacts (x : Errand) : List Word :=
  let dl := match x.deadline with
    | some d => (wd (d / 2 ^ 32 % 2 ^ 32), wd (d % 2 ^ 32))
    | none => (0xFFFFFFFFF#36, 0xFFFFFFFFF#36)
  [wd (x.dtag.getD 0), wd x.shownSq, dl.1, dl.2, wd (bufLen x.raw 0)]

/-- Put an errand on a Hand: LOADING, with its zeroed partition and the descriptor copy (R30, R32, R248); a
member tells the master (R269). -/
def State.placeOn (s : State) (e : Nat) (x : Errand) (d : VerbDecl) (c : Nat) : State :=
  match (s.freeHands c).head?, s.workspaceGap c (max 1 (granules d.workspace)) with
  | some h, some b =>
    let g := max 1 (granules d.workspace)
    let s := s.setErrand e { x with phase := .placed h }
    let s := match x.batonTag with
      | some t => s.sendControl 0 [23, t] []
      | none => s
    let s := s.modCore c fun k => { k with workspace := zeroRun k.workspace (b * 1024) (g * 1024) }
    s.modHand h fun y => { y with
      state := .loading, errand := some e, wsBase := b * 1024, wsSize := g * 1024, argWords := d.argWords
      window := asetRun 0 [] 0 (packIn .loose x.raw ++ deviceFacts x) }
  | _, _ => s

/-- A waiting errand that can run here no more: its own cores are out of service and a member serves its target
(R36), or, at the master, a share it names has left OPEN (R305). -/
def State.mustLeave (s : State) (x : Errand) : Bool :=
  decide (x.phase = .waiting)
    && ((!s.ownServes (descTarget x.raw) && decide (s.chooseDevice x.raw (descTarget x.raw) ≠ .own))
      || (s.cascade.master && (s.pageRefusal x.raw (descTarget x.raw)).isSome))


/-- Buffer 0 is read before the errand starts (R249). -/
def Errand.wantsBuf0 (x : Errand) : Bool := bufDir x.raw 0 != 0 && bufLen x.raw 0 != 0

/-- The errand e, with its declaration and core, takes its Hand; buffer 0 is asked for. -/
def State.allocate (s : State) (e : Nat) (x : Errand) (d : VerbDecl) (c : Nat) : State :=
  let t := s.placeOn e x d c
  if x.wantsBuf0 then
    t.hostAsk (s.flitClass x) (x.batonTag.getD 0) (BitVec.ofNat 64 (bufAddr x.raw 0)) (bufLen x.raw 0)
  else t

/-- HAND_ALLOCATE: an errand that can run here no more leaves; else the first waiting errand that fits takes its
Hand, once host memory is in reach if buffer 0 must be read (R189, R217, R271). -/
def execHandAllocate (s : State) : Res :=
  match s.firstOf (s.steward.errands.filter fun kv => s.mustLeave kv.2) with
  | some e => .next (s.launch e)
  | none => match s.firstPlaceable with
    | none => s.same
    | some e => match s.errand? e with
      | none => s.same
      | some x => match s.placeable x with
        | none => s.same
        | some (d, c) => if x.wantsBuf0 && !s.dmaReady then s.same else .next (s.allocate e x d c)

/-- The Hand's registers at errand start (R76, R77, R151): SCR.W is kept. -/
def Hand.startErrand (x : Hand) (entry : BitVec 16) (warden precise : Bool) : Hand :=
  { state := .ready, errand := x.errand, wsBase := x.wsBase, wsSize := x.wsSize, argWords := x.argWords,
    window := x.window, scrW := x.scrW, pc := entry,
    st := wd (b2n warden * 2 ^ 35 + 2 ^ 33 + b2n precise * 2 ^ 32 + 2 ^ 31)
    vault := { dspec := if warden then 0x120C00000#36 else 0x121400000#36 } }

/-- Where the code image of an Almanac lies in a core's I-RAM. -/
def State.almanacBase (s : State) (c i : Nat) : Nat :=
  match (s.core c).regions.find? fun r => decide (r.kind = .almanac i) with
  | some r => r.base
  | none => 0

/-- Why a placed errand does not run after all: a share it names has left OPEN (R305), else its read of buffer 0
failed (R251), which comes after every condition of R729. -/
def State.startRefusal (s : State) (x : Errand) (buf0 : Option (List Byte)) : Refused :=
  (if s.cascade.master || s.store.own.isSome then s.pageRefusal x.raw (descTarget x.raw) else none).orElse fun _ =>
    if x.wantsBuf0 && buf0.isNone then some (0x08, 0) else none

/-- ERRAND_START: the Errand Window is filled and the Hand becomes READY; or the errand completes without
running (R76, R249, R251, R305). -/
def execErrandStart (h : HandId) (buf0 : Option (List Byte)) (s : State) : Res :=
  let x := s.hand h
  match x.state, s.errandOf h, s.verbOf h, s.almanacOf h with
  | .loading, some (e, er), some d, some a =>
    match s.startRefusal er buf0 with
    | some (st, dt) =>
      let t := (s.endErrand e st 0 dt false false).modErrand e fun z => { z with execPath := s.devicePath }
      .next (if er.wantsBuf0 && buf0.isNone then t.poisonedRead else t)
    | none =>
      let octets := if er.wantsBuf0 then padTo (bufLen er.raw 0) ((buf0.getD []).take (bufLen er.raw 0)) else []
      let ws := packIn (packOf (bufPack er.raw 0)) octets
      let entry := BitVec.ofNat 16 (s.almanacBase (coreOf h) (descAlmanac er.raw) + d.entry)
      let y := { x with window := asetRun 0 x.window 64 ws }
      .next (s.setHand h (y.startErrand entry a.warden d.precise)).settle
  | _, _, _, _ => s.same

end Sys2Proof.Machine
end

