-- ==== Sys2Proof/Machine/Transfer.lean ====
section
/-!
DEFINITION. Sys2Proof/Machine/Transfer.lean: the D-space runs that a lane, the Vault or a slice reads
and writes for a Hand (R368, R428, file 13).
-/
namespace Sys2Proof.Machine

/-- A transfer made for a Hand at a level (VINFO.MKIND 1). -/
def dmaAccessor (h level : Nat) : Accessor := { mkind := 1, master := h, level := level }

/-- Check words one after another until one is refused. -/
def checkWords (check : State → Nat → Bool × State) : Nat → Nat → State → Bool × State
  | 0, _, s => (true, s)
  | n + 1, a, s =>
    match check s a with
    | (true, t) => checkWords check n (a + 1) t
    | (false, t) => (false, t)

/-- The region rules and the core ACU on one word of a run (R368, R428, R472). -/
def State.runCore (v : AcuView) (h level start : Nat) (write : Bool) (s : State) (a : Nat) : Bool × State :=
  if 2 ^ 24 ≤ a then (false, s)
  else match dRegion (s.hand h) a write with
    | .ok => s.coreCheck v h (dmaAccessor h level) { addr := a, start := start, write := write }
    | _ => (false, s)

/-- The Hamlet ACU on one word of a run. -/
def State.runHamlet (v : AcuView) (h level start : Nat) (write : Bool) (s : State) (a : Nat) : Bool × State :=
  s.hamletCheck v h (dmaAccessor h level) { addr := a, start := start, write := write }

/-- The device ACU on one word of a run. -/
def State.runDevice (v : AcuView) (h level start : Nat) (write : Bool) (code : Nat) (s : State) (a : Nat) : Bool × State :=
  s.deviceCheck v h (dmaAccessor h level) { addr := a, start := start, write := write } code

/-- Check a run of n words from an address: each unit sees the run once the units before it have allowed all of
it (R472, R479; log 114). -/
def State.checkRun (s : State) (v : AcuView) (h level a n : Nat) (write : Bool) (code : Nat) : Bool × State :=
  let k := min n 0x28001
  match checkWords (State.runCore v h level a write) k a s with
  | (false, t) => (false, t)
  | (true, t) => match checkWords (State.runHamlet v h level a write) k a t with
    | (false, u) => (false, u)
    | (true, u) => checkWords (State.runDevice v h level a write code) k a u

/-- A page of the run that is not resident. -/
def State.runMissing (s : State) (h a n : Nat) : Option Nat :=
  (List.range n).findSome? fun i => s.missing (s.place h (a + i))

/-- The words of a run. -/
def State.readRun (s : State) (h a n : Nat) : List Word :=
  (List.range n).map fun i => s.readLoc (s.place h (a + i))

/-- A word of D-space as it stands now, none while its page is not resident. -/
def State.wordNow (s : State) (h a : Nat) : Option Word :=
  let l := s.place h a
  if (s.missing l).isSome then none else some (s.readLoc l)

/-- An operation takes note of the source words that have become resident (R370). -/
def LaneOp.look (o : LaneOp) (s : State) : LaneOp :=
  { o with seen := o.seen.zipIdx.map fun p => match p.1 with
      | some w => some w
      | none => s.wordNow o.hand (o.src + p.2) }

/-- Every lane operation takes note of the source words that have become resident (R370). -/
def State.lanesLook (s : State) : State :=
  let look (r : LaneRegs) : LaneRegs := { r with op := r.op.map fun o => o.look s }
  { s with
    lanes := s.lanes.map fun (kv : Nat × Lane) => (kv.1, { kv.2 with regs := look kv.2.regs })
    savedLanes := s.savedLanes.map fun (kv : Nat × LaneRegs) => (kv.1, look kv.2) }

/-- Write a run of words: stores by a master other than the Hand (R105). -/
def State.writeRun (s : State) (h a : Nat) (ws : List Word) : State :=
  ((List.range ws.length).zip ws).foldl (fun t p => t.storeLoc (t.place h (a + p.1)) p.2 none) s

/-- A place is a word of a page. -/
def Loc.inPage (l : Loc) (page : Nat) : Bool :=
  match l with
  | .frame p _ => p == page
  | _ => false

/-- Close an Aperture slot: the Hand's stores are performed and its reservation on a granule of the page
is lost (R105); a frame no slot holds open any more takes its place in the order of R319. -/
def State.closeSlot (s : State) (h slot : Nat) : State :=
  match afind (s.hand h).slots slot with
  | none => s
  | some a =>
    let s := (s.drain h).modHand h fun x => { x with
      slots := aerase x.slots slot
      resv := x.resv.filter fun r => !r.loc.inPage a.page }
    s.modStore fun t => { t with
      closeClock := t.closeClock + 1
      frames := match afind t.frames a.page with
        | some f => aput t.frames a.page { f with closedAt := t.closeClock + 1 }
        | none => t.frames }

/-- Close every slot of a Hand. -/
def State.closeSlots (s : State) (h : Nat) : State :=
  (s.hand h).slots.foldl (fun t kv => t.closeSlot h kv.1) s

end Sys2Proof.Machine
end

