-- ==== Sys2Proof/Machine/Grants.lean ====
section
/-!
DEFINITION. Sys2Proof/Machine/Grants.lean: granting, refusing and freeing lanes, slices, Release
Buffer space and DRBG instances (R25, R272 to R275, R385, R410), and freeing a Hand (R33).
-/
namespace Sys2Proof.Machine

/-! ### Freeing -/

/-- A lane without its holder and operation: an owed flush is done, and a trimmed lane is turned off
(R367, R564). -/
def Lane.freed (k : Lane) (powered : Bool) : Lane :=
  { k with holder := none, regs := {}, cache := if k.flushOwed || !powered then [] else k.cache, flushOwed := false }

/-- A slice without its holder: operand memory, A and ACC stay, but a trimmed slice is turned off
(R409, R411, R564). -/
def Slice.freed (k : Slice) (powered : Bool) : Slice :=
  if powered then { k with holder := none, regs := { opmem := k.regs.opmem, a := k.regs.a, acc := k.regs.acc } }
  else { k with holder := none, regs := {}, lastUser := none }

/-- The lane grant ends: the unit is free, a saved state is dropped (R272). -/
def State.dropLane (s : State) (h : Nat) : State :=
  let s := match (s.hand h).lane with
    | some l => s.modLane l fun k => k.freed (s.lanePowered l)
    | none => s
  let s := { s with savedLanes := aerase s.savedLanes h }
  s.modHand h fun x => { x with laneHeld := false, lane := none, laneReleasing := false }

/-- The slice grant ends (R409). -/
def State.dropSlice (s : State) (h : Nat) : State :=
  let s := match (s.hand h).slice with
    | some l => s.modSlice l fun k => if s.slicePowered l then { k with holder := none } else k.freed false
    | none => s
  let s := { s with savedSlices := aerase s.savedSlices h }
  s.modHand h fun x => { x with sliceHeld := false, slice := none, sliceReleasing := false }

/-- The Release Buffer space is free. -/
def State.dropRb (s : State) (h : Nat) : State := s.modHand h fun x => { x with rbBase := none, rbGranules := 0 }

/-- The DRBG instance is free; octets not read are discarded (R457). -/
def State.dropDrbg (s : State) (h : Nat) : State := s.modHand h fun x => { x with drbg := none, drbgBuf := [] }

/-- Mark a Hand FREE with everything its errand held freed; SCR.W stays (R33, R77, R434). -/
def State.freeHand (s : State) (h : Nat) : State :=
  let s := ((((s.dropLane h).dropSlice h).dropRb h).dropDrbg h).closeSlots h
  let s := s.modVault fun v => { v with staging := v.staging.filter fun kv => decide (kv.1 / 8 ≠ h) }
  let free (g : Gate) : Gate :=
    if g.owner = some h then (if g.op.isSome then { g with freeOwed := true } else { g with owner := none }) else g
  let s := { s with gateA := free s.gateA, gateB := free s.gateB }
  (s.setHand h { scrW := (s.hand h).scrW }).settle

/-! ### Granting -/

/-- R25's choice among the free units of a kind: the Hamlet's own, then the lowest of the device. -/
def chooseUnit (hamlet : Nat) (free : Nat → Bool) : Option Nat :=
  if free (2 * hamlet) then some (2 * hamlet)
  else if free (2 * hamlet + 1) then some (2 * hamlet + 1)
  else (List.range 16).find? free

/-- A free slice that serves a mode, with no mode change owed (R384, R385). -/
def State.sliceServes (s : State) (seq : Bool) (l : Nat) : Bool :=
  s.sliceFree l && (s.slice l).seqMode == seq && s.steward.sliceMode.getLsbD l == seq

/-- The lowest free run of n Release Buffer granules among 8,192 (log 74). -/
def State.rbGap (s : State) (n : Nat) : Option Nat :=
  let used := s.hands.filterMap fun kv => kv.2.rbBase.map fun b => (b, kv.2.rbGranules)
  let starts := 0 :: used.map fun u => u.1 + u.2
  (starts.filter fun b => decide (b + n ≤ 8192)
    && used.all fun u => decide (b + n ≤ u.1) || decide (u.1 + u.2 ≤ b)).foldl
    (fun a b => match a with
      | none => some b
      | some c => some (min b c)) none

/-- The lowest DRBG instance that no Hand holds. -/
def State.drbgGap (s : State) : Option Nat :=
  let used := s.hands.filterMap fun kv => kv.2.drbg
  (List.range 1024).find? fun i => !used.contains i

/-- The unit a request of KIND and AMOUNT would get now. -/
def State.unitFor (s : State) (h kind amount : Nat) : Option Nat :=
  match kind with
  | 1 => chooseUnit (hamletOf h) s.laneFree
  | 2 => chooseUnit (hamletOf h) (s.sliceServes true)
  | 3 => chooseUnit (hamletOf h) (s.sliceServes false)
  | 4 => s.rbGap amount
  | _ => s.drbgGap

/-- The GRANT event word. -/
def grantWord (reason kind unit : Nat) : Word := wd (2 ^ 35 + reason * 2 ^ 32 + kind * 2 ^ 28 + unit)

/-- Latch the GRANT event (R275). -/
def State.latchGrant (s : State) (h reason kind unit : Nat) : State :=
  (s.modHand h fun x => { x with grantEv := some (grantWord reason kind unit) }).eventTo h .grant

/-- World and key domain of the errand a Hand runs (R410). -/
def State.userOf (s : State) (h : Nat) : Bool × Nat :=
  (s.errandWarden h, match s.errandOf h with
    | some (_, x) => descAlmanac x.raw
    | none => 0)

/-- A slice as an errand receives it: registers at reset, operand memory, A and ACC zero-filled when
its world or key domain differs from the last holder's (R386, R409, R410). -/
def Slice.granted (k : Slice) (h : Nat) (user : Bool × Nat) : Slice :=
  { k with
    holder := some h
    lastUser := some user
    regs := if k.lastUser = some user then { opmem := k.regs.opmem, a := k.regs.a, acc := k.regs.acc } else {} }

/-- Give a unit to a Hand. -/
def State.giveUnit (s : State) (h kind amount unit : Nat) : State :=
  match kind with
  | 1 => (s.modLane unit fun k => { k with holder := some h, regs := {} }).modHand h fun x =>
      { x with lane := some unit, laneHeld := true }
  | 4 => s.modHand h fun x => { x with rbBase := some unit, rbGranules := amount }
  | 5 => s.modHand h fun x => { x with drbg := some unit, drbgBuf := [] }
  | _ => (s.modSlice unit fun k => k.granted h (s.userOf h)).modHand h fun x =>
      { x with slice := some unit, sliceHeld := true, sliceMac := decide (kind = 3) }

/-- KINDs of a class. -/
def kindIn (cls : GrantClass) (kind : Nat) : Bool :=
  match cls with
  | .lane => kind == 1
  | .slice => kind == 2 || kind == 3
  | .rb => kind == 4
  | .drbg => kind == 5

/-- A grant held in name whose state waits to be restored: for a cut lane operation, or for a blocked
access (R277). -/
def State.restoreWaits (s : State) (h kind : Nat) : Bool :=
  let x := s.hand h
  if kind = 1 then x.laneHeld && x.lane.isNone && (s.laneBusy h || decide (x.state = .blocked (.unit false)))
  else x.sliceHeld && x.slice.isNone && (x.sliceMac == (kind == 3)) && decide (kind = 2 ∨ kind = 3)
    && decide (x.state = .blocked (.unit true))

/-- A Hand waits for a unit of a KIND: a request of SW_REQUEST, or a restore (R274, R277). -/
def State.waitsFor (s : State) (h kind : Nat) : Bool :=
  ((s.hand h).request.any fun r => r.1 == kind) || s.restoreWaits h kind

/-- The waiting request first in the order of R265. -/
def State.firstWaiting (s : State) (kind : Nat) : Option Nat :=
  (s.hands.filter fun kv => s.waitsFor kv.1 kind).foldl (fun b kv => match b with
    | none => some kv.1
    | some h => match (s.hand h).errand, kv.2.errand with
      | some a, some c => if s.errandBefore c a then some kv.1 else some h
      | _, _ => some h) none

/-- A Hand that waited for its unit, or for a grant, runs on. -/
def State.wakeUnit (s : State) (h : Nat) (why : BlockReason) : State :=
  if (s.hand h).state = .blocked why then
    (s.modHand h fun x => { x with state := .ready }).settle
  else s

/-- A lane goes back to its former holder with the saved state (R277, R356). -/
def State.restoreLane (s : State) (h u : Nat) : State :=
  let r := (afind s.savedLanes h).getD {}
  let t := { (s.modLane u fun k => { k with holder := some h, regs := r }) with savedLanes := aerase s.savedLanes h }
  (t.modHand h fun y => { y with lane := some u }).wakeUnit h (.unit false)

/-- A slice goes back to its former holder with the saved state (R277, R386). -/
def State.restoreSlice (s : State) (h u : Nat) : State :=
  let r := (afind s.savedSlices h).getD {}
  let t := { (s.modSlice u fun k => { k with holder := some h, regs := r, lastUser := some (s.userOf h) }) with
    savedSlices := aerase s.savedSlices h }
  (t.modHand h fun y => { y with slice := some u }).wakeUnit h (.unit true)

/-- Serve the first waiter of a KIND when a unit is free for it: a request is granted, a former holder's
state restored (R274, R277). -/
def State.deliverKind (s : State) (kind : Nat) : State :=
  match s.firstWaiting kind with
  | none => s
  | some h => match (s.hand h).request.filter fun r => r.1 == kind with
    | some (k, amount) => match s.unitFor h k amount with
      | none => s
      | some u => (((s.modHand h fun x => { x with request := none }).giveUnit h k amount u).latchGrant h 0 k u).wakeUnit h .grant
    | none => match s.unitFor h kind 0 with
      | none => s
      | some u => if kind = 1 then s.restoreLane h u else s.restoreSlice h u

/-- Grant waiting requests of a KIND until no unit is free. -/
def deliverAll (kind : Nat) : Nat → State → State
  | 0, s => s
  | n + 1, s =>
    let t := s.deliverKind kind
    if t = s then s else deliverAll kind n t

/-- A Hand holds the class of a KIND (R273). -/
def Hand.holdsKind (x : Hand) (kind : Nat) : Bool :=
  match kind with
  | 1 => x.laneHeld
  | 4 => x.rbBase.isSome
  | 5 => x.drbg.isSome
  | _ => x.sliceHeld

/-- A Hand holds a class later in the order DRBG, Release Buffer, slice, lane (R273). -/
def Hand.holdsLater (x : Hand) (kind : Nat) : Bool :=
  match kind with
  | 1 => false
  | 5 => x.rbBase.isSome || x.sliceHeld || x.laneHeld
  | 4 => x.sliceHeld || x.laneHeld
  | _ => x.laneHeld

/-- Every lane of the device is trimmed. -/
def State.noLanes (s : State) : Bool := (List.range 16).all fun l => !s.lanePowered l

/-- The refusal REASON of a request (R273, SW_REQUEST). -/
def State.refuseReason (s : State) (h kind amount : Nat) : Option Nat :=
  let x := s.hand h
  if kind = 0 ∨ 5 < kind ∨ (kind = 4 ∧ (amount = 0 ∨ 1024 < amount)) ∨ (kind ≠ 4 ∧ amount ≠ 0)
      ∨ (kind = 1 ∧ s.noLanes) ∨ x.errand.isNone then some 3
  else if x.holdsKind kind || x.request.isSome then some 2
  else if x.holdsLater kind then some 1
  else none

/-- A request that was not met at once blocks the Hand (Hand state transitions table, R272; log 90). -/
def State.blockForGrant (s : State) (h : Nat) : State :=
  if (s.hand h).request.isSome && decide ((s.hand h).state = .running) then
    (s.modHand h fun x => { x with state := .blocked .grant }).settle
  else s

/-- A write of SW_REQUEST: refused, stopped for RB_KIB (R279), or placed and granted in order. -/
def State.requestGrant (s : State) (h kind amount : Nat) : State :=
  match s.refuseReason h kind amount with
  | some r => s.latchGrant h r kind 0
  | none =>
    let beyond := kind == 4 && (match s.verbOf h with
      | some d => decide (d.rbKib < (s.hand h).rbUsed + amount)
      | none => false)
    if beyond then match (s.hand h).errand with
      | some e => s.stopErrand e 0x20 5
      | none => s
    else
      let gran := if kind = 4 then (amount + 3) / 4 else 0
      let s := s.modHand h fun x => { x with
        request := some (kind, gran), rbUsed := if kind = 4 then x.rbUsed + amount else x.rbUsed }
      (deliverAll kind s.hands.length s).blockForGrant h

/-- A write of SW_RELEASE (R272). -/
def State.releaseGrant (s : State) (h kind : Nat) : State :=
  let x := s.hand h
  if x.errand.isNone then s
  else match kind with
    | 1 => if !x.laneHeld then s
      else if s.laneBusy h then s.modHand h fun x => { x with laneReleasing := true }
      else s.dropLane h
    | 2 => if !x.sliceHeld then s
      else if s.sliceBusy h then s.modHand h fun x => { x with sliceReleasing := true }
      else s.dropSlice h
    | 3 => if !x.sliceHeld then s
      else if s.sliceBusy h then s.modHand h fun x => { x with sliceReleasing := true }
      else s.dropSlice h
    | 4 => s.dropRb h
    | 5 => s.dropDrbg h
    | _ => s

/-- GRANT_LANE. -/
def execGrantLane (h : HandId) (s : State) : Res := regWrite h 0x1000 0 (fun t => t.requestGrant h 1 0) s
/-- GRANT_SLICE_SEQ. -/
def execGrantSliceSeq (h : HandId) (s : State) : Res := regWrite h 0x1000 0 (fun t => t.requestGrant h 2 0) s
/-- GRANT_SLICE_MAC. -/
def execGrantSliceMac (h : HandId) (s : State) : Res := regWrite h 0x1000 0 (fun t => t.requestGrant h 3 0) s
/-- GRANT_RB. -/
def execGrantRb (h : HandId) (kib : BitVec 12) (s : State) : Res :=
  regWrite h 0x1000 0 (fun t => t.requestGrant h 4 kib.toNat) s
/-- GRANT_DRBG. -/
def execGrantDrbg (h : HandId) (s : State) : Res := regWrite h 0x1000 0 (fun t => t.requestGrant h 5 0) s
/-- RELEASE_LANE. -/
def execReleaseLane (h : HandId) (s : State) : Res := regWrite h 0x1001 0 (fun t => t.releaseGrant h 1) s
/-- RELEASE_SLICE. -/
def execReleaseSlice (h : HandId) (s : State) : Res := regWrite h 0x1001 0 (fun t => t.releaseGrant h 2) s
/-- RELEASE_RB. -/
def execReleaseRb (h : HandId) (s : State) : Res := regWrite h 0x1001 0 (fun t => t.releaseGrant h 4) s
/-- RELEASE_DRBG. -/
def execReleaseDrbg (h : HandId) (s : State) : Res := regWrite h 0x1001 0 (fun t => t.releaseGrant h 5) s

/-- GRANT_DELIVER: a free unit of a class goes to the first waiting request (R274). -/
def execGrantDeliver (cls : GrantClass) (s : State) : Res :=
  match cls with
  | .lane => .next (s.deliverKind 1)
  | .slice => .next ((s.deliverKind 2).deliverKind 3)
  | .rb => .next (s.deliverKind 4)
  | .drbg => .next (s.deliverKind 5)

/-! ### Handback (R276 to R278) -/

/-- The state of a holder's lane moves to the save area and the unit is free. -/
def State.saveLane (s : State) (h l : Nat) : State :=
  let k := s.lane l
  let s := { s with savedLanes := aput s.savedLanes h k.regs }
  let s := s.setLane l (k.freed (s.lanePowered l))
  (s.modHand h fun x => { x with lane := none, evHandback := true }).eventTo h .steward

/-- The state of a holder's slice moves to the save area; the unit is zero-filled for its next user by
R410's comparison (R278). -/
def State.saveSlice (s : State) (h l : Nat) : State :=
  let k := s.slice l
  let s := { s with savedSlices := aput s.savedSlices h k.regs }
  let s := s.setSlice l (k.freed (s.slicePowered l))
  (s.modHand h fun x => { x with slice := none, evHandback := true }).eventTo h .steward

/-- A contracted waiter of a KIND that comes before the holder's errand, with no free unit (R276). -/
def State.handbackDue (s : State) (holder kind : Nat) : Bool :=
  match s.firstWaiting kind with
  | none => false
  | some w => match (s.hand w).errand, (s.hand holder).errand with
    | some a, some b => ((s.errand? a).any fun x => (s.deadlineOf x).isSome) && s.errandBefore a b
        && (s.unitFor w kind 0).isNone
    | _, _ => false

/-- The holder of a unit comes last in the order of R265 among the holders of its class. -/
def State.lastHolder (s : State) (h : Nat) (others : List Nat) : Bool :=
  others.all fun o => match (s.hand o).errand, (s.hand h).errand with
    | some a, some b => o == h || s.errandBefore a b
    | _, _ => true

/-- The governor no longer powers a held unit, which the Steward then takes back (R380, R413). -/
def State.laneTrimmed (s : State) (l : Nat) : Bool := !s.lanePowered l
def State.sliceTrimmed (s : State) (l : Nat) : Bool := !s.slicePowered l

/-- Hands that hold a unit of a class. -/
def State.laneHolders (s : State) : List Nat := s.lanes.filterMap fun kv => kv.2.holder
def State.sliceHolders (s : State) (seq : Bool) : List Nat :=
  s.slices.filterMap fun kv => if kv.2.seqMode == seq then kv.2.holder else none

/-- A held lane stands where it may be taken back: nothing runs on it, or a 1 MiB boundary lies within its operation
(R276). -/
def Lane.maySave (k : Lane) : Bool :=
  match k.regs.op with
  | none => true
  | some o => !o.stopped && o.boundaryInside k.regs.keyHit

/-- HANDBACK: at a safe point the unit of the last holder is taken back and granted to the contracted
waiter; a trimmed unit is taken back too (R276, R380, R413). -/
def execHandback (cls : GrantClass) (unit : Fin 16) (s : State) : Res :=
  match cls with
  | .lane => match (s.lane unit).holder with
    | none => s.same
    | some h =>
      if (s.lane unit).maySave
          && (s.laneTrimmed unit || (s.handbackDue h 1 && s.lastHolder h s.laneHolders)) then
        .next ((s.saveLane h unit).deliverKind 1)
      else s.same
  | .slice =>
    let seq := (s.slice unit).seqMode
    let kind := if seq then 2 else 3
    match (s.slice unit).holder with
    | none => s.same
    | some h =>
      if (s.slice unit).regs.op.isNone && (s.sliceTrimmed unit
          || (s.handbackDue h kind && s.lastHolder h (s.sliceHolders seq))) then
        .next ((s.saveSlice h unit).deliverKind kind)
      else s.same
  | _ => s.same

/-- The KIND of the class a Hand holds in name. -/
def Hand.heldKind (x : Hand) (cls : GrantClass) : Nat :=
  match cls with
  | .lane => 1
  | .slice => if x.sliceMac then 3 else 2
  | .rb => 4
  | .drbg => 5

/-- HANDBACK_RESTORE: a unit of the class goes to the former holder with its state restored, when its
request comes first (R274, R277, R356, R386). -/
def execHandbackRestore (h : HandId) (cls : GrantClass) (s : State) : Res :=
  let kind := (s.hand h).heldKind cls
  if s.restoreWaits h kind && decide (s.firstWaiting kind = some h.val) then .next (s.deliverKind kind) else s.same

end Sys2Proof.Machine
end

