-- ==== Sys2Proof/Machine/Aes.lean ====
section
/-!
DEFINITION. Sys2Proof/Machine/Aes.lean: the AES block cipher (FIPS 197), its S-box computed from
the inverse in GF(2^8), CMAC (SP 800-38B), and the key wraps of RFC 3394 and RFC 5649.
-/
namespace Sys2Proof.Machine

/-- Multiplication by x in GF(2^8) modulo 11Bh. -/
def aesX (b : Byte) : Byte := if b.getLsbD 7 then (b <<< 1) ^^^ 0x1B#8 else b <<< 1

/-- Multiplication in GF(2^8), over the low n bits of the second factor. -/
def aesMulBits : Nat → Byte → Byte → Byte
  | 0, _, _ => 0
  | n + 1, a, b => (if b.getLsbD 0 then a else 0) ^^^ aesMulBits n (aesX a) (b >>> 1)
def aesMul (a b : Byte) : Byte := aesMulBits 8 a b

/-- The inverse, b^254, with 0 for 0. -/
def aesInv (b : Byte) : Byte :=
  let b2 := aesMul b b
  let b3 := aesMul b2 b
  let b6 := aesMul b3 b3
  let b12 := aesMul b6 b6
  let b15 := aesMul b12 b3
  let b30 := aesMul b15 b15
  let b60 := aesMul b30 b30
  let b63 := aesMul b60 b3
  let b126 := aesMul b63 b63
  let b127 := aesMul b126 b
  aesMul b127 b127

/-- The S-box and its inverse. -/
def aesSub (b : Byte) : Byte :=
  let v := aesInv b
  v ^^^ v.rotateLeft 1 ^^^ v.rotateLeft 2 ^^^ v.rotateLeft 3 ^^^ v.rotateLeft 4 ^^^ 0x63#8
def aesUnsub (b : Byte) : Byte := aesInv (b.rotateLeft 1 ^^^ b.rotateLeft 3 ^^^ b.rotateLeft 6 ^^^ 0x05#8)

/-- Key expansion, newest words last: extend word by word (FIPS 197, 5.2). -/
def aesExpand (nk : Nat) : Nat → Nat → Byte → List (List Byte) → List (List Byte)
  | 0, _, _, ws => ws
  | n + 1, i, rc, ws =>
    let prev := ws.getLastD []
    let t := if i % nk = 0 then
        match (prev.drop 1 ++ prev.take 1).map aesSub with
        | b :: bs => (b ^^^ rc) :: bs
        | [] => []
      else if 6 < nk ∧ i % nk = 4 then prev.map aesSub else prev
    aesExpand nk n (i + 1) (if i % nk = 0 then aesX rc else rc) (ws ++ [xorOctets (ws.getD (i - nk) []) t])

/-- The round keys, 16 octets each. -/
def aesKeys (key : List Byte) : List (List Byte) :=
  let nk := key.length / 4
  (chunks 4 ((aesExpand nk (4 * (nk + 7) - nk) nk 1 (chunks 4 key)))).map List.flatten

/-- Octet i of the shifted state. -/
def aesShift (st : List Byte) : List Byte := (List.range 16).map fun i => st.getD ((i + 4 * (i % 4)) % 16) 0
def aesUnshift (st : List Byte) : List Byte := (List.range 16).map fun i => st.getD ((i + 16 - 4 * (i % 4)) % 16) 0

/-- Mix one column with a circulant of coefficients. -/
def aesColumn (k : List Byte) (c : List Byte) : List Byte :=
  (List.range 4).map fun i =>
    (List.range 4).foldl (fun a j => a ^^^ aesMul (k.getD ((j + 4 - i) % 4) 0) (c.getD j 0)) 0
def aesMix (st : List Byte) : List Byte := (chunks 4 st).flatMap (aesColumn [2, 3, 1, 1])
def aesUnmix (st : List Byte) : List Byte := (chunks 4 st).flatMap (aesColumn [14, 11, 13, 9])

/-- The middle and last rounds of encryption. -/
def aesEncRounds : List (List Byte) → List Byte → List Byte
  | [], st => st
  | [k], st => xorOctets (aesShift (st.map aesSub)) k
  | k :: ks, st => aesEncRounds ks (xorOctets (aesMix (aesShift (st.map aesSub))) k)

/-- Encrypt one 16-octet block. -/
def aesEnc (key block : List Byte) : List Byte :=
  match aesKeys key with
  | [] => block
  | k :: ks => aesEncRounds ks (xorOctets block k)

/-- The inverse rounds, keys in falling order. -/
def aesDecRounds : List (List Byte) → List Byte → List Byte
  | [], st => st
  | [k], st => xorOctets ((aesUnshift st).map aesUnsub) k
  | k :: ks, st => aesDecRounds ks (aesUnmix (xorOctets ((aesUnshift st).map aesUnsub) k))

/-- Decrypt one 16-octet block. -/
def aesDec (key block : List Byte) : List Byte :=
  match (aesKeys key).reverse with
  | [] => block
  | k :: ks => aesDecRounds ks (xorOctets block k)

/-- Doubling in GF(2^128) as CMAC uses it. -/
def cmacDouble (b : List Byte) : List Byte :=
  let n := beNat b
  beOctets 16 (if 2 ^ 127 ≤ n then (2 * n % 2 ^ 128) ^^^ 0x87 else 2 * n)

/-- CBC-MAC chaining. -/
def cbcMac (key iv : List Byte) (blocks : List (List Byte)) : List Byte :=
  blocks.foldl (fun c b => aesEnc key (xorOctets c b)) iv

def zeroBlock : List Byte := List.replicate 16 0#8

/-- AES-CMAC, 16 octets (SP 800-38B). -/
def aesCmac (key m : List Byte) : List Byte :=
  let k1 := cmacDouble (aesEnc key zeroBlock)
  let n := (m.length - 1) / 16
  let last := m.drop (16 * n)
  let final := if last.length = 16 then xorOctets last k1
    else xorOctets (padTo 16 (last ++ [0x80#8])) (cmacDouble k1)
  cbcMac key zeroBlock (chunks 16 (m.take (16 * n)) ++ [final])

/-- One wrapping step of RFC 3394 with counter t. -/
def kwStep (key : List Byte) (st : List Byte × List (List Byte)) (t : Nat) : List Byte × List (List Byte) :=
  match st.2 with
  | [] => st
  | r :: rs =>
    let b := aesEnc key (st.1 ++ r)
    (xorOctets (b.take 8) (beOctets 8 t), rs ++ [b.drop 8])

/-- The wrapping function W of RFC 3394: initial value, then the 8-octet pieces. -/
def kwWrap (key iv p : List Byte) : List Byte :=
  let rs := chunks 8 p
  let e := ((List.range (6 * rs.length)).map (· + 1)).foldl (kwStep key) (iv, rs)
  e.1 ++ e.2.flatten

/-- One unwrapping step, pieces taken from the end. -/
def kwUnstep (key : List Byte) (st : List Byte × List (List Byte)) (t : Nat) : List Byte × List (List Byte) :=
  match st.2.reverse with
  | [] => st
  | r :: rs =>
    let b := aesDec key (xorOctets st.1 (beOctets 8 t) ++ r)
    (b.take 8, b.drop 8 :: rs.reverse)

/-- The inverse of W: the initial value found and the pieces. -/
def kwUnwrap (key c : List Byte) : List Byte × List Byte :=
  let rs := chunks 8 (c.drop 8)
  let e := ((List.range (6 * rs.length)).map fun i => 6 * rs.length - i).foldl (kwUnstep key) (c.take 8, rs)
  (e.1, e.2.flatten)

/-- RFC 3394 wrap and unwrap with its default initial value. -/
def kwIv : List Byte := List.replicate 8 0xA6#8
def kwSeal (key p : List Byte) : List Byte := kwWrap key kwIv p
def kwOpen (key c : List Byte) : Option (List Byte) :=
  let r := kwUnwrap key c
  if r.1 = kwIv then some r.2 else none

/-- RFC 5649 wrap. -/
def kwpSeal (key p : List Byte) : List Byte :=
  let aiv := [0xA6#8, 0x59#8, 0x59#8, 0xA6#8] ++ beOctets 4 p.length
  let q := padTo ((p.length + 7) / 8 * 8) p
  if q.length ≤ 8 then aesEnc key (aiv ++ q) else kwWrap key aiv q

/-- RFC 5649 unwrap. -/
def kwpOpen (key c : List Byte) : Option (List Byte) :=
  let r := if c.length = 16 then (let b := aesDec key c; (b.take 8, b.drop 8)) else kwUnwrap key c
  let n := beNat (r.1.drop 4)
  if r.1.take 4 = [0xA6#8, 0x59#8, 0x59#8, 0xA6#8] ∧ r.2.length < n + 8 ∧ n ≤ r.2.length
      ∧ (r.2.drop n).all (· == 0) then some (r.2.take n) else none

end Sys2Proof.Machine
end

