-- ==== Sys2Proof/Machine/Hash.lean ====
section
/-!
DEFINITION. Sys2Proof/Machine/Hash.lean: SHA-256, SHA-384 and SHA-512 (FIPS 180-4) and HMAC, on
octet strings.
-/
namespace Sys2Proof.Machine

/-! ### Constants, from the roots of the first primes (FIPS 180-4, 4.2 and 5.3) -/

/-- Prime, for a number below 22 squared. -/
def smallPrime (n : Nat) : Bool := decide (2 ≤ n) && (List.range 22).all fun d => decide (d < 2) || n == d || n % d != 0

/-- The first 80 primes: those up to 409. -/
def firstPrimes : List Nat := (List.range 410).filter smallPrime

/-- The largest r with r ^ k at most n, found bit by bit from bit i - 1 of r down. -/
def rootFloor (k n : Nat) : Nat → Nat → Nat
  | 0, r => r
  | i + 1, r => rootFloor k n i (if (r + 2 ^ i) ^ k ≤ n then r + 2 ^ i else r)

/-- The first 64 bits of the fractional part of the k-th root of p, a root below 32. -/
def rootFraction (k p : Nat) : Nat := rootFloor k (p * 2 ^ (64 * k)) 69 0 % 2 ^ 64

/-- The round constants of SHA-384 and SHA-512, of cube roots; SHA-256 takes the high halves of the first 64. -/
def shaK : List Nat := firstPrimes.map (rootFraction 3)

/-- The initial values of SHA-512, of the square roots of the first eight primes; SHA-256 takes their high halves. -/
def sha512Init : List Nat := (firstPrimes.take 8).map (rootFraction 2)

/-- The initial values of SHA-384, of the square roots of the ninth to the sixteenth prime. -/
def sha384Init : List Nat := ((firstPrimes.drop 8).take 8).map (rootFraction 2)

/-- Rotation amounts of one hash: Σ0, Σ1, σ0 and σ1 (the last entry of a σ is a shift). -/
structure ShaShape where
  width : Nat
  big0 : Nat × Nat × Nat
  big1 : Nat × Nat × Nat
  small0 : Nat × Nat × Nat
  small1 : Nat × Nat × Nat

def sha256Shape : ShaShape := { width := 32, big0 := (2, 13, 22), big1 := (6, 11, 25), small0 := (7, 18, 3), small1 := (17, 19, 10) }
def sha512Shape : ShaShape := { width := 64, big0 := (28, 34, 39), big1 := (14, 18, 41), small0 := (1, 8, 7), small1 := (19, 61, 6) }

/-- Rotate right within the word width. -/
def shaRot (w x n : Nat) : Nat := (x >>> n) ||| ((x <<< (w - n)) % 2 ^ w)
def shaBig (c : ShaShape) (r : Nat × Nat × Nat) (x : Nat) : Nat :=
  shaRot c.width x r.1 ^^^ shaRot c.width x r.2.1 ^^^ shaRot c.width x r.2.2
def shaSmall (c : ShaShape) (r : Nat × Nat × Nat) (x : Nat) : Nat :=
  shaRot c.width x r.1 ^^^ shaRot c.width x r.2.1 ^^^ (x >>> r.2.2)

/-- One round over the eight working values. -/
def shaRound (c : ShaShape) (v : List Nat) (kw : Nat) : List Nat :=
  match v with
  | [a, b, cc, d, e, f, g, h] =>
    let m := 2 ^ c.width
    let ch := (e &&& f) ^^^ ((m - 1 - e) &&& g)
    let t1 := (h + shaBig c c.big1 e + ch + kw) % m
    let t2 := (shaBig c c.big0 a + ((a &&& b) ^^^ (a &&& cc) ^^^ (b &&& cc))) % m
    [(t1 + t2) % m, a, b, cc, (d + t1) % m, e, f, g]
  | _ => v

/-- The message schedule rolled: a window of 16 words gives its head and the next window. -/
def shaNext (c : ShaShape) (w : List Nat) : List Nat :=
  w.drop 1 ++ [(shaSmall c c.small1 (w.getD 14 0) + w.getD 9 0 + shaSmall c c.small0 (w.getD 1 0) + w.getD 0 0) % 2 ^ c.width]

/-- All rounds of one block. -/
def shaRounds (c : ShaShape) : List Nat → List Nat → List Nat → List Nat
  | [], _, v => v
  | k :: ks, w, v => shaRounds c ks (shaNext c w) (shaRound c v (k + w.headD 0))

/-- One block into the hash value. -/
def shaBlock (c : ShaShape) (ks : List Nat) (hv : List Nat) (block : List Byte) : List Nat :=
  List.zipWith (fun a b => (a + b) % 2 ^ c.width) hv (shaRounds c ks ((chunks (c.width / 8) block).map beNat) hv)

/-- Padding to whole blocks (FIPS 180-4, 5.1). -/
def shaPad (c : ShaShape) (m : List Byte) : List Byte :=
  let blk := 2 * c.width
  let len := c.width / 4
  let z := (blk - (m.length + 1 + len) % blk) % blk
  m ++ 0x80#8 :: List.replicate z 0#8 ++ beOctets len (8 * m.length)

def shaWith (c : ShaShape) (ks ini : List Nat) (out : Nat) (m : List Byte) : List Byte :=
  (((chunks (2 * c.width) (shaPad c m)).foldl (shaBlock c ks) ini).flatMap (beOctets (c.width / 8))).take out

/-- SHA-256. -/
def sha256 (m : List Byte) : List Byte :=
  shaWith sha256Shape ((shaK.take 64).map (· >>> 32)) (sha512Init.map (· >>> 32)) 32 m
/-- SHA-384. -/
def sha384 (m : List Byte) : List Byte := shaWith sha512Shape shaK sha384Init 48 m
/-- SHA-512. -/
def sha512 (m : List Byte) : List Byte := shaWith sha512Shape shaK sha512Init 64 m

/-- HMAC with a hash of a given block length (RFC 2104). -/
def hmac (hash : List Byte → List Byte) (block : Nat) (key m : List Byte) : List Byte :=
  let k := padTo block (if block < key.length then hash key else key)
  hash (k.map (· ^^^ 0x5C#8) ++ hash (k.map (· ^^^ 0x36#8) ++ m))
def hmac256 (key m : List Byte) : List Byte := hmac sha256 64 key m
def hmac384 (key m : List Byte) : List Byte := hmac sha384 128 key m

end Sys2Proof.Machine
end

