-- ==== Sys2Proof/Machine/Ecc.lean ====
section
/-!
DEFINITION. Sys2Proof/Machine/Ecc.lean: modular arithmetic, the NIST prime curves with ECDSA and
ECDH (FIPS 186-5, SP 800-56A), X25519 (RFC 7748) and Ed25519 (RFC 8032).
-/
namespace Sys2Proof.Machine

/-- b^e modulo m, over the low n bits of e. -/
def powModBits (m : Nat) : Nat → Nat → Nat → Nat
  | 0, _, _ => 1 % m
  | n + 1, b, e =>
    let r := powModBits m n (b * b % m) (e / 2)
    if e % 2 = 1 then b * r % m else r
def powMod (m b e : Nat) : Nat := powModBits m (e.log2 + 1) (b % m) e

/-- Inverse modulo a prime. -/
def invMod (m a : Nat) : Nat := powMod m a (m - 2)
/-- Subtraction modulo m. -/
def subMod (m a b : Nat) : Nat := (a % m + m - b % m) % m

/-- A prime curve y² = x³ - 3x + b. -/
structure Curve where
  p : Nat
  b : Nat
  n : Nat
  gx : Nat
  gy : Nat
  /-- octets of a coordinate. -/
  size : Nat

def p256 : Curve :=
  { p := 0xFFFFFFFF00000001000000000000000000000000FFFFFFFFFFFFFFFFFFFFFFFF
    b := 0x5AC635D8AA3A93E7B3EBBD55769886BC651D06B0CC53B0F63BCE3C3E27D2604B
    n := 0xFFFFFFFF00000000FFFFFFFFFFFFFFFFBCE6FAADA7179E84F3B9CAC2FC632551
    gx := 0x6B17D1F2E12C4247F8BCE6E563A440F277037D812DEB33A0F4A13945D898C296
    gy := 0x4FE342E2FE1A7F9B8EE7EB4A7C0F9E162BCE33576B315ECECBB6406837BF51F5
    size := 32 }
def p384 : Curve :=
  { p := 0xFFFFFFFFFFFFFFFFFFFFFFFFFFFFFFFFFFFFFFFFFFFFFFFFFFFFFFFFFFFFFFFEFFFFFFFF0000000000000000FFFFFFFF
    b := 0xB3312FA7E23EE7E4988E056BE3F82D19181D9C6EFE8141120314088F5013875AC656398D8A2ED19D2A85C8EDD3EC2AEF
    n := 0xFFFFFFFFFFFFFFFFFFFFFFFFFFFFFFFFFFFFFFFFFFFFFFFFC7634D81F4372DDF581A0DB248B0A77AECEC196ACCC52973
    gx := 0xAA87CA22BE8B05378EB1C71EF320AD746E1D3B628BA79B9859F741E082542A385502F25DBF55296C3A545E3872760AB7
    gy := 0x3617DE4A96262C6F5D9E98BF9292DC29F8F41DBD289A147CE9DA3113B5F0B8C00A60B1CE1D7E819D7A431D7C90EA0E5F
    size := 48 }
def p521 : Curve :=
  { p := 2 ^ 521 - 1
    b := 0x051953EB9618E1C9A1F929A21A0B68540EEA2DA725B99B315F3B8B489918EF109E156193951EC7E937B1652C0BD3BB1BF073573DF883D2C34F1EF451FD46B503F00
    n := 0x1FFFFFFFFFFFFFFFFFFFFFFFFFFFFFFFFFFFFFFFFFFFFFFFFFFFFFFFFFFFFFFFFFA51868783BF2F966B7FCC0148F709A5D03BB5C9B8899C47AEBB6FB71E91386409
    gx := 0x0C6858E06B70404E9CD9E3ECB662395B4429C648139053FB521F828AF606B4D3DBAA14B5E77EFE75928FE1DC127A2FFA8DE3348B3C1856A429BF97E7E31C2E5BD66
    gy := 0x11839296A789A3BC0045C8A5FB42C7D1BD998F54449579B446817AFBD17273E662C97EE72995EF42640C550B9013FAD0761353C7086A272C24088BE94769FD16650
    size := 66 }

/-- A point, none the point at infinity. -/
abbrev Point := Option (Nat × Nat)

def Curve.on (c : Curve) (x y : Nat) : Bool :=
  decide (x < c.p) && decide (y < c.p) && y * y % c.p == (subMod c.p (x * x * x) (3 * x) + c.b) % c.p

/-- The group law in affine form. -/
def Curve.add (c : Curve) (P Q : Point) : Point :=
  match P, Q with
  | none, _ => Q
  | _, none => P
  | some (x1, y1), some (x2, y2) =>
    if x1 = x2 ∧ (y1 + y2) % c.p = 0 then none
    else
      let l := if x1 = x2 then subMod c.p (3 * x1 * x1) 3 * invMod c.p (2 * y1) % c.p
        else subMod c.p y2 y1 * invMod c.p (subMod c.p x2 x1) % c.p
      let x3 := subMod c.p (l * l) (x1 + x2)
      some (x3, subMod c.p (l * subMod c.p x1 x3) y1)

/-- k times a point, over the low n bits of k. -/
def Curve.mulBits (c : Curve) : Nat → Nat → Point → Point
  | 0, _, _ => none
  | n + 1, k, P =>
    let r := c.mulBits n (k / 2) (c.add P P)
    if k % 2 = 1 then c.add P r else r
def Curve.mul (c : Curve) (k : Nat) (P : Point) : Point := c.mulBits (k.log2 + 1) k P
def Curve.base (c : Curve) : Point := some (c.gx, c.gy)

/-- The leftmost bits of a digest as an integer modulo nothing (FIPS 186-5, 6.4). -/
def Curve.digest (c : Curve) (e : List Byte) : Nat :=
  let bits := c.n.log2 + 1
  if bits < 8 * e.length then beNat e >>> (8 * e.length - bits) else beNat e

/-- An ECDSA signature (r, s) of a digest with per-message secret k; none when r or s is 0. -/
def Curve.sign (c : Curve) (d k : Nat) (e : List Byte) : Option (Nat × Nat) :=
  match c.mul k c.base with
  | none => none
  | some (x, _) =>
    let r := x % c.n
    let s := invMod c.n k * ((c.digest e + r * d) % c.n) % c.n
    if r = 0 ∨ s = 0 then none else some (r, s)

/-- ECDSA verification of (r, s). -/
def Curve.verify (c : Curve) (q : Nat × Nat) (e : List Byte) (r s : Nat) : Bool :=
  if r = 0 ∨ s = 0 ∨ c.n ≤ r ∨ c.n ≤ s ∨ c.on q.1 q.2 = false then false
  else
    let w := invMod c.n s
    match c.add (c.mul (c.digest e * w % c.n) c.base) (c.mul (r * w % c.n) (some q)) with
    | none => false
    | some (x, _) => x % c.n == r

/-- The ECDH shared x coordinate; none for a point not on the curve or a result at infinity. -/
def Curve.agree (c : Curve) (d : Nat) (q : Nat × Nat) : Option (List Byte) :=
  if !c.on q.1 q.2 then none
  else (c.mul d (some q)).map fun z => beOctets c.size z.1

/-! ### X25519 -/

def p25519 : Nat := 2 ^ 255 - 19

/-- One step of the ladder: x1, swapped pairs and the bit. -/
def x25519Step (x1 : Nat) (st : Nat × Nat × Nat × Nat) (bit : Bool) : Nat × Nat × Nat × Nat :=
  let p := p25519
  let (x2, z2, x3, z3) := if bit then (st.2.2.1, st.2.2.2, st.1, st.2.1) else st
  let a := (x2 + z2) % p
  let b := subMod p x2 z2
  let c := (x3 + z3) % p
  let d := subMod p x3 z3
  let aa := a * a % p
  let bb := b * b % p
  let e := subMod p aa bb
  let da := d * a % p
  let cb := c * b % p
  let sm := da + cb
  let df := subMod p da cb
  let x5 := sm * sm % p
  let z5 := x1 * (df * df % p) % p
  let x4 := aa * bb % p
  let z4 := e * ((aa + 121665 * e) % p) % p
  if bit then (x5, z5, x4, z4) else (x4, z4, x5, z5)

/-- X25519 of a scalar and a u coordinate, 32 octets each (RFC 7748). -/
def x25519 (k u : List Byte) : List Byte :=
  let kn := leNat k
  let kc := (kn % 2 ^ 254 / 8 * 8) + 2 ^ 254
  let x1 := leNat u % 2 ^ 255 % p25519
  let r := ((List.range 255).reverse).foldl (fun st i => x25519Step x1 st (bitOf kc i)) (1, 0, x1, 1)
  leOctets 32 (r.1 * invMod p25519 r.2.1 % p25519)

/-! ### Ed25519 -/

def edD : Nat := subMod p25519 0 (121665 * invMod p25519 121666)
def edL : Nat := 2 ^ 252 + 27742317777372353535851937790883648493

/-- Addition on the twisted Edwards curve, affine. -/
def edAdd (a b : Nat × Nat) : Nat × Nat :=
  let p := p25519
  let k := edD * (a.1 * b.1 % p) % p * (a.2 * b.2 % p) % p
  ((a.1 * b.2 + b.1 * a.2) % p * invMod p (1 + k) % p,
   (a.2 * b.2 + a.1 * b.1) % p * invMod p (subMod p 1 k) % p)

def edMulBits : Nat → Nat → Nat × Nat → Nat × Nat
  | 0, _, _ => (0, 1)
  | n + 1, k, a =>
    let r := edMulBits n (k / 2) (edAdd a a)
    if k % 2 = 1 then edAdd a r else r
def edMul (k : Nat) (a : Nat × Nat) : Nat × Nat := edMulBits (k.log2 + 1) k a

/-- The x of a y with a given sign bit (RFC 8032, 5.1.3). -/
def edX (y sign : Nat) : Option Nat :=
  let p := p25519
  if p ≤ y then none
  else
    let u := subMod p (y * y) 1
    let v := (edD * (y * y % p) + 1) % p
    let x2 := u * invMod p v % p
    let x := powMod p x2 ((p + 3) / 8)
    let x := if x * x % p = x2 then x else x * powMod p 2 ((p - 1) / 4) % p
    if x * x % p ≠ x2 then none
    else if x = 0 ∧ sign = 1 then none
    else some (if x % 2 = sign then x else p - x)

def edBase : Nat × Nat :=
  let y := 4 * invMod p25519 5 % p25519
  ((edX y 0).getD 0, y)
def edEncode (a : Nat × Nat) : List Byte := leOctets 32 (a.2 + a.1 % 2 * 2 ^ 255)
def edDecode (bs : List Byte) : Option (Nat × Nat) :=
  let n := leNat bs
  let y := n % 2 ^ 255
  (edX y (n / 2 ^ 255)).map fun x => (x, y)

/-- The secret scalar and prefix of a 32-octet seed. -/
def edSecret (seed : List Byte) : Nat × List Byte :=
  let h := sha512 seed
  ((leNat (h.take 32) % 2 ^ 254 / 8 * 8) + 2 ^ 254, h.drop 32)
def edPublic (seed : List Byte) : List Byte := edEncode (edMul (edSecret seed).1 edBase)

/-- Ed25519 signature. -/
def edSign (seed m : List Byte) : List Byte :=
  let s := edSecret seed
  let a := edPublic seed
  let r := leNat (sha512 (s.2 ++ m)) % edL
  let rb := edEncode (edMul r edBase)
  let k := leNat (sha512 (rb ++ a ++ m)) % edL
  rb ++ leOctets 32 ((r + k * s.1) % edL)

/-- Ed25519 verification: FIPS 186-5, 7.7, multiplies both sides by the cofactor 8 (R401). -/
def edVerify (pub m sig : List Byte) : Bool :=
  let s := leNat (sig.drop 32)
  match edDecode pub, edDecode (sig.take 32) with
  | some a, some r =>
    let k := leNat (sha512 (sig.take 32 ++ pub ++ m)) % edL
    decide (s < edL) && decide (edMul 8 (edMul s edBase) = edMul 8 (edAdd r (edMul k a)))
  | _, _ => false

end Sys2Proof.Machine
end

