-- ==== Sys2Proof/Machine/PkTable.lean ====
section
/-!
DEFINITION. Sys2Proof/Machine/PkTable.lean: the parameter sets and their cycles (R397, R406), and the
attribute word and check value of a key (R420 to R425).
-/
namespace Sys2Proof.Machine

/-- Slice cycles of a parameter set and operation; none where the table gives no count (R406). -/
def pkCycles (pset op : Nat) : Option Nat :=
  match pset, op with
  | 1, 1 => some 78000
  | 1, 2 => some 80000
  | 1, 3 => some 160000
  | 1, 4 => some 78000
  | 2, 1 => some 176000
  | 2, 2 => some 180000
  | 2, 3 => some 360000
  | 2, 4 => some 176000
  | 3, 1 => some 300000
  | 3, 2 => some 305000
  | 3, 3 => some 610000
  | 3, 4 => some 300000
  | 4, 1 => some 56000
  | 4, 2 => some 60000
  | 4, 3 => some 130000
  | 5, 1 => some 56000
  | 5, 4 => some 55000
  | 6, 2 => some 300000
  | 6, 3 => some 9000
  | 7, 2 => some 1000000
  | 7, 3 => some 20000
  | 8, 2 => some 2360000
  | 8, 3 => some 36000
  | 9, 1 => some 30000
  | 9, 5 => some 34000
  | 9, 6 => some 40000
  | 10, 1 => some 46000
  | 10, 5 => some 50000
  | 10, 6 => some 58000
  | 11, 3 => some 120000
  | 12, 3 => some 190000
  | _, _ => none

/-! ### Attribute word -/

def attrType (w : Word) : Nat := wfield w 35 28
def attrPurpose (w : Word) : Nat := wfield w 27 25
/-- 1 WARDEN, 2 COMMON, 3 BOTH. -/
def attrWorld (w : Word) : Nat := wfield w 24 23
def attrBulk (w : Word) : Bool := w.getLsbD 22
def attrImported (w : Word) : Bool := w.getLsbD 21
def attrExportable (w : Word) : Bool := w.getLsbD 20
def attrCode (w : Word) : Bool := w.getLsbD 19

/-- A key's WORLD admits a world (R423). -/
def worldAllows (w : Word) (warden : Bool) : Bool :=
  attrWorld w == 3 || attrWorld w == (if warden then 1 else 2)

/-- TYPE, PURPOSE and BULK as the Key types table allows. -/
def typeAllows (w : Word) : Bool :=
  let t := attrType w
  let p := attrPurpose w
  let kind :=
    if t = 1 ∨ t = 2 ∨ t = 3 then p == 5 || p == 6 || p == 7
    else if t = 4 then p == 5 || p == 6
    else if t = 5 then p == 7
    else if t = 6 ∨ t = 7 ∨ t = 8 then p == 5 || p == 6
    else if t = 9 ∨ t = 10 then p == 7
    else if t = 11 ∨ t = 12 then p == 6
    else if t = 0x10 ∨ t = 0x12 then decide (p ≤ 4)
    else if t = 0x11 then decide (p ≤ 3)
    else if t = 0x13 ∨ t = 0x14 then p == 0 || p == 1
    else t == 0x20 && p == 4
  kind && (!attrBulk w || (0x10 ≤ t && t ≤ 0x14 && decide (p ≤ 3)))

/-- Octets of a symmetric key by TYPE. -/
def symSize (t : Nat) : Nat :=
  match t with
  | 0x10 => 16
  | 0x11 => 24
  | 0x12 => 32
  | 0x13 => 32
  | 0x14 => 64
  | _ => 0

/-- The AES key a check value is computed under: octets that form no AES key take a free value, as
the spec states no result for them (R425; log 35). -/
def symKcv (key : List Byte) : Nat :=
  if key.length = 16 ∨ key.length = 24 ∨ key.length = 32 then beNat ((aesCmac key zeroBlock).take 5) / 16
  else Config.oddKcv key

/-- A key's check value, 36 bits (R425). -/
def KeyObj.kcv (k : KeyObj) : Word :=
  if attrType k.attr < 0x10 then wd (beNat ((sha384 k.pub).take 5) / 16) else wd (symKcv k.material)

/-- A point of a P-curve from its SEQUENCER operand form, x ‖ y. -/
def pointOf (c : Curve) (bs : List Byte) : Nat × Nat := (beNat (bs.take c.size), beNat ((bs.drop c.size).take c.size))

/-- The curve of parameter sets 01h to 03h. -/
def curveOf (pset : Nat) : Curve :=
  match pset with
  | 1 => p256
  | 2 => p384
  | _ => p521

/-- Verify r ‖ s over a digest with a public key x ‖ y. -/
def ecVerify (c : Curve) (pub digest sig : List Byte) : Bool :=
  c.verify (pointOf c pub) digest (beNat (sig.take c.size)) (beNat ((sig.drop c.size).take c.size))

end Sys2Proof.Machine
end

