-- ==== Sys2Proof/Machine/Contracts.lean ====
section
/-!
DEFINITION. Sys2Proof/Machine/Contracts.lean: the admission test, contract commands and re-tests
(R281 to R292, R731). Times are in 1/32 ns where marked, else in ns; the arithmetic is exact (R287).
-/
namespace Sys2Proof.Machine

/-! ### Pools (R286, R291, R731) -/

/-- A device as pools see it. -/
structure PoolDevice where
  /-- its DEVICE path. -/
  path : Word
  /-- core numbers within it that are in service, or all of a member's. -/
  cores : List Nat
  /-- how many of them serve. -/
  serving : Nat
  /-- governor: 0 Sprint to 3 trip. -/
  gov : Nat
  /-- a member: its SEAL capacity is R531's. -/
  member : Bool
deriving DecidableEq, Repr

/-- The present devices of the Holding. -/
def State.poolDevices (s : State) : List PoolDevice :=
  let cs := (List.range 128).filter s.inService
  { path := s.devicePath, cores := cs, serving := cs.length, gov := govNat s.power.gov, member := !s.cascade.master } ::
    ((s.cascade.entries.filter fun kv => decide (kv.2.state = .present)).map fun kv =>
      { path := kv.2.path, cores := List.range 128, serving := kv.2.cores, gov := kv.2.gov, member := true })

/-- The devices of a target. -/
def State.targetDevices (s : State) (target : Word) : List PoolDevice :=
  s.poolDevices.filter fun d =>
    if pathLevel target = 0 then deviceUnder d.path target else pathDevice d.path == pathDevice target

/-- Units a device gives a class, scaled by 64: half in Limp, none in a trip (R291). -/
def PoolDevice.scale (d : PoolDevice) (n : Nat) : Nat :=
  if d.gov = 3 then 0 else if d.gov = 2 then n / 2 else n

/-- The classes of the test. -/
inductive PoolClass where
  | core | hand | lane | pk | seal
deriving DecidableEq, Repr

def PoolClass.number (k : PoolClass) : Nat :=
  match k with
  | .core => 1
  | .hand => 2
  | .lane => 3
  | .pk => 4
  | .seal => 5

/-- The cores of a device that a target takes. -/
def targetCores (target : Word) (d : PoolDevice) : List Nat :=
  match pathLevel target with
  | 2 => d.cores.filter fun c => c / 16 == pathHamlet target
  | 3 => d.cores.filter fun c => c == 16 * pathHamlet target + pathCore target
  | _ => d.cores

/-- Capacity of a class that a device gives a target, scaled by 64 (Pools table). -/
def PoolDevice.capacity (d : PoolDevice) (target : Word) (k : PoolClass) : Nat :=
  let cs := targetCores target d
  let n := if cs.length = d.cores.length then d.serving else cs.length
  match k with
  | .core => d.scale (n * 64)
  | .hand => d.scale ((4 * n - b2n (cs.contains 0)) * 64)
  | .lane => d.scale (256000 * 64)
  | .pk => d.scale (24000 * 64)
  | .seal => d.scale (if d.member then 200 else 500)

/-- The classes in the order of the test (R287). -/
def poolClasses : List PoolClass := [.core, .hand, .lane, .pk, .seal]

/-- A pool: what it covers, as atoms, and its capacity scaled by 64. -/
structure Pool where
  atoms : List (Nat × Nat)
  cap : Nat
deriving DecidableEq, Repr

/-- A device has less capacity for a target than another: by SEAL, then by CORE, then by the lower path (R286
names no class; log 97). -/
def lessCapacity (target : Word) (a b : PoolDevice) : Bool :=
  keyBefore (a.capacity target .seal, a.capacity target .core, a.path.toNat)
    (b.capacity target .seal, b.capacity target .core, b.path.toNat)

/-- The one device of least capacity, for every pool of a contract (R286). -/
def leastDevice (target : Word) (ds : List PoolDevice) : List PoolDevice :=
  (ds.foldl (fun (b : Option PoolDevice) d => match b with
    | none => some d
    | some x => some (if lessCapacity target d x then d else x)) none).toList

/-! ### What a contract costs -/

/-- The declarations of a contract's Verbs. -/
def State.contractVerbs (s : State) (c : Contract) : List VerbDecl :=
  c.verbs.filterMap fun v => (afind s.steward.almanacs v.1).bind fun a => a.verbs[v.2]?

/-- C[PK] of a Verb in slice cycles. -/
def VerbDecl.pkCost (d : VerbDecl) : Nat :=
  let one (w : Nat × Nat × Nat) : Nat :=
    if w.1 = 0 then 0 else if w.1 = 0x7F then 1000 * w.2.2 else w.2.2 * (pkCycles w.1 w.2.1).getD 0
  one d.pk5 + one d.pk6

def maxOf (l : List Nat) : Nat := l.foldl max 0

/-- The pool a contract takes for a class (R286, R731). -/
def State.poolOf (s : State) (c : Contract) (k : PoolClass) : Pool :=
  let ds := s.targetDevices c.target
  let one := decide (0 < maxOf ((s.contractVerbs c).map (·.storeMisses))) || decide (k = .seal)
  let ds := if one && pathLevel c.target ≤ 1 then leastDevice c.target ds else ds
  let atoms := match k with
    | .core => ds.flatMap fun d => (targetCores c.target d).map fun n => (d.path.toNat, n)
    | .hand => ds.flatMap fun d => (targetCores c.target d).map fun n => (d.path.toNat, n)
    | _ => ds.map fun d => (d.path.toNat, 0)
  { atoms := atoms, cap := ds.foldl (fun a d => a + d.capacity c.target k) 0 }

/-- The pools of a contract include a device (R292). -/
def State.poolsOn (s : State) (c : Contract) (device : Word) : Bool :=
  poolClasses.any fun k => (s.poolOf c k).atoms.any fun a => a.1 / 2 ^ 15 == pathDevice device

def Pool.overlaps (a b : Pool) : Bool := a.atoms.any b.atoms.contains
def Pool.inside (a b : Pool) : Bool := a.atoms.all b.atoms.contains

/-- The smallest tolerance applying to a ring, in ns (R560). -/
def State.ringTolerance (s : State) (n : Nat) : Nat :=
  match afind s.power.ltRingForce n with
  | some t => min t s.power.ltForce
  | none => s.power.ltForce

/-- E: exit latency in ns of the state R559 would choose (R560). -/
def State.exitLatency (s : State) (tol : Nat) : Nat :=
  let portsDown := s.cascade.ports.all fun kv => decide (kv.2.state = .down)
  if 3000000 ≤ tol && portsDown then 3000000
  else if 40000 ≤ tol then 40000
  else if 200 ≤ tol then 200
  else 0

/-- What the test uses of one contract; times in ns, W in 1/32 ns. -/
structure Cost where
  ring : Nat
  rate : Nat
  burst : Nat
  /-- D in ticks. -/
  deadline : Nat
  /-- C by class, times 1,000. -/
  cCore : Nat
  cLane : Nat
  cPk : Nat
  cSeal : Nat
  x : Nat
  bLane : Nat
  bPk : Nat
  w : Nat

/-- The longest SEQUENCER operation any loaded Verb declares, in cycles. -/
def State.longestPk (s : State) : Nat :=
  maxOf (s.steward.almanacs.flatMap fun kv => kv.2.verbs.flatMap fun d =>
    [d.pk5, d.pk6].map fun w => if w.1 = 0 ∨ w.1 = 0x7F then 0 else (pkCycles w.1 w.2.1).getD 0)

/-- The figures of a contract on a ring. -/
def State.costOf (s : State) (n : Nat) (c : Contract) : Cost :=
  let vs := s.contractVerbs c
  let core := maxOf (vs.map (·.coreNs))
  let lane := maxOf (vs.map (·.laneBytes))
  let pk := maxOf (vs.map VerbDecl.pkCost)
  let miss := maxOf (vs.map (·.storeMisses))
  let slices := vs.any fun d => d.pk5.1 != 0 || d.pk6.1 != 0
  let x := s.exitLatency (s.ringTolerance n) + s.steward.ctMemlat
    + 400 * maxOf ((s.targetDevices c.target).map fun d => hopsOf d.path)
  let bLane := if lane = 0 then 0 else 33300
  let bPk := if slices then s.longestPk / 2 + 4500 else 0
  { ring := n, rate := c.rate, burst := c.burst, deadline := c.deadline,
    cCore := core, cLane := lane * 1000, cPk := pk * 1000, cSeal := miss * 1000, x := x, bLane := bLane, bPk := bPk,
    w := 32 * (x + core + miss * (2 * s.steward.ctMemlat + 1600) + bLane + bPk) + lane + 16 * pk }

def Cost.c (a : Cost) (k : PoolClass) : Nat :=
  match k with
  | .core => a.cCore
  | .lane => a.cLane
  | .pk => a.cPk
  | .seal => a.cSeal
  | .hand => 0

def Cost.b (a : Cost) (k : PoolClass) : Nat :=
  match k with
  | .lane => a.bLane
  | .pk => a.bPk
  | _ => 0

def sumOf (l : List Nat) : Nat := l.foldl (· + ·) 0

/-- A failed test: TEST, CLASS and POINT of CT_RESULT. -/
abbrev TestFail := Nat × Nat × Nat

/-- TEST 1 over the contracts of a run. -/
def test1 (cs : List Cost) : Option TestFail :=
  (cs.find? fun a => decide (a.deadline * 320 < a.w)).map fun a => (1, 0, (a.w + 319) / 320)

/-- TESTs 2 and 3 of class HAND. -/
def testHand (cap : Nat) (cs : List Cost) : Option TestFail :=
  let q := 31 * cap * 10 ^ 9
  let load := 64 * sumOf (cs.map fun a => a.rate * a.w)
  if q < load then some (2, 2, 0)
  else if q < load + 64 * 32 * 10 ^ 9 * sumOf (cs.map (·.burst)) then some (3, 2, 0)
  else none

/-- The demand at a point t, in units of 10^-11. -/
def demandAt (k : PoolClass) (cs : List Cost) (t : Nat) : Nat :=
  sumOf (cs.map fun a => if a.deadline ≤ t then (a.burst * 10 ^ 8 + a.rate * (t - a.deadline)) * a.c k else 0)

/-- TESTs 2 and 3 of the other classes. -/
def testClass (k : PoolClass) (cap : Nat) (cs : List Cost) : Option TestFail :=
  if 31 * cap * 10 ^ 9 < 2048 * sumOf (cs.map fun a => a.rate * a.c k) then some (2, k.number, 0)
  else
    let lost := maxOf (cs.map (·.x)) + maxOf (cs.map fun a => a.b k)
    let points := (cs.map (·.deadline)).mergeSort (· ≤ ·)
    (points.find? fun t => decide (31 * cap * (10 * t - lost) * 10 ^ 8 < 2048 * demandAt k cs t)).map fun t =>
      (3, k.number, t)

/-- TESTs 2 and 3 of one run: the contracts of a pool, one class (R287). -/
def runTest (k : PoolClass) (cap : Nat) (cs : List Cost) : Option TestFail :=
  match k with
  | .hand => testHand cap cs
  | _ => testClass k cap cs

/-- The group of a contract (R731). -/
def State.group (s : State) (new : Nat × Contract) (others : List (Nat × Contract)) : List (Nat × Contract) :=
  new :: others.filter fun o => poolClasses.any fun k => (s.poolOf o.2 k).overlaps (s.poolOf new.2 k)

/-- The runs of one class, in ascending order of pool size: the first failure (R731). -/
def State.classRuns (s : State) (group : List (Nat × Contract)) (costs : List ((Nat × Contract) × Cost)) (k : PoolClass) :
    Option TestFail :=
  let pools := ((group.map fun g => s.poolOf g.2 k).eraseDups).mergeSort fun a b => decide (a.atoms.length ≤ b.atoms.length)
  pools.findSome? fun p => runTest k p.cap ((costs.filter fun g => (s.poolOf g.1.2 k).inside p).map (·.2))

/-- The test of R287 and R731 over a set of contracts, for the first of them: TEST 1 of every contract, then the
classes in order. -/
def State.admissionTest (s : State) (new : Nat × Contract) (others : List (Nat × Contract)) : Option TestFail :=
  let group := s.group new others
  let costs := group.map fun g => (g, s.costOf g.1 g.2)
  (test1 (costs.map (·.2))).orElse fun _ => poolClasses.findSome? fun k => s.classRuns group costs k

/-! ### SET and REMOVE -/

/-- CT_RESULT with a status (CT_RESULT table). -/
def ctResultWord (status ring : Nat) (f : TestFail) : Word64 :=
  BitVec.ofNat 64 (status * 2 ^ 48 + ring * 2 ^ 40 + f.1 * 2 ^ 36 + f.2.1 * 2 ^ 32 + f.2.2 % 2 ^ 32)

/-- The staged contract. -/
def State.stagedContract (s : State) : Contract :=
  let w := s.steward
  { target := BitVec.ofNat 36 w.ctTarget.toNat
    burst := bitsOf w.ctShape.toNat 55 32
    rate := bitsOf w.ctShape.toNat 31 0
    deadline := bitsOf w.ctDeadline.toNat 31 0
    verbs := (List.range 16).filterMap fun i =>
      let v := aget 0 w.ctVerb i
      if v.getLsbD 63 then some (bitsOf v.toNat 31 16, bitsOf v.toNat 7 0) else none }

/-- SET is BAD_CONTRACT (R282). -/
def State.badContract (s : State) (c : Contract) : Bool :=
  !pathOk c.target || !s.targetPresent c.target || c.rate == 0 || c.burst == 0 || decide (65535 < c.burst)
    || decide (c.deadline < 100) || c.verbs.isEmpty
    || c.verbs.any fun v => match (s.almanacIn v.1 c.target).bind fun a => a.verbs[v.2]? with
      | some d => !d.host
      | none => true

/-- Every contract in force but a ring's own. -/
def State.boundContracts (s : State) (but : Nat) : List (Nat × Contract) :=
  s.steward.contracts.filter fun kv => kv.2.bound && kv.1 != but

/-- Install a contract that passed (R283). -/
def State.installContract (s : State) (n : Nat) (c : Contract) : State :=
  let old := s.contract n
  let full := c.burst * 10 ^ 8
  let fill := if old.state = .none then full else min (old.refill s.link.tally).fill full
  (s.rankContract n fun _ => { c with
    serial := s.steward.nextContract, fill := fill, filledAt := s.link.tally, state := .admitted }).modSteward fun w =>
      { w with nextContract := w.nextContract + 1 }

/-- SET (R282, R283). -/
def State.setContract (s : State) (n : Nat) : State :=
  let c := s.stagedContract
  let result (t : State) (st : Nat) (f : TestFail) : State := t.modSteward fun w => { w with ctResult := ctResultWord st n f }
  if s.badContract c then result s 0x25 (0, 0, 0)
  else match s.admissionTest (n, c) (s.boundContracts n) with
    | some f => result s 0x21 f
    | none => result (s.installContract n c) 0 (0, 0, 0)

/-- REMOVE (R284); the counters MISSES and EXCESS of CT_STATE read 0 after it too (log 116). -/
def State.removeContract (s : State) (n : Nat) : State :=
  (s.rankContract n fun _ => {}).modSteward fun w => { w with ctResult := ctResultWord 0 n (0, 0, 0) }

/-- A CT_CMD runs: SET, REMOVE, and BAD_CONTRACT for the other OPs (R282). -/
def State.ctRun (s : State) (op ring : Nat) : State :=
  match op with
  | 1 => (s.setContract ring).announceTolerance
  | 2 => (s.removeContract ring).announceTolerance
  | _ => s.modSteward fun w => { w with ctResult := ctResultWord 0x25 ring (0, 0, 0) }

/-- A command row of CT_CMD: written and run to its end, unless one is under way (R281; log 70). -/
def ctRow (op : Nat) (ring : RingId) (s : State) : Res :=
  hostWrite 0 0 (fun t => .next (if t.steward.ctBusy.isSome then t else t.ctRun op ring)) s

/-- A plain write of CT_CMD starts the command: BUSY sets at once (R281). -/
def State.ctStart (s : State) (op ring : Nat) : State :=
  if s.steward.ctBusy.isSome then s else s.modSteward fun w => { w with ctBusy := some (op, ring) }

/-- The command under way ends, within 1 ms (R281; log 70). -/
def State.ctFinish (s : State) : State :=
  match s.steward.ctBusy with
  | some (op, ring) => (s.modSteward fun w => { w with ctBusy := none }).ctRun op ring
  | none => s

/-- CT_RESULT as it reads: BUSY in bit 63. -/
def Steward.ctResultRead (w : Steward) : Word64 := if w.ctBusy.isSome then w.ctResult ||| (1#64 <<< 63) else w.ctResult

/-- SET. -/
def execSet (ring : RingId) (s : State) : Res := ctRow 1 ring s
/-- REMOVE. -/
def execRemove (ring : RingId) (s : State) : Res := ctRow 2 ring s

/-! ### Re-tests (R290) -/

/-- The cause of an AT_RISK contract still holds: Limp, MEMLAT (unless just cleared), IDE. -/
def State.causeHolds (s : State) (memlatOver : Bool) (c : Contract) : Bool :=
  match c.cause with
  | 1 => decide (s.power.gov = .limp) || s.cascade.entries.any fun kv =>
      decide (kv.2.state = .present) && kv.2.gov == 2 && deviceUnder kv.2.path c.target
  | 2 => !memlatOver
  | 3 => s.link.ideRequired && !s.link.ideSecure
  | _ => false

/-- A BROKEN contract whose CAUSE 5, 8 or 9 has cleared (Contract state transitions). -/
def State.brokenCleared (s : State) (c : Contract) : Bool :=
  match c.cause with
  | 5 => if pathLevel c.target = 0 then
      s.cascade.entries.all fun kv => !(decide (kv.2.state = .absent) && deviceUnder kv.2.path c.target)
    else s.targetPresent c.target
  | 8 => (s.targetDevices c.target).all fun d => d.gov != 3
  | 9 => (s.coresIn c.target).all s.inService
  | _ => false

/-- Contracts in the order they were admitted. -/
def byAdmission (l : List (Nat × Contract)) : List (Nat × Contract) :=
  l.mergeSort fun a b => decide (a.2.serial ≤ b.2.serial)

/-- One contract of a re-test: kept when it fits with those kept, else AT_RISK with a cause. -/
def retestOne (cause : Nat) (memlatOver : Bool) (acc : State × List (Nat × Contract)) (kv : Nat × Contract) :
    State × List (Nat × Contract) :=
  let s := acc.1
  let c := s.contract kv.1
  if (s.admissionTest (kv.1, c) acc.2).isNone then
    let t := if c.state = .atRisk ∧ s.causeHolds memlatOver c then s
      else s.rankContract kv.1 fun c => { c with state := .admitted, cause := 0 }
    (t, acc.2 ++ [(kv.1, c)])
  else match c.state with
    | .admitted => (s.moveContract kv.1 .atRisk cause, acc.2)
    | .broken => (s.moveContract kv.1 .atRisk 4, acc.2)
    | _ => (if s.causeHolds memlatOver c then s else s.modContract kv.1 fun c => { c with cause := 4 }, acc.2)

/-- A re-test; `cause` goes to an ADMITTED contract that no longer fits (R288, R290). -/
def State.retest (s : State) (cause : Nat) (memlatOver : Bool) : State :=
  let l := byAdmission (s.steward.contracts.filter fun kv =>
    kv.2.bound || (decide (kv.2.state = .broken) && s.brokenCleared kv.2))
  (l.foldl (retestOne cause memlatOver) (s, [])).1

/-- A write of CT_MEMLAT (R290). -/
def State.writeMemlat (s : State) (v : Nat) : State :=
  (((s.modSteward fun w => { w with ctMemlat := v }).retest 4 false).sendDown 1 [16, v] [])

/-- CT_MEMLAT. -/
def execCtMemlat (memlat : BitVec 32) (s : State) : Res := hostWrite 0 0 (fun t => .next (t.writeMemlat memlat.toNat)) s

/-- A host read by a device took longer than MEMLAT: ADMITTED contracts whose pools include the device go
AT_RISK (R292). -/
def State.memlatOver (s : State) (device : Word) : State := s.riskContracts 2 fun _ c => s.poolsOn c device

/-- MEMLAT_EXCEEDED: a late read of this device, or of a PRESENT member. -/
def execMemlatExceeded (member : Option Word) (s : State) : Res :=
  match member with
  | none => .next (s.memlatOver s.devicePath)
  | some p => if s.memberPresent p then .next (s.memlatOver p) else s.same

/-- MEMLAT_CAUSE_CLEAR: 1 s without a late read (R290, R292). -/
def execMemlatCauseClear (s : State) : Res := .next (s.retest 4 true)

/-- DEADLINE_PASSED: latched in the STEWARD event word of the running errand's Hand (R267). -/
def execDeadlinePassed (e : Nat) (s : State) : Res :=
  match s.errand? e with
  | some x => match x.phase, x.deadline with
    | .placed h, some d =>
      if d < s.link.tally then .next ((s.modHand h fun y => { y with evDeadline := true }).eventTo h .steward)
      else s.same
    | _, _ => s.same
  | none => s.same

end Sys2Proof.Machine
end

