-- ==== Sys2Proof/Machine/Rings.lean ====
section
/-!
DEFINITION. Sys2Proof/Machine/Rings.lean: ring register sets, doorbells, descriptor fetch and
arrival (R225 to R237, R268, R726).
-/
namespace Sys2Proof.Machine

/-- A guarded field kept, or an enable refused: BAD_CONFIG (R226, R227). -/
def State.badConfig (s : State) (n : Nat) : State := s.modRing n fun r => { r with err := 1 }

/-- Any SQ that selects CQ n is not DISABLED or has errands in flight (R227). -/
def State.cqInUse (s : State) (n : Nat) : Bool :=
  (List.range 256).any fun m =>
    (s.ring m).cqSel == n && (decide ((s.ring m).sqState ≠ .disabled) || (s.ring m).inFlight != 0)

/-- SQ n's fields are guarded (R227). -/
def Ring.sqGuarded (r : Ring) : Bool := decide (r.sqState ≠ .disabled) || r.inFlight != 0

/-- RG_SQ_BASE (R227). -/
def State.writeSqBase (s : State) (n : Nat) (data : Word64) : State :=
  if (s.ring n).sqGuarded && (s.ring n).sqBase != data then s.badConfig n
  else s.modRing n fun r => { r with sqBase := data }

/-- RG_CQ_BASE (R227). -/
def State.writeCqBase (s : State) (n : Nat) (data : Word64) : State :=
  if decide ((s.ring n).cqState ≠ .disabled) && (s.ring n).cqBase != data then s.badConfig n
  else s.modRing n fun r => { r with cqBase := data }

/-- RG_SIZE: each depth on its own guard (R227). -/
def State.writeRingSize (s : State) (n : Nat) (data : Word64) : State :=
  let sq := bitsOf data.toNat 16 0
  let cq := bitsOf data.toNat 48 32
  let r := s.ring n
  let sqBad := r.sqGuarded && r.sqDepth != sq
  let cqBad := decide (r.cqState ≠ .disabled) && r.cqDepth != cq
  let s := s.modRing n fun r => { r with
    sqDepth := if sqBad then r.sqDepth else sq, cqDepth := if cqBad then r.cqDepth else cq }
  if sqBad || cqBad then s.badConfig n else s

/-- A ring depth an enable accepts (R226). -/
def depthOk (d : Nat) : Bool := 2 ≤ d && d ≤ 65536

/-- CQ n becomes ACTIVE (Ring state transitions). -/
def Ring.openCq (r : Ring) : Ring :=
  { r with cqEn := true, cqState := .active, cqHead := 0, cqTail := 0, dbHead := 0, phase := true }
/-- SQ n becomes ACTIVE. -/
def Ring.openSq (r : Ring) : Ring :=
  { r with sqEn := true, sqState := .active, sqHead := 0, sqTail := 0, dbTail := 0, sqFetch := 0, stamps := [] }

/-- RG_CTRL: CQ_SEL, IRQ_EN and the two enables, judged on the ring states before the write (R226,
R227, R229; log 34). -/
def State.writeRingCtrl (s : State) (n : Nat) (data : Word64) : State :=
  let r := s.ring n
  let sel := bitsOf data.toNat 15 8
  let selBad := r.sqGuarded && r.cqSel != sel
  let sel := if selBad then r.cqSel else sel
  let cqOn := data.getLsbD 1 && !r.cqEn
  let cqOff := !data.getLsbD 1 && r.cqEn
  let cqOk := r.cqBase.toNat % 64 == 0 && depthOk r.cqDepth
  let cqHeld := cqOff && s.cqInUse n
  let sqOn := data.getLsbD 0 && !r.sqEn
  let sqOk := r.sqBase.toNat % 64 == 0 && depthOk r.sqDepth && decide ((s.ring sel).cqState = .active)
  let bad := selBad || (cqOn && !cqOk) || cqHeld || (sqOn && !sqOk)
  let r := { r with cqSel := sel, irqEn := data.getLsbD 2 }
  let r := if cqOn && cqOk then (if r.cqState = .disabled then r.openCq else { r with cqEn := true })
    else if cqOff && !cqHeld then { r with cqEn := false, cqState := if r.cqState = .active then .disabled else r.cqState }
    else r
  let r := if sqOn && sqOk then (if r.sqState = .disabled then r.openSq else { r with sqEn := true })
    else if !data.getLsbD 0 then { r with sqEn := false, sqState := if r.sqState = .active then .disabled else r.sqState }
    else r
  let s := s.setRing n r
  if bad then s.badConfig n else s

/-- RG_SQ_BASE written by the host. -/
def execRgSqBase (n : RingId) (data : Word64) (s : State) : Res :=
  hostWrite 0 data (fun t => .next (t.writeSqBase n data)) s
/-- RG_CQ_BASE written by the host. -/
def execRgCqBase (n : RingId) (data : Word64) (s : State) : Res :=
  hostWrite 0 data (fun t => .next (t.writeCqBase n data)) s
/-- RG_SIZE written by the host. -/
def execRgSize (n : RingId) (data : Word64) (s : State) : Res :=
  hostWrite 0xFFFE0000FFFE0000#64 data (fun t => .next (t.writeRingSize n data)) s
/-- RG_CTRL written by the host. -/
def execRgCtrl (n : RingId) (data : Word64) (s : State) : Res :=
  hostWrite 0xFFFFFFFFFFFF00F8#64 data (fun t => .next (t.writeRingCtrl n data).announceTolerance) s

/-! ### Errors and resets -/

/-- SQ n enters ERROR with a code and an index; every entry sets HL_EVT.RING (R229). -/
def State.sqError (s : State) (n err index : Nat) : State :=
  let was := (s.ring n).sqState
  let s := s.modRing n fun r => { r with sqState := .error, err := err, errIndex := index }
  if was = .error then s else s.hostEvent 6

/-- CQ n enters ERROR; every SQ selecting it that is ACTIVE enters ERROR with CQ_STOPPED (R229). -/
def State.cqError (s : State) (n : Nat) : State :=
  let s := (s.modRing n fun r => { r with cqState := .error, err := 4 }).hostEvent 6
  (List.range 256).foldl (fun t m =>
    if (t.ring m).cqSel == n && decide ((t.ring m).sqState = .active) then t.sqError m 5 (t.ring m).errIndex else t) s

/-- Descriptors of reads discarded: they leave IN_FLIGHT and release their CQ slots (R726). -/
def State.discardReads (s : State) (n : Nat) (reads : List FetchRead) : State :=
  reads.foldl (fun t r =>
    (t.modRing n fun x => { x with inFlight := x.inFlight - r.count }).modRing r.cq fun x =>
      { x with reserved := x.reserved - r.count }) s

/-- An errand of a reset SQ is stopped and produces no completion (R230); one that holds no Hand ends
at once, a forwarded one by a CONTROL message (R532). -/
def State.dropErrand (s : State) (e : Nat) : State :=
  match s.errand? e with
  | none => s
  | some x =>
    let gone (t : State) : State :=
      ((t.modSteward fun w => { w with errands := aerase w.errands e }).modRing x.cq fun r =>
        { r with reserved := r.reserved - 1 }).modRing (match x.src with
          | .ring n => n
          | _ => 0) fun r => { r with inFlight := r.inFlight - 1 }
    match x.phase with
    | .placed _ => (s.modErrand e fun z => { z with dropped := true }).stopErrand e 0x10 0
    | .ending (some _) => s.modErrand e fun z => { z with dropped := true }
    | _ => gone (s.recall e x)

/-- RG_RESET.SQ: RESETTING; every errand of SQ n is stopped, unfetched descriptors are discarded (R230, R726). -/
def State.resetSq (s : State) (n : Nat) : State :=
  let s := s.discardReads n (s.ring n).reads
  let s := s.modRing n fun r => { r with sqState := .resetting, reads := [], stamps := [], sqFetch := r.sqHead }
  s.steward.errands.foldl (fun t kv => if decide (kv.2.src = .ring n) then t.dropErrand kv.1 else t) s

/-- RG_RESET_SQ. -/
def execRgResetSq (n : RingId) (s : State) : Res := hostWrite 0 0 (fun t => .next (t.resetSq n)) s

/-- RG_RESET.CQ: RESETTING from ERROR or ACTIVE, guarded as R227 gives. -/
def State.resetCq (s : State) (n : Nat) : State :=
  if s.cqInUse n then s.badConfig n
  else match (s.ring n).cqState with
    | .error => s.modRing n fun r => { r with cqState := .resetting }
    | .active => s.modRing n fun r => { r with cqState := .resetting }
    | _ => s

/-- RG_RESET_CQ. -/
def execRgResetCq (n : RingId) (s : State) : Res := hostWrite 0 0 (fun t => .next (t.resetCq n)) s

/-- CQ_RESET_DONE: the internal state is cleared (Ring state transitions). -/
def execCqResetDone (n : RingId) (s : State) : Res :=
  if (s.ring n).cqState = .resetting then
    .next (s.modRing n fun r => { r with
      cqState := .disabled, cqEn := false, err := 0, cqHead := 0, cqTail := 0, dbHead := 0, reserved := 0, cqHung := false })
  else s.same

/-! ### Doorbells (R232 to R235, R264) -/

/-- The doorbell of a ring is discarded (R233). -/
def State.doorbellDead (s : State) (st : RingState) : Bool :=
  !s.link.fwReady || decide (st = .disabled) || decide (st = .resetting)

/-- Slots a move of SQ_TAIL newly covers. -/
def Ring.newSlots (r : Ring) (tail : Nat) : Nat := (tail + r.sqDepth - r.sqTail) % r.sqDepth

/-- SQ_TAIL moves past SQ_HEAD (R235): more slots would be covered than the ring has free. -/
def Ring.tailMisused (r : Ring) (tail : Nat) : Bool :=
  decide (r.sqDepth ≤ (r.sqTail + r.sqDepth - r.sqHead) % r.sqDepth + r.newSlots tail)

/-- CQ_HEAD moves past CQ_TAIL (R235): over more completions than are unread. -/
def Ring.headMisused (r : Ring) (head : Nat) : Bool :=
  decide ((r.cqTail + r.cqDepth - r.cqHead) % r.cqDepth < (head + r.cqDepth - r.cqHead) % r.cqDepth)

/-- After a host misuse of a ring a free choice lets it go on or hangs it until a reset (R262; log 92). -/
def State.mayHang (s : State) (misused : Bool) (hang : State → State) : State :=
  if !misused then s
  else if s.freeValue.1 % 2 = 0 then s.freeValue.2
  else hang s.freeValue.2

/-- SQ_TAIL of a doorbell: the slots it newly covers take its Tally (R234, R264). Past SQ_HEAD, stale
descriptors run or SQ n hangs (R262; log 92). -/
def State.sqTail (s : State) (n tail : Nat) : State :=
  let r := s.ring n
  if s.doorbellDead r.sqState then s
  else if r.sqDepth ≤ tail then s.sqError n 2 tail
  else
    let t := s.mayHang (r.tailMisused tail) fun u => u.modRing n fun r => { r with sqHung := true }
    t.modRing n fun r => { r with
      sqTail := tail, stamps := r.stamps ++ List.replicate (r.newSlots tail) { at_ := s.link.tally } }

/-- CQ_HEAD of a doorbell; past the depth every SQ selecting CQ n enters ERROR (R234). Past CQ_TAIL,
completions are overwritten or CQ n hangs (R262; log 92). -/
def State.cqHead (s : State) (n head : Nat) : State :=
  let r := s.ring n
  if s.doorbellDead r.cqState then s
  else if r.cqDepth ≤ head then
    (List.range 256).foldl (fun t m =>
      if (t.ring m).cqSel == n && (decide ((t.ring m).sqState = .active) || decide ((t.ring m).sqState = .error))
      then t.sqError m 2 head else t) s
  else
    let t := s.mayHang (r.headMisused head) fun u => u.modRing n fun r => { r with cqHung := true }
    t.modRing n fun r => { r with cqHead := head }

/-- Bits 31:0 of doorbell n: the halves of live rings take the written values (R232, R233). -/
def State.writeDbLow (s : State) (n head tail : Nat) : State :=
  let r := s.ring n
  s.setRing n { r with
    dbHead := if s.doorbellDead r.cqState then r.dbHead else head
    dbTail := if s.doorbellDead r.sqState then r.dbTail else tail }

/-- CQH_V and SQT_V of doorbell n: the rings take the values bits 31:0 hold (R232). -/
def State.ringDoorbell (s : State) (n : Nat) (cqhV sqtV : Bool) : State :=
  let r := s.ring n
  let t := if cqhV then s.cqHead n r.dbHead else s
  if sqtV then t.sqTail n r.dbTail else t

/-- DOORBELL_SQ_TAIL: an 8-byte write with SQT_V alone; bits 31:16 are as they stand. -/
def execDoorbellSqTail (n : RingId) (tail : BitVec 16) (s : State) : Res :=
  hostWrite 0 0 (fun t => .next ((t.writeDbLow n (t.ring n).dbHead tail.toNat).ringDoorbell n false true)) s
/-- DOORBELL_CQ_HEAD: an 8-byte write with CQH_V alone; bits 15:0 are as they stand. -/
def execDoorbellCqHead (n : RingId) (head : BitVec 16) (s : State) : Res :=
  hostWrite 0 0 (fun t => .next ((t.writeDbLow n head.toNat (t.ring n).dbTail).ringDoorbell n true false)) s

/-! ### Descriptor fetch (R236, R237, R268, R726) -/

/-- Completions of a CQ the host has not read (R237). -/
def Ring.unread (r : Ring) : Nat := if r.cqDepth = 0 then 0 else (r.cqTail + r.cqDepth - r.cqHead) % r.cqDepth
/-- CQ slots that can still be reserved (R237). -/
def Ring.slotsLeft (r : Ring) : Nat :=
  if decide (r.cqState = .active) && !r.cqHung then r.cqDepth - 1 - r.unread - r.reserved else 0
/-- Descriptors covered by a doorbell and not yet asked for. -/
def Ring.toFetch (r : Ring) : Nat := if r.sqDepth = 0 then 0 else (r.sqTail + r.sqDepth - r.sqFetch) % r.sqDepth

/-- Host-tagged errands in flight in the Holding (R236). -/
def State.hostInFlight (s : State) : Nat := s.rings.foldl (fun a kv => a + kv.2.inFlight) 0

/-- How many descriptors a read of SQ n would take now: at most 8, not past the ring's end (R268). -/
def State.fetchCount (s : State) (n : Nat) : Nat :=
  let r := s.ring n
  if decide (r.sqState = .active) && !r.sqHung then
    min (min (min 8 r.toFetch) (r.sqDepth - r.sqFetch)) (min (s.ring r.cqSel).slotsLeft (65536 - s.hostInFlight))
  else 0

/-- The device may fetch at all (R206, R217, R236, R553, R601). -/
def State.mayFetch (s : State) : Bool :=
  decide (s.power.state = .run) && s.link.fwReady && !s.link.quiesce && s.link.dmaOk && s.steward.started && !s.watch.halted

/-- The next SQ in a rotation after the one last taken. -/
def nextInRotation (last : Nat) (ok : Nat → Bool) : Option Nat :=
  ((List.range 256).map fun i => (last + 1 + i) % 256).find? ok

/-- The SQ fetched from next: contracted rings first, each group in rotation (R268). -/
def State.nextSq (s : State) : Option (Nat × Bool) :=
  match nextInRotation s.steward.rotContract fun n => (s.contract n).bound && 0 < s.fetchCount n with
  | some n => some (n, true)
  | none => (nextInRotation s.steward.rotOther fun n => !(s.contract n).bound && 0 < s.fetchCount n).map fun n => (n, false)

/-- Issue one descriptor read (R228, R726). -/
def State.issueFetch (s : State) (n : Nat) (contracted : Bool) : State :=
  let r := s.ring n
  let c := s.fetchCount n
  let s := s.setRing n { r with
    sqFetch := (r.sqFetch + c) % r.sqDepth, inFlight := r.inFlight + c, nextRead := r.nextRead + 1
    stamps := r.stamps.drop c
    reads := r.reads ++ [{
      id := r.nextRead, first := r.sqFetch, count := c, cq := r.cqSel, stamps := (r.stamps.take c).map (·.at_) }] }
  let s := s.modRing r.cqSel fun q => { q with reserved := q.reserved + c }
  let s := s.modSteward fun w => if contracted then { w with rotContract := n } else { w with rotOther := n }
  s.emit (.hostRead (r.sqBase + BitVec.ofNat 64 (r.sqFetch * 64)) (64 * c))

/-- DESCRIPTOR_FETCH: the Steward issues its next read (R268). -/
def execDescriptorFetch (s : State) : Res :=
  if !s.mayFetch then s.same
  else match s.nextSq with
    | some (n, c) => .next (s.issueFetch n c)
    | none => s.same

/-- Descriptor i of a read becomes a fetched errand: SQ_HEAD advances past it; its class and deadline, then
admission (R239, R264, R285, R726). -/
def State.fetched (s : State) (n : Nat) (r : FetchRead) (i : Nat) (raw : List Byte) : State :=
  let s := s.modRing n fun q => { q with sqHead := (r.first + i + 1) % (max 1 q.sqDepth) }
  let x : Errand := { src := .ring n, raw := padTo 64 (raw.take 64), arrival := r.arrived, cq := r.cq }
  let conforming := (s.refusalOf (some n) false x.raw).isNone && descKind x.raw == 0
  if conforming then
    let k := (s.contract n).classify (r.stamps.getD i s.link.tally)
    let s := s.modContract n fun _ => k.2
    s.admitErrand { x with deadline := k.1, contract := k.1.map fun _ => k.2.serial }
  else s.admitErrand x

/-- Reads that have arrived become errands in index order (R726). -/
def arrivedReads (n : Nat) : Nat → State → State
  | 0, s => s
  | fuel + 1, s =>
    match (s.ring n).reads with
    | r :: rest => match r.data with
      | some ds =>
        let s := s.modRing n fun x => { x with reads := rest }
        arrivedReads n fuel ((List.range ds.length).foldl (fun t i =>
          t.fetched n r i (ds.getD i [])) s)
      | none => s
    | [] => s

/-- A failed descriptor read: ERROR, and it and every later read are discarded (R726, R201). -/
def State.fetchFail (s : State) (n read : Nat) : State :=
  let rs := (s.ring n).reads
  let keep := rs.takeWhile fun r => r.id ≠ read
  let lost := rs.dropWhile fun r => r.id ≠ read
  let first := (lost.map (·.first)).headD 0
  let s := s.discardReads n lost
  let s := s.modRing n fun r => { r with
    reads := keep, sqFetch := first, sqHead := if keep = [] then first else r.sqHead, stamps := [] }
  (s.sqError n 3 first).poisonedRead

/-- The read takes its data, padded to the descriptors it asked for, and the Tally of its arrival. -/
def FetchRead.fill (r : FetchRead) (data : List (List Byte)) (now : Nat) : FetchRead :=
  { r with data := some ((List.range r.count).map fun i => data.getD i []), arrived := now }

/-- DESCRIPTOR_ARRIVAL: a descriptor read, named by its number, completes with its data or an error (R726). -/
def execDescriptorArrival (n : RingId) (read : Nat) (data : Option (List (List Byte))) (s : State) : Res :=
  if !((s.ring n).reads.any fun r => r.id == read && r.data.isNone) then s.same
  else match data with
    | none => .next (s.fetchFail n read)
    | some ds =>
      let t := s.modRing n fun x => { x with reads := x.reads.map fun r =>
        if r.id == read && r.data.isNone then r.fill ds s.link.tally else r }
      .next (arrivedReads n ((t.ring n).reads.length) t)

end Sys2Proof.Machine
end

