-- ==== Sys2Proof/Machine/Completion.lean ====
section
/-!
DEFINITION. Sys2Proof/Machine/Completion.lean: completions, the freeing of an errand's resources and
the end of a ring reset (R139, R230, R244 to R251, R267, R297).
-/
namespace Sys2Proof.Machine

/-- No lane, slice or Vault operation of the Hand runs any more (R139, R280, R447). -/
def State.engineIdle (s : State) (h : Nat) : Bool :=
  !s.laneBusy h && !s.sliceBusy h && (s.hand h).vault.running.isNone

/-- The 32 octets of a completion (Completion table). -/
def completionOctets (htag status : Nat) (phase : Bool) (head sq : Nat) (result path : Word) (detail elapsed : Nat) : List Byte :=
  leOctets 2 htag ++ leOctets 1 status ++ leOctets 1 (b2n phase) ++ leOctets 2 head ++ leOctets 1 sq ++ [0#8]
    ++ leOctets 8 result.toNat ++ leOctets 8 path.toNat ++ leOctets 4 detail ++ leOctets 4 (min elapsed 0xFFFFFFFF)

/-- The octets an INOUT buffer 0 gets back (R250). -/
def State.inoutOctets (s : State) (h : Nat) (x : Errand) : List Byte :=
  let p := packOf (bufPack x.raw 0)
  let n := bufLen x.raw 0
  packOut p (agetRun 0 (s.hand h).window 64 (packWords p n)) n

/-- Buffer 0 is owed a write-back (R250). -/
def Errand.writesBack (x : Errand) : Bool := x.done && bufDir x.raw 0 == 3 && bufLen x.raw 0 != 0

/-- STATUS and DETAIL with a failed buffer write in place; of two that failed, DETAIL names buffer 0 first, else
the last lane failure (R251; log 116). -/
def Errand.outcome (x : Errand) (bufferOk : Bool) : Nat × Nat :=
  if x.writesBack && !bufferOk then (8, 0x100)
  else match x.dmaFail with
    | some d => (8, d.toNat)
    | none => (x.status.toNat, x.detail.toNat)

/-- A late completion counts against the contract its deadline came from (R267, R288). -/
def State.countMissed (s : State) (x : Errand) (status : Nat) : State :=
  match x.src, x.deadline, x.contract with
  | .ring n, some d, some k =>
    let c := s.contract n
    if decide (c.state ≠ .none) && c.serial == k && decide (d < s.link.tally) then
      let s := s.modContract n fun c => { c with misses := satInc c.misses 0xFFFF }
      if c.state = .admitted ∧ status ≠ 0x20 then s.moveContract n .broken 6 else s
    else s
  | _, _, _ => s

/-- Another host errand in flight carries the same host tag (R240). -/
def State.tagReused (s : State) (e : Nat) (x : Errand) : Bool :=
  s.steward.errands.any fun kv => kv.1 != e && decide (kv.2.src ≠ .internal) && decide (kv.2.src ≠ .baton)
    && descHtag kv.2.raw == descHtag x.raw

/-- The HTAG a completion carries: the errand's own; a reused tag may be lost, and then any value stands there
(R262; log 92). -/
def State.shownTag (s : State) (e : Nat) (x : Errand) : Nat × State :=
  if !s.tagReused e x then (descHtag x.raw, s)
  else (if s.freeValue.1 % 2 = 0 then descHtag x.raw else s.freeValue.1 / 2 % 65536, s.freeValue.2)

/-- The completion of an errand is written to its CQ. -/
def State.cqTakes (s : State) (x : Errand) (cqOk : Bool) : Bool :=
  !x.dropped && cqOk && decide ((s.ring x.cq).cqState = .active)

/-- Put a completion in a CQ: the write, PHASE, the tail and the interrupt (R228, R244, R245, R247). -/
def State.toCq (s : State) (sq e : Nat) (x : Errand) (status detail : Nat) (cqOk : Bool) : State :=
  let cq := x.cq
  let q := s.ring cq
  if q.cqState ≠ .active then s
  else if !cqOk then s.cqError cq
  else
    let tag := s.shownTag e x
    let octets := completionOctets tag.1 status q.phase (s.ring sq).sqHead sq x.result x.execPath detail
      (s.link.tally - x.arrival)
    let s := tag.2.emit (.hostWrite (q.cqBase + BitVec.ofNat 64 (q.cqTail * 32)) octets)
    let s := s.modRing cq fun r => { r with
      cqTail := (r.cqTail + 1) % (max 1 r.cqDepth)
      phase := if r.cqTail + 1 = r.cqDepth then !r.phase else r.phase }
    if q.irqEn && !descNoIrq x.raw then s.msixEvent (cq + 1) else s

/-- Take an errand out of the Steward's records; its tag serves the next in line (R241). -/
def State.forgetErrand (s : State) (e : Nat) : State :=
  (s.modSteward fun w => { w with errands := aerase w.errands e }).liftFences.giveTags

/-- The ring counters an errand leaves. -/
def State.leaveRing (s : State) (sq cq : Nat) : State :=
  (s.modRing cq fun r => { r with reserved := r.reserved - 1 }).modRing sq fun r => { r with inFlight := r.inFlight - 1 }

/-- An errand of kind VERB, waiting, running or forwarded, still names an Almanac; or an UNLOAD of it waits, or its
LOAD is under way at members. -/
def State.almanacInUse (s : State) (i : Nat) : Bool :=
  s.steward.errands.any fun kv => decide (kv.2.loads = some i)
    || (descAlmanac kv.2.raw == i && (descKind kv.2.raw == 0 || descKind kv.2.raw == 3))

/-- Free the regions of an Almanac on this device: its words leave every core's I-space (R259). -/
def State.dropAlmanac (s : State) (i : Nat) : State :=
  let s : State := { s with cores := s.cores.map fun (kv : Nat × Core) =>
    (kv.1, { kv.2 with regions := kv.2.regions.filter fun r => decide (r.kind ≠ .almanac i) }) }
  s.modSteward fun w => { w with almanacs := aerase w.almanacs i }

/-- Free the regions of an Almanac on every device of the Holding (R259). -/
def State.freeAlmanac (s : State) (i : Nat) : State := (s.dropAlmanac i).sendDown 1 [11, i] []

/-- Almanacs that are unloading with nothing left that names them are freed (R259). -/
def State.freeUnloading (s : State) : State :=
  s.steward.almanacs.foldl (fun t kv =>
    if kv.2.unloading && !t.almanacInUse kv.1 then t.freeAlmanac kv.1 else t) s

/-- Where the completion of an errand goes. -/
def State.report (s : State) (e : Nat) (x : Errand) (status detail : Nat) (cqOk : Bool) : State :=
  match x.src with
  | .ring sq =>
    let s := if x.dropped then s else s.toCq sq e x status detail cqOk
    s.leaveRing sq x.cq
  | .internal =>
    let octets := completionOctets (descHtag x.raw) status false 0 0 x.result x.execPath detail (s.link.tally - x.arrival)
    (s.modSteward fun w => { w with icpl := w.icpl ++ [packIn .loose octets] }).interruptAll 27
  | .baton => if x.dropped then s
    else s.sendFlit 0 3 (s.flitClass x)
      [s.devicePath.toNat, x.batonTag.getD e, status, x.result.toNat, x.execPath.toNat, detail] []

/-- The errand is complete: INOUT write-back, MISSES, the completion, and everything it held freed. -/
def State.complete (s : State) (e : Nat) (x : Errand) (h : Option Nat) (bufferOk cqOk : Bool) : State :=
  let o := x.outcome bufferOk
  let s := match h with
    | some n => if x.writesBack && !x.dropped then
        s.hostPut (s.flitClass x) (x.batonTag.getD 0) (BitVec.ofNat 64 (bufAddr x.raw 0)) (s.inoutOctets n x)
      else s
    | none => s
  let s := if s.cqTakes x cqOk then s.countMissed x o.1 else s
  let s := s.report e x o.1 o.2 cqOk
  let s := match h with
    | some n => s.freeHand n
    | none => s
  (s.forgetErrand e).freeUnloading

/-- No operation runs any more on the Hand an ending errand holds. -/
def State.handDone (s : State) (h : Option Nat) : Bool :=
  match h with
  | some n => s.engineIdle n
  | none => true

/-- The completion can be reported now: it, and a write-back, need host memory in reach; an internal errand's
own completion does not (R189, R217, R297). -/
def State.mayReport (s : State) (x : Errand) : Bool :=
  x.dropped || s.dmaReady || (decide (x.src = .internal) && !x.writesBack)

/-- COMPLETION_WRITE: once the errand's operations have ended (R139, R244). -/
def execCompletionWrite (e : Nat) (bufferOk cqOk : Bool) (s : State) : Res :=
  match s.errand? e with
  | none => s.same
  | some x => match x.phase with
    | .ending h => if s.handDone h && s.mayReport x then .next (s.complete e x h bufferOk cqOk) else s.same
    | _ => s.same

/-- Free what the idle errands of a resetting SQ hold. -/
def State.clearDropped (s : State) (n : Nat) : State :=
  s.steward.errands.foldl (fun t kv => match kv.2.phase with
    | .ending h =>
      if decide (kv.2.src = .ring n) && kv.2.dropped && t.handDone h then t.complete kv.1 kv.2 h true true
      else t
    | _ => t) s

/-- SQ_RESET_DONE: every resource of its errands freed, the SQ is DISABLED (R230, Ring state transitions). -/
def execSqResetDone (n : RingId) (s : State) : Res :=
  if (s.ring n).sqState ≠ .resetting then s.same
  else
    let t := (s.clearDropped n).freeUnloading
    if t.steward.errands.any fun kv => decide (kv.2.src = .ring n) then .next t
    else .next (t.modRing n fun r => { r with
      sqState := .disabled, sqEn := false, sqHead := 0, sqTail := 0, dbTail := 0, sqFetch := 0, err := 0, sqHung := false })

end Sys2Proof.Machine
end

