-- ==== Sys2Proof/Machine/Almanacs.lean ====
section
/-!
DEFINITION. Sys2Proof/Machine/Almanacs.lean: LOAD, UNLOAD and CHECKPOINT errands, and internal errands
(R253 to R259, R297, R336, R728).
-/
namespace Sys2Proof.Machine

/-- The words of an Almanac image as buffer 1 delivers it. -/
def imageWords (octets : List Byte) : List Word := packIn .raw36 octets

/-- Words 0 to 3 of the header at fault (R728). -/
def headerFault (i : Nat) (w : Word) : Bool :=
  let n := w.toNat
  match i with
  | 0 => n != 0o154156141155
  | 1 => bitsOf n 35 30 != 1 || bitsOf n 28 8 != 0 || bitsOf n 7 0 == 0
  | 2 => n == 0 || decide (65536 < n)
  | 3 => decide (65536 < n)
  | 7 => n != 0
  | _ => false

/-- A PK word of a Verb declaration at fault (R728). -/
def pkWordFault (n : Nat) : Bool :=
  let pset := bitsOf n 35 28
  let op := bitsOf n 27 24
  if pset = 0 then n != 0 else if pset = 0x7F then op != 0 else (pkCycles pset op).isNone

/-- Word i of a Verb declaration at fault (R728). Word 1's bits 35:32, which the table neither gives a field nor
calls reserved, must be zero like a reserved field (log 95). -/
def verbFault (imageWords i : Nat) (w : Word) : Bool :=
  let n := w.toNat
  match i with
  | 0 => bitsOf n 33 16 != 0 || decide (imageWords ≤ bitsOf n 15 0)
  | 1 => n == 0 || decide (2 ^ 32 ≤ n)
  | 2 => bitsOf n 35 18 == 0 || decide (32768 < bitsOf n 35 18) || decide (65472 < bitsOf n 17 0)
  | 4 => decide (1024 < bitsOf n 35 24) || decide (64 < bitsOf n 23 17) || bitsOf n 16 16 != 0
  | 5 => pkWordFault n
  | 6 => pkWordFault n
  | 7 => n != 0
  | _ => false

/-- The parts of an image by its header: first words of Verb table, code, relocations, signature. -/
structure ImageShape where
  verbs : Nat
  words : Nat
  relocs : Nat

def shapeOf (ws : List Word) : ImageShape :=
  { verbs := bitsOf (ws.getD 1 0).toNat 7 0, words := bitsOf (ws.getD 2 0).toNat 16 0, relocs := bitsOf (ws.getD 3 0).toNat 16 0 }

def ImageShape.code (k : ImageShape) : Nat := 8 + 8 * k.verbs
def ImageShape.reloc (k : ImageShape) : Nat := k.code + k.words
def ImageShape.sig (k : ImageShape) : Nat := k.reloc + k.relocs
def ImageShape.total (k : ImageShape) : Nat := k.sig + 24

/-- A J-format major opcode, 050q to 057q, in bits 35:28 (R109). -/
def isJ (w : Word) : Bool := 0o50 ≤ wfield w 35 28 && wfield w 35 28 ≤ 0o57

/-- A relocation entry at fault (R256). -/
def relocFault (ws : List Word) (k : ImageShape) (w : Word) : Bool :=
  let off := w.toNat
  decide (65536 ≤ off) || decide (k.words ≤ off) || !isJ (ws.getD (k.code + off) 0)

/-- The first word at fault, in the order of R728; FFFFFFFFh for PACK or length. -/
def imageFault (pack len : Nat) (ws : List Word) : Option Nat :=
  if pack ≠ 2 then some 0xFFFFFFFF
  else match (List.range (min 4 ws.length)).find? fun i => headerFault i (ws.getD i 0) with
    | some i => some i
    | none =>
      let k := shapeOf ws
      if len ≠ 8 * k.total then some 0xFFFFFFFF
      else match (List.range k.sig).find? fun i =>
          if i < 8 then decide (4 ≤ i) && headerFault i (ws.getD i 0)
          else if i < k.code then verbFault k.words ((i - 8) % 8) (ws.getD i 0)
          else if i < k.reloc then false
          else relocFault ws k (ws.getD i 0) with
        | some i => some i
        | none => none

/-- A Verb declaration from its eight words. -/
def verbDeclOf (ws : List Word) : VerbDecl :=
  let n (i : Nat) : Nat := (ws.getD i 0).toNat
  let pk (i : Nat) : Nat × Nat × Nat := (bitsOf (n i) 35 28, bitsOf (n i) 27 24, bitsOf (n i) 23 0)
  { precise := bitOf (n 0) 35, host := bitOf (n 0) 34, entry := bitsOf (n 0) 15 0, coreNs := n 1
    workspace := bitsOf (n 2) 35 18, argWords := bitsOf (n 2) 17 0, laneBytes := n 3
    rbKib := bitsOf (n 4) 35 24, apertures := bitsOf (n 4) 23 17, storeMisses := bitsOf (n 4) 15 0
    pk5 := pk 5, pk6 := pk 6 }

/-- The key that may verify an image: the lowest slot whose KCV is KEY_CHECK (R254, R425). -/
def State.codeKey (s : State) (check : Word) (warden : Bool) : Option KeyObj :=
  (s.vault.slots.find? fun kv =>
    let a := kv.2.attr
    attrType a == 2 && attrPurpose a == 6 && attrCode a
      && (if warden then attrWorld a == 1 else attrWorld a == 2 || attrWorld a == 3)
      && decide (kv.2.kcv = check)).map (·.2)

/-- The lowest base of n free words of a core's I-space. -/
def Core.imageGap (c : Core) (n : Nat) : Option Nat :=
  let starts := 0 :: c.regions.map fun r => r.base + r.size
  (starts.filter fun b => decide (b + n ≤ 65536)
    && c.regions.all fun r => decide (b + n ≤ r.base) || decide (r.base + r.size ≤ b)).foldl
    (fun a b => match a with
      | none => some b
      | some x => some (min x b)) none

/-- The largest free run of a core's I-space. -/
def Core.largestGap (c : Core) : Nat :=
  let starts := 0 :: c.regions.map fun r => r.base + r.size
  maxOf (starts.map fun b =>
    if c.regions.any fun r => decide (r.base < b) && decide (b < r.base + r.size) then 0
    else (c.regions.filter fun r => decide (b ≤ r.base)).foldl (fun a r => min a (r.base - b)) (65536 - b))

/-- The code image with its relocations for a base (R256). -/
def relocated (code : List Word) (relocs : List Word) (base : Nat) : List Word :=
  relocs.foldl (fun ws r =>
    match ws[r.toNat]? with
    | some w => ws.set r.toNat (wput w 15 0 ((wfield w 15 0 + base) % 65536))
    | none => ws) code

/-- Place the code image in a core. -/
def State.placeImage (s : State) (c i : Nat) (code relocs : List Word) : State :=
  match (s.core c).imageGap code.length with
  | none => s
  | some b => s.modCore c fun k => { k with
      regions := k.regions ++ [{ base := b, size := code.length, kind := .almanac i }]
      iram := asetRun 0 k.iram b (relocated code relocs b) }

/-- How a loader ends: status and DETAIL, or the Almanac with its code and relocations (R253 to R256, R728). -/
def State.checkImage (s : State) (pack len : Nat) (octets : List Byte) : Except (Nat × Nat) (Almanac × List Word × List Word) :=
  let ws := imageWords octets
  match imageFault pack len ws with
  | some d => .error (0x0C, d)
  | none =>
    let k := shapeOf ws
    let warden := bitOf (ws.getD 1 0).toNat 29
    let check := ws.getD 6 0
    match s.codeKey check warden with
    | none => .error (0x0F, check.toNat % 2 ^ 32)
    | some key =>
      let signed := words40 (ws.take k.sig)
      let sig := packOut .loose (ws.drop k.sig) 96
      if !ecVerify p384 key.pub (sha384 signed) sig then .error (0x0D, 0)
      else
        let code := (ws.drop k.code).take k.words
        .ok ({ warden := warden, name := ws.getD 4 0, version := ws.getD 5 0, size := k.words, image := signed
               octets := octets
               verbs := (chunks 8 ((ws.drop 8).take (8 * k.verbs))).map verbDeclOf },
             code, (ws.drop k.reloc).take k.relocs)

/-- The check of an image that arrives over Baton, as RAW36 octets. -/
def State.checkOctets (s : State) (octets : List Byte) : Except (Nat × Nat) (Almanac × List Word × List Word) :=
  s.checkImage 2 octets.length octets

/-- An errand served by the Steward ends. -/
def State.endService (s : State) (e status : Nat) (result : Word) (detail : Nat) : State :=
  s.modErrand e fun x => { x with
    phase := .ending none, status := BitVec.ofNat 8 status, result := result, detail := BitVec.ofNat 32 detail }

/-- A loader puts a checked image at an index into every core of this device in service inside a target. -/
def State.loadHere (s : State) (i : Nat) (target : Word) (a : Almanac) (code relocs : List Word) : State :=
  ((((s.coresIn target).filter s.inService).foldl (fun t c => t.placeImage c i code relocs) s)).modSteward fun w =>
    { w with almanacs := aput w.almanacs i a }

/-- The cores of this device in service inside a target that cannot take an image, and the least of their
largest free runs. -/
def State.noRoomHere (s : State) (target : Word) (n : Nat) : Option Nat :=
  let cs := (s.coresIn target).filter s.inService
  if cs.any fun c => ((s.core c).imageGap n).isNone then some (cs.foldl (fun m c => min m (s.core c).largestGap) 65536)
  else none

/-- The members of a target: PRESENT devices inside it. -/
def State.membersIn (s : State) (target : Word) : List Word :=
  (s.cascade.entries.filter fun kv => kv.2.serves target).map fun kv => kv.2.path

/-- The master sends an Almanac to a member, which loads it at the same index (R255, R257, JOIN ladder step 8;
log 96). -/
def State.sendAlmanac (s : State) (i : Nat) (a : Almanac) (path : Word) : State :=
  s.sendControl (s.portTo path) [9, path.toNat, i] a.octets

/-- The master forwards a LOAD or UNLOAD to members, with the index in its ALMANAC field, and waits for their
COMPLETIONs (R52, R529; log 96). -/
def State.forwardToMembers (s : State) (e i : Nat) (ps : List Word) : State :=
  match s.errand? e with
  | none => s
  | some x =>
    let raw := x.raw.take 4 ++ leOctets 2 i ++ x.raw.drop 6
    ps.foldl (fun t p => t.sendFlit (t.portTo p) 2 (s.flitClass x)
        (errandContent p (e % 65536) (s.deadlineOf x) x.shownSq) raw)
      (s.setErrand e { x with awaits := ps })

/-- The LOAD has succeeded on every device: its index is issued, and a re-test follows (R255, R257, R290). -/
def State.finishLoad (s : State) (e i : Nat) : State :=
  let s := s.modSteward fun w => { w with
    nextAlmanac := i + 1
    almanacs := w.almanacs.map fun kv => if kv.1 = i then (kv.1, { kv.2 with unloading := false }) else kv }
  ((s.modErrand e fun x => { x with loads := none }).retest 4 false).endService e 0 (wd i) 0

/-- Install a checked image in every in-service core of the target Holding (R255, R257): `room` is the largest
free run of the members' cores that cannot take it, none when all of them can. Until the members have loaded it,
no errand may name it. -/
def State.install (s : State) (e : Nat) (target : Word) (room : Option Nat) (a : Almanac) (code relocs : List Word) : State :=
  if 65535 < s.steward.nextAlmanac then s.endService e 0x0E 0 0xFFFFFFFF
  else match (s.noRoomHere target code.length).toList ++ (if s.membersIn target = [] then [] else room.toList) with
    | r :: rest => s.endService e 0x0E 0 (rest.foldl min r)
    | [] =>
      let i := s.steward.nextAlmanac
      let ms := s.membersIn target
      let s := s.loadHere i target { a with unloading := !ms.isEmpty } code relocs
      if ms.isEmpty then s.finishLoad e i
      else (s.modErrand e fun x => { x with loads := some i }).forwardToMembers e i ms

/-- A member serves a forwarded LOAD: its own cores of the target, at the index the master gave (R52, R257). -/
def State.installMember (s : State) (e i : Nat) (target : Word) (a : Almanac) (code relocs : List Word) : State :=
  match s.noRoomHere target code.length with
  | some r => s.endService e 0x0E 0 r
  | none => (s.loadHere i target a code relocs).endService e 0 (wd i) 0

/-- A JOIN is under way: a LOAD or UNLOAD waits for its end (R527). -/
def State.joinUnderWay (s : State) : Bool := !s.cascade.joins.isEmpty

/-- A LOAD waits for members: the next one waits for it, since it holds the index to come. -/
def State.loadUnderWay (s : State) : Bool := s.steward.errands.any fun kv => kv.2.loads.isSome

/-- A LOAD or UNLOAD errand can be served now: it holds its device tag, no member's answer is awaited, and no JOIN
is under way (R241, R527). -/
def State.mayServe (s : State) (x : Errand) (kind : Nat) : Bool :=
  decide (x.phase = .service) && descKind x.raw == kind && x.dtag.isSome && x.awaits.isEmpty && !s.joinUnderWay

/-- The image of a LOAD has come, none when its read failed. -/
def State.loadImage (s : State) (e : Nat) (x : Errand) (image : Option (List Byte)) (room : Option Nat) : State :=
  match image with
  | none => (s.endService e 8 0 1).poisonedRead
  | some octets =>
    match s.checkImage (bufPack x.raw 1) (bufLen x.raw 1) (padTo (bufLen x.raw 1) (octets.take (bufLen x.raw 1))) with
    | .error (st, d) => s.endService e st 0 d
    | .ok (a, code, relocs) =>
      if s.cascade.master then s.install e (descTarget x.raw) room a code relocs
      else s.installMember e (descAlmanac x.raw) (descTarget x.raw) a code relocs

/-- LOAD: the image of a LOAD errand is read, once host memory is in reach; `room` stands for the answers of the
target's members (R189, R217, R251, R255; log 96). -/
def execLoad (e : Nat) (image : Option (List Byte)) (room : Option Nat) (s : State) : Res :=
  match s.errand? e with
  | some x =>
    if s.mayServe x 2 && !s.loadUnderWay && s.dmaReady then
      .next ((s.hostAsk (s.flitClass x) (x.batonTag.getD 0) (BitVec.ofNat 64 (bufAddr x.raw 1)) (bufLen x.raw 1)).loadImage
        e x image room)
    else s.same
  | none => s.same

/-- The master hears how a member's loader ended. -/
def State.memberLoaded (s : State) (path : Word) (i : Nat) (ok : Bool) : State :=
  s.modSteward fun w => match afind w.almanacs i with
    | some a =>
      let others := a.devices.filter fun p => pathDevice p != pathDevice path
      { w with almanacs := aput w.almanacs i { a with devices := if ok then others ++ [path] else others } }
    | none => w

/-- A member has answered a forwarded LOAD or UNLOAD, or is lost: the LOAD succeeds with the last of its members
and fails with the first that fails; the UNLOAD ends with the last (R52, R255, R259). -/
def State.memberAnswered (s : State) (e : Nat) (x : Errand) (device : Word) (status detail : Nat) : State :=
  let rest := x.awaits.filter fun p => pathDevice p != pathDevice device
  let t := s.setErrand e { x with awaits := rest }
  match x.loads with
  | some i =>
    if status = 0 then
      let t := t.memberLoaded device i true
      if rest.isEmpty then t.finishLoad e i else t
    else ((s.setErrand e { x with awaits := [], loads := none }).freeAlmanac i).endService e status 0 detail
  | none => if rest.isEmpty then (t.freeAlmanac (descAlmanac x.raw)).endService e 0 0 0 else t

/-- UNLOAD: the Almanac is unloading (R259). -/
def execUnload (e : Nat) (s : State) : Res :=
  match s.errand? e with
  | some x =>
    if s.mayServe x 3 then
      .next ((s.markUnloading (descAlmanac x.raw)).breakForUnload (descAlmanac x.raw))
    else s.same
  | none => s.same

/-- Errands fetched earlier that name the Almanac are still in flight (R259). -/
def State.earlierUsers (s : State) (e i : Nat) : Bool :=
  s.steward.errands.any fun kv => decide (kv.1 < e) && descAlmanac kv.2.raw == i && descKind kv.2.raw == 0

/-- The members that hold an Almanac. -/
def State.holders (s : State) (i : Nat) : List Word :=
  match afind s.steward.almanacs i with
  | some a => a.devices.filter s.memberPresent
  | none => []

/-- UNLOAD_COMPLETE: with the earlier errands gone the UNLOAD goes to the members that hold the Almanac; then the
regions are freed and it completes (R52, R259). -/
def execUnloadComplete (e : Nat) (s : State) : Res :=
  match s.errand? e with
  | some x =>
    let i := descAlmanac x.raw
    if s.mayServe x 3 && !s.earlierUsers e i then
      let ms := if s.cascade.master then s.holders i else []
      if ms.isEmpty then .next ((s.freeAlmanac i).endService e 0 0 0) else .next (s.forwardToMembers e i ms)
    else s.same
  | none => s.same

/-- CHECKPOINT: the errand asks for a checkpoint unless the Store is CLOSED (R333, R336). -/
def execCheckpoint (e : Nat) (s : State) : Res :=
  match s.errand? e with
  | some x =>
    if x.phase = .service ∧ descKind x.raw = 1 then
      match s.store.state with
      | .closed => .next (s.endService e 0x45 0 0)
      | .opening => s.same
      | _ => .next (if x.ckWait.isSome then s else s.modStore fun t => { t with ckDue := true })
    else s.same
  | none => s.same

/-- Hands of the device that hold internal contracted errands (Errand classes table). -/
def State.internalContracted (s : State) : Nat :=
  (s.steward.errands.filter fun kv => decide (kv.2.src = .internal) && kv.2.deadline.isSome
    && (match kv.2.phase with
      | .placed _ => true
      | .ending (some _) => true
      | _ => false)).length

/-- Internal errands in flight and unread completions (R297). -/
def State.internalLoad (s : State) : Nat :=
  (s.steward.errands.filter fun kv => decide (kv.2.src = .internal)).length + s.steward.icpl.length

/-- A write of SW_ISUBMIT: the staged descriptor becomes an internal errand (R264, R297). -/
def State.submitInternal (s : State) (h reldl : Nat) : State :=
  if 256 ≤ s.internalLoad then s.modSteward fun w => { w with icplRefused := true }
  else
    let raw := packOut .loose (agetRun 0 (s.hand h).idesc 0 16) 64
    let dl := if reldl ≠ 0 ∧ s.internalContracted < 15 ∧ descKind raw = 0 then some (s.link.tally + reldl) else none
    s.admitErrand { src := .internal, raw := raw, arrival := s.link.tally, deadline := dl }

/-- SW_ISUBMIT. -/
def execSwIsubmit (h : HandId) (reldl : BitVec 32) (s : State) : Res :=
  regWrite h 0x1050 3 (fun t => t.submitInternal h reldl.toNat) s

/-- A read of SW_ICPL7: its word, and the head entry is removed (R297). -/
def State.popIcpl (s : State) : State :=
  let t := s.modSteward fun w => { w with icpl := w.icpl.drop 1 }
  if t.steward.icpl.isEmpty then t else t.interruptAll 27

/-- SW_ICPL7_READ. -/
def execSwIcpl7Read (h : HandId) (s : State) : Res :=
  regAccess h 0x105F false 3 (fun t => .done ((t.steward.icpl.headD []).getD 7 0) t.popIcpl) s

end Sys2Proof.Machine
end

