-- ==== Sys2Proof/Machine/Alu.lean ====
section
/-!
DEFINITION. Sys2Proof/Machine/Alu.lean: the ALU group (R116, R117) and the immediate group (R118).
-/
namespace Sys2Proof.Machine

/-- A result that only writes a register. -/
def aluAct (r : BitVec 5) (f : Hand → Word) (s : State) (x : Hand) : Act := .set s x r (f x)

/-- A result that writes a register and ST.CY. -/
def carryAct (h : Nat) (r : BitVec 5) (f : Hand → Word × Bool) (s : State) (x : Hand) : Act :=
  .setSt s h x r (f x).1 (setCy x.st (f x).2)

/-- As `carryAct`, raising OVERFLOW: precise with nothing written, or imprecise with the wrapped
result and CY written (R117, R164, R165). -/
def overflowAct (h : Nat) (r : BitVec 5) (f : Hand → Word × Bool) (beyond : Hand → Bool) (s : State) (x : Hand) : Act :=
  if !beyond x then carryAct h r f s x
  else if preciseOf x.st then .raise s 8 (wd x.pc.toNat) false
  else .imprecise (s.setHand h { x with st := setCy x.st (f x).2 }) (some (r, (f x).1)) 8

/-- A shift by a register count, 36 or more giving the fill (R116). -/
def sllWord (b c : Word) : Word := if 36 ≤ c.toNat then 0 else b <<< c.toNat
def srlWord (b c : Word) : Word := if 36 ≤ c.toNat then 0 else b >>> c.toNat
def sraWord (b c : Word) : Word := b.sshiftRight (min 36 c.toNat)

/-- ADD (R116). -/
def execAdd (h : HandId) (a b c : Reg) (s : State) : Res :=
  issueOn h false (carryAct h a fun x => addCarry (x.reg b) (x.reg c) false) s

/-- ADDV (R116, R117). -/
def execAddv (h : HandId) (a b c : Reg) (s : State) : Res :=
  issueOn h false (overflowAct h a (fun x => addCarry (x.reg b) (x.reg c) false)
    fun x => addOverflows (x.reg b) (x.reg c)) s

/-- SUB (R116). -/
def execSub (h : HandId) (a b c : Reg) (s : State) : Res :=
  issueOn h false (carryAct h a fun x => subBorrow (x.reg b) (x.reg c) false) s

/-- SUBV (R116, R117). -/
def execSubv (h : HandId) (a b c : Reg) (s : State) : Res :=
  issueOn h false (overflowAct h a (fun x => subBorrow (x.reg b) (x.reg c) false)
    fun x => subOverflows (x.reg b) (x.reg c)) s

/-- ADC (R116). -/
def execAdc (h : HandId) (a b c : Reg) (s : State) : Res :=
  issueOn h false (carryAct h a fun x => addCarry (x.reg b) (x.reg c) (cyOf x.st)) s

/-- SBC (R116). -/
def execSbc (h : HandId) (a b c : Reg) (s : State) : Res :=
  issueOn h false (carryAct h a fun x => subBorrow (x.reg b) (x.reg c) (cyOf x.st)) s

/-- AND (R116). -/
def execAnd (h : HandId) (a b c : Reg) (s : State) : Res :=
  issueOn h false (aluAct a fun x => x.reg b &&& x.reg c) s

/-- OR (R116). -/
def execOr (h : HandId) (a b c : Reg) (s : State) : Res :=
  issueOn h false (aluAct a fun x => x.reg b ||| x.reg c) s

/-- XOR (R116). -/
def execXor (h : HandId) (a b c : Reg) (s : State) : Res :=
  issueOn h false (aluAct a fun x => x.reg b ^^^ x.reg c) s

/-- ANDN (R116). -/
def execAndn (h : HandId) (a b c : Reg) (s : State) : Res :=
  issueOn h false (aluAct a fun x => x.reg b &&& ~~~(x.reg c)) s

/-- SLL (R116). -/
def execSll (h : HandId) (a b c : Reg) (s : State) : Res :=
  issueOn h false (aluAct a fun x => sllWord (x.reg b) (x.reg c)) s

/-- SRL (R116). -/
def execSrl (h : HandId) (a b c : Reg) (s : State) : Res :=
  issueOn h false (aluAct a fun x => srlWord (x.reg b) (x.reg c)) s

/-- SRA (R116). -/
def execSra (h : HandId) (a b c : Reg) (s : State) : Res :=
  issueOn h false (aluAct a fun x => sraWord (x.reg b) (x.reg c)) s

/-- ROR (R116). -/
def execRor (h : HandId) (a b c : Reg) (s : State) : Res :=
  issueOn h false (aluAct a fun x => (x.reg b).rotateRight ((x.reg c).toNat % 36)) s

/-- SLT (R116). -/
def execSlt (h : HandId) (a b c : Reg) (s : State) : Res :=
  issueOn h false (aluAct a fun x => boolWord ((x.reg b).slt (x.reg c))) s

/-- SLTU (R116). -/
def execSltu (h : HandId) (a b c : Reg) (s : State) : Res :=
  issueOn h false (aluAct a fun x => boolWord ((x.reg b).ult (x.reg c))) s

/-- SEQ (R116). -/
def execSeq (h : HandId) (a b c : Reg) (s : State) : Res :=
  issueOn h false (aluAct a fun x => boolWord (x.reg b == x.reg c)) s

/-- CLZ (R116). -/
def execClz (h : HandId) (a b : Reg) (s : State) : Res :=
  issueOn h false (aluAct a fun x => wd (leadingZeros (x.reg b))) s

/-- ADDI (R118). -/
def execAddi (h : HandId) (a b : Reg) (imm : Imm18) (s : State) : Res :=
  issueOn h false (carryAct h a fun x => addCarry (x.reg b) (sext18 imm) false) s

/-- ADDIV (R118, R117). -/
def execAddiv (h : HandId) (a b : Reg) (imm : Imm18) (s : State) : Res :=
  issueOn h false (overflowAct h a (fun x => addCarry (x.reg b) (sext18 imm) false)
    fun x => addOverflows (x.reg b) (sext18 imm)) s

/-- ANDI (R118). -/
def execAndi (h : HandId) (a b : Reg) (imm : Imm18) (s : State) : Res :=
  issueOn h false (aluAct a fun x => x.reg b &&& zext18 imm) s

/-- ORI (R118). -/
def execOri (h : HandId) (a b : Reg) (imm : Imm18) (s : State) : Res :=
  issueOn h false (aluAct a fun x => x.reg b ||| zext18 imm) s

/-- XORI (R118). -/
def execXori (h : HandId) (a b : Reg) (imm : Imm18) (s : State) : Res :=
  issueOn h false (aluAct a fun x => x.reg b ^^^ zext18 imm) s

/-- LUI (R118). -/
def execLui (h : HandId) (a : Reg) (imm : Imm18) (s : State) : Res :=
  issueOn h false (aluAct a fun _ => zext18 imm <<< 18) s

/-- SLTI (R118). -/
def execSlti (h : HandId) (a b : Reg) (imm : Imm18) (s : State) : Res :=
  issueOn h false (aluAct a fun x => boolWord ((x.reg b).slt (sext18 imm))) s

/-- SLTIU (R118). -/
def execSltiu (h : HandId) (a b : Reg) (imm : Imm18) (s : State) : Res :=
  issueOn h false (aluAct a fun x => boolWord ((x.reg b).ult (sext18 imm))) s

/-- An immediate shift: a count field outside 0 to 35, or a non-zero field above it, is an illegal
instruction (R118). -/
def shiftImmAct (op : Nat) (a b : BitVec 5) (imm : BitVec 18) (f : Word → Nat → Word) (s : State) (x : Hand) : Act :=
  if 36 ≤ imm.toNat then .illegal s (encI op a b imm) else .set s x a (f (x.reg b) imm.toNat)

/-- SLLI (R118). -/
def execSlli (h : HandId) (a b : Reg) (imm : Imm18) (s : State) : Res :=
  issueOn h false (shiftImmAct 16 a b imm fun w n => w <<< n) s

/-- SRLI (R118). -/
def execSrli (h : HandId) (a b : Reg) (imm : Imm18) (s : State) : Res :=
  issueOn h false (shiftImmAct 17 a b imm fun w n => w >>> n) s

/-- SRAI (R118). -/
def execSrai (h : HandId) (a b : Reg) (imm : Imm18) (s : State) : Res :=
  issueOn h false (shiftImmAct 18 a b imm fun w n => w.sshiftRight n) s

/-- RORI (R118). -/
def execRori (h : HandId) (a b : Reg) (imm : Imm18) (s : State) : Res :=
  issueOn h false (shiftImmAct 19 a b imm fun w n => w.rotateRight n) s

end Sys2Proof.Machine
end

