-- ==== Sys2Proof/Machine/Keccak.lean ====
section
/-!
DEFINITION. Sys2Proof/Machine/Keccak.lean: SHA-3 and SHAKE (FIPS 202), on octet strings, for the
lattice schemes of the Parameter sets table (R398).
-/
namespace Sys2Proof.Machine

/-- The 24 round constants. -/
def keccakConstants : List (BitVec 64) :=
  [0x1, 0x8082, 0x800000000000808A, 0x8000000080008000, 0x808B, 0x80000001, 0x8000000080008081, 0x8000000000008009,
   0x8A, 0x88, 0x80008009, 0x8000000A] ++
  [0x8000808B, 0x800000000000008B, 0x8000000000008089, 0x8000000000008003, 0x8000000000008002, 0x8000000000000080,
   0x800A, 0x800000008000000A, 0x8000000080008081, 0x8000000000008080, 0x80000001, 0x8000000080008008]

/-- Rotation amounts of the lanes, lane x + 5y. -/
def keccakTurns : List Nat :=
  [0, 1, 62, 28, 27, 36, 44, 6, 55, 20, 3, 10, 43] ++ [25, 39, 41, 45, 15, 21, 8, 18, 2, 61, 56, 14]

/-- The lane at column x and row y. -/
def keccakLane (a : List (BitVec 64)) (x y : Nat) : BitVec 64 := a.getD (x % 5 + 5 * (y % 5)) 0

/-- A state from its lanes. -/
def keccakState (f : Nat → Nat → BitVec 64) : List (BitVec 64) :=
  (List.range 25).map fun i => f (i % 5) (i / 5)

/-- The parity of a column. -/
def keccakParity (a : List (BitVec 64)) (x : Nat) : BitVec 64 :=
  (List.range 5).foldl (fun p y => p ^^^ keccakLane a x y) 0

/-- One round: columns mixed, lanes turned and moved, rows combined, the constant added. -/
def keccakRound (a : List (BitVec 64)) (k : BitVec 64) : List (BitVec 64) :=
  let par := (List.range 5).map (keccakParity a)
  let mixed := keccakState fun x y => keccakLane a x y ^^^ par.getD ((x + 4) % 5) 0 ^^^ (par.getD ((x + 1) % 5) 0).rotateLeft 1
  let moved := keccakState fun x y =>
    (keccakLane mixed (x + 3 * y) x).rotateLeft (keccakTurns.getD ((x + 3 * y) % 5 + 5 * x) 0)
  keccakState fun x y =>
    let b := keccakLane moved x y ^^^ (~~~keccakLane moved (x + 1) y &&& keccakLane moved (x + 2) y)
    if x = 0 ∧ y = 0 then b ^^^ k else b

/-- The permutation of 1,600 bits. -/
def keccak (a : List (BitVec 64)) : List (BitVec 64) := keccakConstants.foldl keccakRound a

/-- Octets into the first lanes. -/
def keccakAbsorb (a : List (BitVec 64)) (block : List Byte) : List (BitVec 64) :=
  let lanes := (chunks 8 block).map fun c => BitVec.ofNat 64 (leNat c)
  keccak (keccakState fun x y => keccakLane a x y ^^^ lanes.getD (x + 5 * y) 0)

/-- The first `rate` octets of a state. -/
def keccakOut (rate : Nat) (a : List (BitVec 64)) : List Byte := (a.flatMap fun l => leOctets 8 l.toNat).take rate

/-- Blocks squeezed from a state. -/
def keccakSqueeze (rate : Nat) : Nat → List (BitVec 64) → List Byte
  | 0, _ => []
  | n + 1, a => keccakOut rate a ++ keccakSqueeze rate n (keccak a)

/-- The message padded with its domain octet to whole blocks. -/
def keccakPad (rate domain : Nat) (m : List Byte) : List Byte :=
  let gap := rate - m.length % rate
  if gap = 1 then m ++ [BitVec.ofNat 8 (domain + 128)]
  else m ++ [BitVec.ofNat 8 domain] ++ List.replicate (gap - 2) 0#8 ++ [0x80#8]

/-- The sponge: n octets out of a message. -/
def sponge (rate domain : Nat) (m : List Byte) (n : Nat) : List Byte :=
  let a := (chunks rate (keccakPad rate domain m)).foldl keccakAbsorb (List.replicate 25 0#64)
  (keccakSqueeze rate ((n + rate - 1) / rate) a).take n

def shake128 (m : List Byte) (n : Nat) : List Byte := sponge 168 0x1F m n
def shake256 (m : List Byte) (n : Nat) : List Byte := sponge 136 0x1F m n
def sha3of256 (m : List Byte) : List Byte := sponge 136 6 m 32
def sha3of512 (m : List Byte) : List Byte := sponge 72 6 m 64

end Sys2Proof.Machine
end

