-- ==== Sys2Proof/Machine/Lattice.lean ====
section
/-!
DEFINITION. Sys2Proof/Machine/Lattice.lean: ML-KEM-768 and ML-KEM-1024 (FIPS 203), and the verification
of ML-DSA-65 and ML-DSA-87, pure with an empty context (FIPS 204), which the Parameter sets table
names (R398, R401; log 11). A polynomial is the list of its 256 coefficients.
-/
namespace Sys2Proof.Machine

/-! ### Polynomials and their transforms -/

/-- A coefficient ring: modulus, root of unity, bits of a root's index, inverse of the transform's size. -/
structure LatticeRing where
  q : Nat
  root : Nat
  bits : Nat
  scale : Nat

def kemRing : LatticeRing := { q := 3329, root := 17, bits := 7, scale := 3303 }
def dsaRing : LatticeRing := { q := 8380417, root := 1753, bits := 8, scale := 8347681 }

/-- An index with its bits reversed. -/
def bitReverse : Nat → Nat → Nat
  | 0, _ => 0
  | n + 1, i => (i % 2) * 2 ^ n + bitReverse n (i / 2)

/-- The i-th root in the order of the transform. -/
def LatticeRing.zeta (r : LatticeRing) (i : Nat) : Nat := powMod r.q r.root (bitReverse r.bits i)

def LatticeRing.add (r : LatticeRing) (a b : List Nat) : List Nat := List.zipWith (fun x y => (x + y) % r.q) a b
def LatticeRing.sub (r : LatticeRing) (a b : List Nat) : List Nat := List.zipWith (fun x y => (x + r.q - y) % r.q) a b
def LatticeRing.times (r : LatticeRing) (k : Nat) (a : List Nat) : List Nat := a.map fun x => k * x % r.q

/-- The transform of one block, by levels left and the block's index. -/
def LatticeRing.nttLevel (r : LatticeRing) : Nat → Nat → List Nat → List Nat
  | 0, _, f => f
  | d + 1, i, f =>
    let lo := f.take (f.length / 2)
    let t := r.times (r.zeta i) (f.drop (f.length / 2))
    r.nttLevel d (2 * i) (r.add lo t) ++ r.nttLevel d (2 * i + 1) (r.sub lo t)

/-- The inverse of one block, by levels left and the block's index. -/
def LatticeRing.inttLevel (r : LatticeRing) : Nat → Nat → List Nat → List Nat
  | 0, _, f => f
  | d + 1, i, f =>
    let lo := r.inttLevel d (2 * i + 1) (f.take (f.length / 2))
    let hi := r.inttLevel d (2 * i) (f.drop (f.length / 2))
    r.add lo hi ++ r.times (r.zeta i) (r.sub hi lo)

def LatticeRing.ntt (r : LatticeRing) (f : List Nat) : List Nat := r.nttLevel r.bits 1 f
def LatticeRing.intt (r : LatticeRing) (f : List Nat) : List Nat := r.times r.scale (r.inttLevel r.bits 1 f)

/-- The sum of polynomials. -/
def LatticeRing.sum (r : LatticeRing) (fs : List (List Nat)) : List Nat := fs.foldl r.add (List.replicate 256 0)

/-- d bits for each coefficient, least significant first, as octets. -/
def polyEncode (d : Nat) (f : List Nat) : List Byte :=
  leOctets (32 * d) (f.foldr (fun x n => n * 2 ^ d + x % 2 ^ d) 0)

/-- 256 coefficients of d bits from octets. -/
def polyDecode (d : Nat) (bs : List Byte) : List Nat :=
  let n := leNat bs
  (List.range 256).map fun i => (n >>> (d * i)) % 2 ^ d

/-- Fill a sampled polynomial to 256 coefficients. -/
def polyFill (f : List Nat) : List Nat := (f ++ List.replicate 256 0).take 256

/-! ### ML-KEM (FIPS 203) -/

/-- k, du and dv of a parameter set. -/
structure KemSet where
  k : Nat
  du : Nat
  dv : Nat

def kemSet (pset : Nat) : KemSet := if pset = 9 then { k := 3, du := 10, dv := 4 } else { k := 4, du := 11, dv := 5 }

/-- Products of linear factors, pair by pair. -/
def kemPairs : Nat → List Nat → List Nat → List Nat
  | i, a0 :: a1 :: a, b0 :: b1 :: b =>
    let g := powMod 3329 17 (2 * bitReverse 7 i + 1)
    (a0 * b0 + a1 * b1 * g) % 3329 :: (a0 * b1 + a1 * b0) % 3329 :: kemPairs (i + 1) a b
  | _, _, _ => []

def kemMul (a b : List Nat) : List Nat := kemPairs 0 a b
/-- The inner product of two vectors in transformed form. -/
def kemDot (a b : List (List Nat)) : List Nat := kemRing.sum (List.zipWith kemMul a b)

/-- Coefficients taken from three octets at a time. -/
def kemReject : List (List Byte) → List Nat
  | [] => []
  | c :: cs =>
    let b (i : Nat) : Nat := (c.getD i 0).toNat
    ([b 0 + 256 * (b 1 % 16), b 1 / 16 + 16 * b 2].filter (· < 3329)) ++ kemReject cs

/-- A uniform polynomial in transformed form, from the least XOF output FIPS 203 lets an implementation stop at. -/
def kemUniform (seed : List Byte) : List Nat := polyFill (kemReject (chunks 3 (shake128 seed 840)))

/-- Row i, column j of the matrix. -/
def kemMatrix (rho : List Byte) (i j : Nat) : List Nat := kemUniform (rho ++ [BitVec.ofNat 8 j, BitVec.ofNat 8 i])

/-- A centred binomial polynomial, both parameters 2. -/
def kemNoise (seed : List Byte) (n : Nat) : List Nat :=
  (shake256 (seed ++ [BitVec.ofNat 8 n]) 128).flatMap fun b =>
    [b.toNat % 16, b.toNat / 16].map fun x =>
      (b2n (bitOf x 0) + b2n (bitOf x 1) + 3329 - b2n (bitOf x 2) - b2n (bitOf x 3)) % 3329

def kemCompress (d : Nat) (f : List Nat) : List Nat := f.map fun x => ((2 * x * 2 ^ d + 3329) / (2 * 3329)) % 2 ^ d
def kemDecompress (d : Nat) (f : List Nat) : List Nat := f.map fun y => (2 * 3329 * y + 2 ^ d) / 2 ^ (d + 1)

/-- The vector of an encryption key. -/
def kemVector (k : Nat) (ek : List Byte) : List (List Nat) := (chunks 384 (ek.take (384 * k))).map (polyDecode 12)

/-- Key generation from d and z: decapsulation key and ek. -/
def mlkemKeygen (pset : Nat) (random : List Byte) : List Byte × List Byte :=
  let c := kemSet pset
  let g := sha3of512 (random.take 32 ++ [BitVec.ofNat 8 c.k])
  let rho := g.take 32
  let noise (n : Nat) : List Nat := kemRing.ntt (kemNoise (g.drop 32) n)
  let s := (List.range c.k).map noise
  let t := (List.range c.k).map fun i =>
    kemRing.add (kemDot ((List.range c.k).map (kemMatrix rho i)) s) (noise (c.k + i))
  let ek := t.flatMap (polyEncode 12) ++ rho
  (s.flatMap (polyEncode 12) ++ ek ++ sha3of256 ek ++ random.drop 32, ek)

/-- Encryption of 32 octets m under ek with the randomness r. -/
def kemEncrypt (c : KemSet) (ek m r : List Byte) : List Byte :=
  let rho := ek.drop (384 * c.k)
  let y := (List.range c.k).map fun i => kemRing.ntt (kemNoise r i)
  let u := (List.range c.k).map fun i =>
    kemRing.add (kemRing.intt (kemDot ((List.range c.k).map fun j => kemMatrix rho j i) y)) (kemNoise r (c.k + i))
  let v := kemRing.sum [kemRing.intt (kemDot (kemVector c.k ek) y), kemNoise r (2 * c.k), kemDecompress 1 (polyDecode 1 m)]
  u.flatMap (fun f => polyEncode c.du (kemCompress c.du f)) ++ polyEncode c.dv (kemCompress c.dv v)

/-- Decryption of a ciphertext. -/
def kemDecrypt (c : KemSet) (dk ct : List Byte) : List Byte :=
  let u := (chunks (32 * c.du) (ct.take (32 * c.du * c.k))).map fun b => kemDecompress c.du (polyDecode c.du b)
  let v := kemDecompress c.dv (polyDecode c.dv (ct.drop (32 * c.du * c.k)))
  let w := kemRing.sub v (kemRing.intt (kemDot (kemVector c.k dk) (u.map kemRing.ntt)))
  polyEncode 1 (kemCompress 1 w)

/-- Encapsulation to ek with 32 random octets: c and K; none when ek fails the modulus check (R401). -/
def mlkemEncaps (pset : Nat) (ek m : List Byte) : Option (List Byte × List Byte) :=
  let c := kemSet pset
  if (kemVector c.k ek).all (·.all (· < 3329)) then
    let g := sha3of512 (m ++ sha3of256 ek)
    some (kemEncrypt c ek m (g.drop 32), g.take 32)
  else none

/-- Decapsulation; an invalid ciphertext gives the implicit-rejection key (R401). -/
def mlkemDecaps (pset : Nat) (dk ct : List Byte) : List Byte :=
  let c := kemSet pset
  let ek := (dk.drop (384 * c.k)).take (384 * c.k + 32)
  let m := kemDecrypt c dk ct
  let g := sha3of512 (m ++ (dk.drop (768 * c.k + 32)).take 32)
  if kemEncrypt c ek m (g.drop 32) = ct then g.take 32
  else shake256 ((dk.drop (768 * c.k + 64)).take 32 ++ ct) 32

/-! ### ML-DSA verification (FIPS 204) -/

/-- k, ℓ, τ, β, ω and the octets of the commitment hash. -/
structure DsaSet where
  k : Nat
  l : Nat
  tau : Nat
  beta : Nat
  omega : Nat
  hash : Nat

def dsaSet (pset : Nat) : DsaSet :=
  if pset = 11 then { k := 6, l := 5, tau := 49, beta := 196, omega := 55, hash := 48 }
  else { k := 8, l := 7, tau := 60, beta := 120, omega := 75, hash := 64 }

def dsaMul (a b : List Nat) : List Nat := List.zipWith (fun x y => x * y % 8380417) a b

/-- Coefficients taken from three octets each. -/
def dsaReject (cs : List (List Byte)) : List Nat := (cs.map fun c => leNat c % 2 ^ 23).filter (· < 8380417)

/-- Row r, column s of the matrix, from more XOF output than FIPS 204 lets an implementation stop at. -/
def dsaMatrix (rho : List Byte) (r s : Nat) : List Nat :=
  polyFill (dsaReject (chunks 3 (shake128 (rho ++ [BitVec.ofNat 8 s, BitVec.ofNat 8 r]) 1008)))

/-- The first octet that is at most i, and the octets after it. -/
def dsaDraw (i : Nat) : List Byte → Nat × List Byte
  | [] => (0, [])
  | b :: bs => if b.toNat ≤ i then (b.toNat, bs) else dsaDraw i bs

/-- Place the challenge's signs, from position i on. -/
def dsaBall : List Bool → Nat → List Byte → List Nat → List Nat
  | [], _, _, c => c
  | h :: hs, i, bs, c =>
    let (j, rest) := dsaDraw i bs
    dsaBall hs (i + 1) rest ((c.set i (c.getD j 0)).set j (if h then 8380416 else 1))

/-- The challenge polynomial of a commitment hash. -/
def dsaChallenge (c : DsaSet) (seed : List Byte) : List Nat :=
  let x := shake256 seed 272
  let signs := (List.range c.tau).map fun i => bitOf (leNat (x.take 8)) i
  dsaBall signs (256 - c.tau) (x.drop 8) (List.replicate 256 0)

/-- The hint positions of one row rise. -/
def dsaRising : List Nat → Bool
  | a :: b :: l => decide (a < b) && dsaRising (b :: l)
  | _ => true

/-- The hint positions of each row; none when the hint is malformed. -/
def dsaHints (omega : Nat) (ys : List Nat) : Nat → List Nat → Option (List (List Nat))
  | at_, [] => if (ys.drop at_).all (· == 0) then some [] else none
  | at_, e :: es =>
    let row := (ys.drop at_).take (e - at_)
    if e < at_ ∨ omega < e ∨ dsaRising row = false then none
    else (dsaHints omega ys e es).map (row :: ·)

/-- High bits of a coefficient, as corrected by a hint; γ2 is (q − 1)/32. -/
def dsaHigh (x : Nat) (hint : Bool) : Nat :=
  let low := x % 523776
  let pos := decide (0 < low) && decide (low ≤ 261888)
  let top := if low ≤ 261888 then x / 523776 else x / 523776 + 1
  let r1 := top % 16
  if !hint then r1 else if pos then (r1 + 1) % 16 else (r1 + 15) % 16

/-- Verification of a signature by a public key (R401). -/
def mldsaVerify (pset : Nat) (pk m sig : List Byte) : Bool :=
  let c := dsaSet pset
  let rho := pk.take 32
  let t := (chunks 320 (pk.drop 32)).map (polyDecode 10)
  let seed := sig.take c.hash
  let zs := (chunks 640 ((sig.drop c.hash).take (640 * c.l))).map (polyDecode 20)
  let ys := (sig.drop (c.hash + 640 * c.l)).map (·.toNat)
  match dsaHints c.omega (ys.take c.omega) 0 (ys.drop c.omega) with
  | none => false
  | some hints =>
    let mu := shake256 (shake256 pk 64 ++ [0#8, 0#8] ++ m) 64
    let z := zs.map fun f => f.map fun v => (8380417 + 524288 - v) % 8380417
    let zh := z.map dsaRing.ntt
    let ch := dsaRing.ntt (dsaChallenge c seed)
    let row (r : Nat) : List Nat :=
      let az := dsaRing.sum (List.zipWith dsaMul ((List.range c.l).map (dsaMatrix rho r)) zh)
      let w := dsaRing.intt (dsaRing.sub az (dsaMul ch (dsaRing.ntt (dsaRing.times 8192 (t.getD r [])))))
      let hs := hints.getD r []
      w.zipIdx.map fun p => dsaHigh p.1 (hs.contains p.2)
    zs.all (·.all fun v => decide (c.beta < v) && decide (v + c.beta < 1048576))
      && decide (shake256 (mu ++ (List.range c.k).flatMap fun r => polyEncode 4 (row r)) c.hash = seed)

end Sys2Proof.Machine
end

