-- ==== Sys2Proof/Machine/Modes.lean ====
section
/-!
DEFINITION. Sys2Proof/Machine/Modes.lean: the AES modes ECB, CBC, CTR, GCM, CCM and XTS (SP 800-38
A, C, D and E).
-/
namespace Sys2Proof.Machine

def ecb (f : List Byte → List Byte) (m : List Byte) : List Byte := (chunks 16 m).flatMap f

/-- CBC encryption of whole blocks. -/
def cbcEnc (key : List Byte) : List (List Byte) → List Byte → List Byte
  | [], _ => []
  | b :: bs, iv =>
    let c := aesEnc key (xorOctets b iv)
    c ++ cbcEnc key bs c
/-- CBC decryption of whole blocks. -/
def cbcDec (key : List Byte) : List (List Byte) → List Byte → List Byte
  | [], _ => []
  | c :: cs, iv => xorOctets (aesDec key c) iv ++ cbcDec key cs c

/-- Counter mode with a given increment. -/
def ctrWith (inc : Nat → Nat) (key : List Byte) : List (List Byte) → Nat → List Byte
  | [], _ => []
  | b :: bs, c => xorOctets b ((aesEnc key (beOctets 16 c)).take b.length) ++ ctrWith inc key bs (inc c)
def inc128 (c : Nat) : Nat := (c + 1) % 2 ^ 128
def inc32 (c : Nat) : Nat := c / 2 ^ 32 * 2 ^ 32 + (c + 1) % 2 ^ 32
/-- CTR over a 128-bit big-endian counter block (Lane modes table). -/
def ctr (key iv m : List Byte) : List Byte := ctrWith inc128 key (chunks 16 m) (beNat iv)

/-! ### GCM -/

/-- Multiplication in GF(2^128) of GCM: the low n bits of y from its top bit down. -/
def gfMulBits : Nat → Nat → Nat → Nat → Nat
  | 0, _, _, z => z
  | n + 1, v, y, z =>
    let z := if y.testBit n then z ^^^ v else z
    let v := if v % 2 = 1 then (v / 2) ^^^ (0xE1 * 2 ^ 120) else v / 2
    gfMulBits n v y z
def gfMul (x y : Nat) : Nat := gfMulBits 128 x y 0

/-- GHASH over zero-padded blocks. -/
def ghash (h : Nat) (blocks : List (List Byte)) : Nat :=
  blocks.foldl (fun a b => gfMul (a ^^^ beNat (padTo 16 b)) h) 0

/-- The full GCM tag. -/
def gcmTag (key iv aad c : List Byte) : List Byte :=
  let h := beNat (aesEnc key zeroBlock)
  let s := ghash h (chunks 16 aad ++ chunks 16 c ++ [beOctets 8 (8 * aad.length) ++ beOctets 8 (8 * c.length)])
  xorOctets (beOctets 16 s) (aesEnc key (iv.take 12 ++ [0, 0, 0, 1]))
/-- The GCM keystream applied to a text. -/
def gcmCrypt (key iv m : List Byte) : List Byte :=
  ctrWith inc32 key (chunks 16 m) (beNat (iv.take 12 ++ [0, 0, 0, 2]))

/-! ### CCM -/

/-- The formatted first block and AAD of CCM (SP 800-38C, A.2). -/
def ccmBlocks (nonce aad m : List Byte) (t : Nat) : List (List Byte) :=
  let q := 15 - nonce.length
  let flags := (if aad.isEmpty then 0 else 64) + (t - 2) / 2 * 8 + (q - 1)
  let b0 := leOctets 1 flags ++ nonce ++ beOctets q m.length
  let la := if aad.isEmpty then [] else if aad.length < 0xFF00 then beOctets 2 aad.length
    else [0xFF#8, 0xFE#8] ++ beOctets 4 aad.length
  b0 :: (chunks 16 (la ++ aad)).map (padTo 16) ++ (chunks 16 m).map (padTo 16)
def ccmCounter (nonce : List Byte) (i : Nat) : Nat :=
  let q := 15 - nonce.length
  beNat (leOctets 1 (q - 1) ++ nonce ++ beOctets q i)
def ccmTag (key nonce aad m : List Byte) (t : Nat) : List Byte :=
  (xorOctets (cbcMac key zeroBlock (ccmBlocks nonce aad m t)) (aesEnc key (beOctets 16 (ccmCounter nonce 0)))).take t
def ccmCrypt (key nonce m : List Byte) : List Byte :=
  ctrWith inc128 key (chunks 16 m) (ccmCounter nonce 1)

/-! ### XTS -/

/-- Multiply a tweak by x, little-endian (IEEE 1619). -/
def xtsDouble (t : List Byte) : List Byte :=
  let n := leNat t
  leOctets 16 (if 2 ^ 127 ≤ n then (2 * n % 2 ^ 128) ^^^ 0x87 else 2 * n)
/-- One block with its tweak. -/
def xtsBlock (f : List Byte → List Byte) (t b : List Byte) : List Byte := xorOctets (f (xorOctets b t)) t
def xtsBlocks (f : List Byte → List Byte) : List (List Byte) → List Byte → List Byte × List Byte
  | [], t => ([], t)
  | b :: bs, t =>
    let r := xtsBlocks f bs (xtsDouble t)
    (xtsBlock f t b ++ r.1, r.2)
/-- XTS with ciphertext stealing; key is data key then tweak key. -/
def xts (enc : Bool) (key tweak m : List Byte) : List Byte :=
  let n := key.length / 2
  let f := if enc then aesEnc (key.take n) else aesDec (key.take n)
  let t0 := aesEnc (key.drop n) tweak
  let tail := m.length % 16
  if tail = 0 then (xtsBlocks f (chunks 16 m) t0).1
  else
    let whole := m.length / 16 - 1
    let r := xtsBlocks f (chunks 16 (m.take (16 * whole))) t0
    let last := (m.drop (16 * whole)).take 16
    let rest := m.drop (16 * whole + 16)
    let ta := if enc then r.2 else xtsDouble r.2
    let tb := if enc then xtsDouble r.2 else r.2
    let cc := xtsBlock f ta last
    r.1 ++ xtsBlock f tb (rest ++ cc.drop tail) ++ cc.take tail

end Sys2Proof.Machine
end

