-- ==== Sys2Proof/Machine/Drbg.lean ====
section
/-!
DEFINITION. Sys2Proof/Machine/Drbg.lean: the seed pool and the CTR_DRBG instances (R454 to R463, R732).
-/
namespace Sys2Proof.Machine

/-! ### CTR_DRBG with AES-256, no derivation function (SP 800-90A, R455) -/

/-- Blocks of output from V + 1 on. -/
def drbgBlocks (key : List Byte) : Nat → Nat → List Byte
  | 0, _ => []
  | n + 1, v => aesEnc key (beOctets 16 ((v + 1) % 2 ^ 128)) ++ drbgBlocks key n ((v + 1) % 2 ^ 128)

/-- CTR_DRBG_Update with 48 octets of provided data. -/
def drbgUpdate (key v data : List Byte) : List Byte × List Byte :=
  let t := xorOctets (drbgBlocks key 3 (beNat v)) data
  (t.take 32, t.drop 32)

/-- The personalisation string, padded to 48 octets (R455). -/
def drbgPersonal (i : Nat) : List Byte := padTo 48 (beOctets 8 Config.serial.toNat ++ beOctets 2 i)

/-- Instantiate from a seed. -/
def Drbg.instantiate (d : Drbg) (i : Nat) (seed : List Byte) : Drbg :=
  let r := drbgUpdate (List.replicate 32 0#8) zeroBlock (xorOctets seed (drbgPersonal i))
  { d with live := true, key := r.1, v := r.2, calls := 0, due := false, stalled := false, waiting := false }

/-- Reseed: the counter returns to 0 (R458). -/
def Drbg.reseed (d : Drbg) (seed : List Byte) : Drbg :=
  let r := drbgUpdate d.key d.v seed
  { d with key := r.1, v := r.2, calls := 0, due := false, stalled := false }

/-- One generate call: 64 octets (R455, R458). -/
def Drbg.generate (d : Drbg) : List Byte × Drbg :=
  let out := drbgBlocks d.key 4 (beNat d.v)
  let r := drbgUpdate d.key (beOctets 16 ((beNat d.v + 4) % 2 ^ 128)) (List.replicate 48 0#8)
  (out, { d with key := r.1, v := r.2, calls := d.calls + 1, due := d.due || decide (2 ^ 20 ≤ d.calls + 1) })

/-! ### Seeds -/

/-- A source is HEALTHY. -/
def State.anyHealthy (s : State) : Bool := (List.range 4).any fun i => decide ((s.source i).state = .healthy)
/-- A system draw may wait for a seed (R732). -/
def State.mayWait (s : State) : Bool := s.anyHealthy || s.entropy.selftest

/-- A seed leaves the pool (R454). -/
def State.dropSeed (s : State) : State := s.modEntropy fun e => { e with pool := e.pool.drop 1 }

/-- M of ARG1 of SPLIT. -/
def splitM (a : List Word) : Nat := wfield (a.getD 1 0) 3 0
/-- N of ARG1 of SPLIT. -/
def splitN (a : List Word) : Nat := wfield (a.getD 1 0) 7 4

/-- Seeds a system draw takes (R436, R440). -/
def VaultRun.seeds (r : VaultRun) : Nat :=
  match r.op with
  | 12 => (32 * (splitM r.args - 1) + 47) / 48
  | 14 => 1
  | 15 => 1
  | _ => 0

/-- Seeds of 48 octets for sixteen lane wrap keys of 32 (R436). -/
def lwkSeeds : Nat := 11

/-- Seeds that waiting system draws take before any instance: Store keys, lane wrap keys, Vault commands (R454,
item 1). -/
def State.seedsOwed (s : State) : Nat :=
  (match s.store.draw with
    | .waiting _ need got => need - got.length
    | _ => 0)
    + s.vault.lwkDraw.elim 0 (fun got => lwkSeeds - got.length)
    + ((s.hands.filterMap fun kv => kv.2.vault.running).filter fun r => r.status == 0 && !r.due).foldl (fun n r => n + r.seeds) 0

/-- Seeds of the pool go to the waiting draw of the sixteen lane wrap keys (R436, R454). -/
def State.feedLwks (s : State) : State :=
  match s.vault.lwkDraw with
  | none => s
  | some got =>
    let n := lwkSeeds - got.length
    let all := got ++ s.entropy.pool.take n
    let t := s.modEntropy fun e => { e with pool := e.pool.drop n }
    t.modVault fun v =>
      if all.length < lwkSeeds then { v with lwkDraw := some all }
      else { v with
        lwkDraw := none, lwkCur := 0
        lwks := (List.range 16).map fun i => (i, (all.flatten.drop (32 * i)).take 32) }

/-- A CHALLENGE that waited takes its nonce once no Vault draw is before it (R585; log 37). -/
def State.giveNonce (s : State) : State :=
  match s.life.nonceOwed, s.entropy.pool.drop s.seedsOwed with
  | true, _ :: _ =>
    let n := (s.entropy.pool.headD []).take 32
    (s.dropSeed.modLife fun l => { l with nonce := some n, session := .challenged, nonceOwed := false }).emit
      (.mailbox 0 ((chunks 4 n).map beNat))
  | _, _ => s

/-- A CHALLENGE that waits when no source is HEALTHY any more is refused (R585). -/
def State.failNonce (s : State) : State :=
  if s.life.nonceOwed then (s.modLife fun l => { l with nonceOwed := false }).emit (.mailbox 0xF5 [3]) else s

/-- Draws of Vault commands that wait when no seed is left and no source is HEALTHY fail: VAULT_NO_ENTROPY, and a
CHALLENGE that waits is refused (R585, R732). -/
def State.failDraws (s : State) : State :=
  if s.mayWait || !s.entropy.pool.isEmpty then s
  else let s := s.failNonce
  { s with
    hands := s.hands.map fun (kv : Nat × Hand) => (kv.1, { kv.2 with vault := { kv.2.vault with
      running := kv.2.vault.running.map fun r => if r.op = 12 ∨ r.op = 14 ∨ r.op = 15 then { r with status := 0xAA } else r } }) }

/-- The instance that takes the next seed: instantiations, stalled ones, then due ones by count (R454). -/
def State.nextConsumer (s : State) : Option Nat :=
  match s.entropy.drbgs.find? fun kv => kv.2.waiting && !kv.2.live with
  | some (i, _) => some i
  | none => match s.entropy.drbgs.find? fun kv => kv.2.live && kv.2.stalled with
    | some (i, _) => some i
    | none => ((s.entropy.drbgs.filter fun kv => kv.2.live && kv.2.due).foldl (fun (b : Option (Nat × Drbg)) kv =>
        match b with
        | none => some kv
        | some x => if x.2.calls < kv.2.calls then some kv else some x) none).map (·.1)

/-- A seed goes to an instance. -/
def State.seedInstance (s : State) (i : Nat) (seed : List Byte) : State :=
  s.modDrbg i fun d => if d.live then d.reseed seed else d.instantiate i seed

/-- Seeds of the pool go to the instances that wait, unless a Vault draw comes first (R454). -/
def serveInstances : Nat → State → State
  | 0, s => s
  | fuel + 1, s =>
    if s.entropy.pool.length ≤ s.seedsOwed then s
    else match s.entropy.pool, s.nextConsumer with
      | seed :: _, some i => serveInstances fuel (s.dropSeed.seedInstance i seed)
      | _, _ => s

/-- Mark an instance stalled at 2^32 calls, with its record (R459). -/
def State.stallInstance (s : State) (i : Nat) : State :=
  (s.modDrbg i fun d => { d with stalled := true }).record 0xB0 i

/-- Serve the waiting instances from the pool. -/
def State.serve (s : State) : State := serveInstances 64 s

/-- An instance can generate now: it is instantiated, from the pool when a seed is there, and not
stalled; else it waits (R456, R459). -/
def State.readyInstance (s : State) (i : Nat) : Bool × State :=
  let d := s.drbg i
  if d.live && !d.stalled then (true, s)
  else
    let t := (s.modDrbg i fun d => { d with waiting := !d.live }).serve
    ((t.drbg i).live && !(t.drbg i).stalled, t)

/-- One generate call of an instance, with its stall at 2^32 (R459). -/
def State.generateCall (s : State) (i : Nat) : List Byte × State :=
  let r := (s.drbg i).generate
  let t := s.modDrbg i fun _ => r.2
  (r.1, if r.2.calls = 2 ^ 32 then t.stallInstance i else t)

/-- A number of fresh generate calls; an instance that stalls in between makes no more (R459). -/
def generateCalls (i : Nat) : Nat → State → List Byte × State
  | 0, s => ([], s)
  | n + 1, s =>
    if (s.drbg i).stalled then ([], s)
    else
      let r := s.generateCall i
      let t := generateCalls i n r.2
      (r.1 ++ t.1, t.2)

/-- A draw of n octets from the instance a Hand holds, fewer when it stalls; octets it had buffered are discarded
(R459, R463). -/
def State.drawOctets (s : State) (h i n : Nat) : List Byte × State :=
  let r := generateCalls i ((n + 63) / 64) (s.modHand h fun x => { x with drbgBuf := [] })
  (r.1.take n, r.2)

end Sys2Proof.Machine
end

