-- ==== Sys2Proof/Machine/Sealed.lean ====
section
/-!
DEFINITION. Sys2Proof/Machine/Sealed.lean: sealed pages, the integrity tree, counters and the
checkpoint record (R299 to R317, R340).
-/
namespace Sys2Proof.Machine

/-! ### The window and the tree (R299, R302, R313, R314) -/

/-- Nodes of level L of a share of n pages. -/
def levelNodes (n l : Nat) : Nat := (n + 8 ^ l - 1) / 8 ^ l

/-- Nodes stored below level L. -/
def nodesBelow (n l : Nat) : Nat := sumOf ((List.range (l - 1)).map fun k => levelNodes n (k + 1))

/-- Pages of the tree region of a share of n pages (R314). -/
def regionPages (n : Nat) : Nat := (nodesBelow n 10 * 64 + 4095) / 4096

/-- The valid map entries in index order. -/
def Store.shares (t : Store) : List (Nat × Share) := t.map.filter fun kv => kv.2.valid

/-- Tree Area pages (ST_SIZE.TREE). -/
def Store.treePages (t : Store) : Nat := sumOf (t.shares.map fun kv => regionPages kv.2.count)

/-- Host address of page p (R299). -/
def Store.pageAddress (t : Store) (p : Nat) : Word64 := t.base + BitVec.ofNat 64 (p * 4096)

/-- Host address of a node of a share (R299, R302, R314). -/
def Store.nodeAddress (t : Store) (share l i : Nat) : Word64 :=
  let before := sumOf ((t.shares.filter fun kv => decide (kv.1 < share)).map fun kv => regionPages kv.2.count)
  let n := (aget {} t.map share).count
  t.base + BitVec.ofNat 64 ((t.pages + before) * 4096 + (nodesBelow n l + i) * 64)

/-- The key of a node in the node cache. -/
def nodeKey (l i : Nat) : Nat := l * 2 ^ 40 + i

/-- The counters of a node: the root at level 10, else of the cache. -/
def Store.counters (t : Store) (l i : Nat) : Option (List Nat) :=
  if l = 10 then some t.root else (afind t.nodes (nodeKey l i)).map (·.counters)

/-- The parent's counter for a node or, at level 0, for a page; none when the parent is not resident. -/
def Store.parentCounter (t : Store) (l i : Nat) : Option Nat :=
  (t.counters (l + 1) (i / 8)).map fun c => c.getD (i % 8) 0

/-- Set the parent's counter and mark the parent dirty. -/
def Store.setParent (t : Store) (l i v : Nat) : Store :=
  if l + 1 = 10 then { t with root := t.root.set (i % 8) v }
  else { t with nodes := amod {} t.nodes (nodeKey (l + 1) (i / 8)) fun n => { counters := n.counters.set (i % 8) v, dirty := true } }

/-- The octets a node's MAC covers after level, index and parent counter (R313). -/
def countersOctets (cs : List Nat) : List Byte := (List.range 8).flatMap fun j => leOctets 7 (cs.getD j 0)

/-- A node's MAC, 8 octets; the parent's counter stands in it like the node's own, least significant octet first
(R313; log 117). -/
def nodeMac (key : List Byte) (l i parent : Nat) (cs : List Nat) : List Byte :=
  (aesCmac key (leOctets 1 l ++ leOctets 5 i ++ leOctets 7 parent ++ countersOctets cs)).take 8

/-- A node as stored: counters and MAC. -/
def nodeOctets (key : List Byte) (l i parent : Nat) (cs : List Nat) : List Byte :=
  countersOctets cs ++ nodeMac key l i parent cs

/-- The counters of a stored node that verifies (R313, R316). -/
def nodeVerified (key : List Byte) (l i parent : Nat) (octets : List Byte) : Option (List Nat) :=
  if parent = 0 then some (List.replicate 8 0)
  else
    let cs := (List.range 8).map fun j => leNat ((octets.drop (7 * j)).take 7)
    if (octets.drop 56).take 8 = nodeMac key l i parent cs then some cs else none

/-- How bringing nodes in ended. -/
inductive WalkEnd where
  | ok
  | readFailed
  | badNode (level index : Nat)
deriving DecidableEq, Repr


/-- Bring in the absent nodes on the path of local page q, from a level down to another, highest
first; `data` holds one entry for each absent node (R313, R316; Page-in ladder). -/
def walkDown (key : List Byte) (q to_ : Nat) : Nat → Store → List (Option (List Byte)) → Store × WalkEnd
  | 0, t, _ => (t, .ok)
  | l + 1, t, data =>
    if l + 1 < to_ then (t, .ok)
    else
      let i := q / 8 ^ (l + 1)
      if (t.counters (l + 1) i).isSome then walkDown key q to_ l t data
      else match t.parentCounter (l + 1) i with
        | none => (t, .readFailed)
        | some pc =>
          match (if pc = 0 then some [] else data.headD none) with
          | none => (t, .readFailed)
          | some octets => match nodeVerified key (l + 1) i pc octets with
            | none => (t, .badNode (l + 1) i)
            | some cs => walkDown key q to_ l
                { t with nodes := aput t.nodes (nodeKey (l + 1) i) { counters := cs } } (data.drop 1)

/-! ### Counters and generations (R309, R310) -/

/-- What R309 asks for an old counter: a new counter under the present GEN, or a GEN advance first. -/
def nextCounter (gen old : Nat) : Option Nat :=
  if old / 2 ^ 40 < gen then some (gen * 2 ^ 40 + 1)
  else if old % 2 ^ 40 = 2 ^ 40 - 1 then none
  else some (old + 1)

/-! ### Sealed pages (R306 to R308, R311) -/

/-- Trailer octets FD0h to FFFh: VERSION, FLAGS, EPOCH, PAGE and the reserved octets. -/
def trailerOctets (page version epoch : Nat) (warden : Bool) : List Byte :=
  leOctets 7 version ++ leOctets 1 (b2n warden) ++ leOctets 4 epoch ++ leOctets 4 page ++ List.replicate 32 0#8

/-- The IV of a page (R307). -/
def pageIv (page version : Nat) : List Byte := leOctets 4 page ++ leOctets 7 version ++ [0#8]

/-- Seal a page (R306, R307). -/
def sealPage (key : List Byte) (page version epoch : Nat) (warden : Bool) (words : Memory) : List Byte :=
  let iv := pageIv page version
  let aad := trailerOctets page version epoch warden
  let c := gcmCrypt key iv (packOut .dense (agetRun 0 words 0 896) 4032)
  c ++ gcmTag key iv aad c ++ aad

/-- Open a sealed page: its epoch, WORLD and words, when it verifies (R308). -/
def openPage (keyOf : Nat → Option (List Byte)) (page version : Nat) (octets : List Byte) : Option (Nat × Bool × List Word) :=
  let c := octets.take 4032
  let tag := (octets.drop 4032).take 16
  let aad := (octets.drop 4048).take 48
  let epoch := leNat ((aad.drop 8).take 4)
  let flags := leNat ((aad.drop 7).take 1)
  match keyOf epoch with
  | none => none
  | some key =>
    let v := leNat (aad.take 7)
    let p := leNat ((aad.drop 12).take 4)
    if octets.length = 4096 ∧ gcmTag key (pageIv p v) aad c = tag ∧ p = page ∧ flags ≤ 1
        ∧ (aad.drop 16).all (· == 0) ∧ v = version then
      some (epoch, flags == 1, packIn .dense (gcmCrypt key (pageIv p v) c))
    else none

/-- A live epoch's key (R308, R351). -/
def Store.liveKey (t : Store) (e : Nat) : Option (List Byte) :=
  if e = t.epoch ∨ (t.prevLive ∧ e + 1 = t.epoch) then afind t.epochKeys e else none

/-- The current epoch's key. -/
def Store.sealKey (t : Store) : List Byte := (afind t.epochKeys t.epoch).getD []

/-! ### Checkpoint records (R332, R339, R340) -/

/-- What a record says. -/
structure CkRecord where
  root : List Nat
  gen : Nat
  final : Bool
  prevLive : Bool
  /-- 0 COMMIT, 1 OPEN, 2 NEW. -/
  kind : Nat
  seq : Nat
  epoch : Nat
deriving DecidableEq, Repr

/-- Words 0 to 14 of a record. -/
def CkRecord.words (r : CkRecord) : List Word :=
  let n := beNat ((List.range 8).flatMap fun j => beOctets 7 (r.root.getD j 0))
  ((List.range 12).map fun i => wd (n >>> (412 - 36 * i)))
    ++ [wd (n % 2 ^ 16 * 2 ^ 20 + r.gen * 16 + b2n r.final * 8 + b2n r.prevLive * 4 + r.kind), wd r.seq, wd r.epoch]

/-- A record's MAC. -/
def recordMac (key : List Byte) (ws : List Word) : Word := wd (beNat ((aesCmac key (words40 ws)).take 5) / 16)

/-- A record from its line, when its MAC holds (R340). -/
def recordOf (key : List Byte) (ws : List Word) : Option CkRecord :=
  if ws.getD 15 0 ≠ recordMac key (ws.take 15) then none
  else
    let w12 := (ws.getD 12 0).toNat
    let n := (ws.take 12).foldl (fun a (w : Word) => a * 2 ^ 36 + w.toNat) 0 * 2 ^ 16 + w12 / 2 ^ 20
    some { root := (List.range 8).map fun j => (n >>> (56 * (7 - j))) % 2 ^ 56, gen := bitsOf w12 19 4, final := bitOf w12 3
           prevLive := bitOf w12 2, kind := w12 % 4, seq := wfield (ws.getD 13 0) 31 0, epoch := wfield (ws.getD 14 0) 31 0 }

/-- First flash word of record line i, in sectors P8 to P15. -/
def recordAddr (i : Nat) : Nat := 8 * 4096 + i % 2048 * 16

/-- The newest of two records: higher SEQ, then higher GEN (R340). -/
def newerRecord (a b : CkRecord) : CkRecord :=
  if a.seq < b.seq ∨ (a.seq = b.seq ∧ a.gen < b.gen) then b else a

/-- The newest valid record of flash, as a reading of P8 to P15 now finds it (R12, R340, R344, R491). -/
def State.newestRecord (s : State) : Option CkRecord :=
  match s.vault.recordKey with
  | none => none
  | some key =>
    let words := (s.flash.landed.seen s.free).words
    let lines := ((words.filter fun kv => decide (8 * 4096 ≤ kv.1) && decide (kv.1 < 16 * 4096)).map fun kv =>
      kv.1 / 16).eraseDups
    (lines.filterMap fun l => recordOf key (agetRun erasedWord words (16 * l) 16)).foldl
      (fun (b : Option CkRecord) r => match b with
        | none => some r
        | some x => some (newerRecord x r)) none

/-- What the reading of the records left: its ECC indications, and other words in undefined content next time (R12,
R486). -/
def State.recordsRead (s : State) : State :=
  s.seeFlash.2.noteReads s.seeFlash.1 fun a => decide (8 * 4096 ≤ a) && decide (a < 16 * 4096)

/-- A checkpoint record's program has not ended. -/
def Flash.recordQueued (f : Flash) : Bool :=
  f.inner.any fun o => o.op == 1 && decide (8 ≤ sectorOf o.addr) && decide (sectorOf o.addr < 16)

/-- The next record line; entering a sector erases the next one, and a marked sector is erased before a line of it is
programmed (R339, R497). -/
def State.recordLineFor (s : State) (put : Nat → State → State) : State :=
  let line := s.store.recordLine
  let s := put (recordAddr line) (s.eraseMarked (8 + line / 256))
  let s := s.modStore fun t => { t with recordLine := (line + 1) % 2048 }
  if line % 256 = 0 then s.internalErase (8 + (line / 256 + 1) % 8) else s

/-- A record line's 16 words. -/
def CkRecord.line (r : CkRecord) (key : List Byte) : List Word := r.words ++ [recordMac key r.words]

/-- Program a record into the next blank line (R333, R339). -/
def State.programRecord (s : State) (r : CkRecord) : State :=
  match s.vault.recordKey with
  | none => s
  | some key => s.recordLineFor fun a t => t.queueFlash { op := 1, addr := a, words := r.line key }

/-- The same where the event that needs the record comes after its program has ended (R309; log 23). -/
def State.recordNow (s : State) (r : CkRecord) : State :=
  match s.vault.recordKey with
  | none => s
  | some key => s.recordLineFor fun a t => t.programNow a (r.line key)

/-- The record of the root as it stands. -/
def Store.record (t : Store) (kind seq : Nat) (final : Bool) (root : List Nat) : CkRecord :=
  { root := root, gen := t.gen, final := final, prevLive := t.prevLive, kind := kind, seq := seq, epoch := t.epoch }

/-- Stop all further write-back: STORE_WORN, of which a member tells the master, whose ST_STATUS shows it (R310). -/
def State.wearOut (s : State) : State :=
  if s.store.worn then s
  else
    let t := (s.modStore fun t => { t with worn := true, code := 0x4D }).record 0x4D 0
    if t.cascade.master then t else t.sendControl 0 [25, t.devicePath.toNat, 0x4D] []

/-- The new counter for an old one, with a GEN advance written to flash first; none when worn (R309, R310). -/
def State.advanceCounter (s : State) (old : Nat) : Option Nat × State :=
  match nextCounter s.store.gen old with
  | some c => (some c, s)
  | none =>
    if s.store.gen = 0xFFFF then (none, s.wearOut)
    else
      let g := s.store.gen + 1
      let base := match s.newestRecord with
        | some r => r
        | none => s.store.record 1 s.store.lastSeq false s.store.root
      let s := s.modStore fun t => { t with gen := g }
      (some (g * 2 ^ 40 + 1), s.recordNow { base with gen := g, final := false, kind := 1 })

end Sys2Proof.Machine
end

