-- ==== Sys2Proof/Machine/Granary.lean ====
section
/-!
DEFINITION. Sys2Proof/Machine/Granary.lean: opening, pinning, paging in and writing back (R318 to
R328, R733 to R735).
-/
namespace Sys2Proof.Machine

/-- A page of this device's share: its local number. -/
def State.localPage (s : State) (p : Nat) : Nat := p - (s.ownShare.getD {}).first

/-- The page or a node above it is quarantined (R325). -/
def State.quarantined (s : State) (p : Nat) : Bool :=
  s.store.quarantine.contains p || s.store.badNodes.any fun n => s.localPage p / 8 ^ n.1 == n.2

/-- The page is open in some slot. -/
def State.pageOpen (s : State) (p : Nat) : Bool := s.hands.any fun kv => kv.2.slots.any fun a => a.2.page == p

/-- The share of a page that this device owns and serves. -/
inductive PageStanding where
  | range | notOwner | closed | failed | good
deriving DecidableEq, Repr

/-- RANGE, NOT_OWNER, CLOSED and FAILED in their order (R733, R735). -/
def State.standing (s : State) (p : Nat) : PageStanding :=
  match s.shareOf p with
  | none => .range
  | some (_, sh) =>
    if !s.ownDevice sh.path then .notOwner
    else if sh.state ≠ .opened ∨ s.store.state ≠ .opened then .closed
    else if s.quarantined p then .failed
    else .good

def PageStanding.code (p : PageStanding) : Nat :=
  match p with
  | .range => 4
  | .notOwner => 5
  | .closed => 8
  | .failed => 7
  | .good => 0

/-- The page that SRC names (GR_SOPEN). -/
def State.sopenPage (s : State) (h src : Nat) : Option Nat :=
  match src with
  | 0 => (s.errandOf h).bind fun e => descPage e.2.raw 0
  | 1 => (s.errandOf h).bind fun e => descPage e.2.raw 1
  | 2 => some (s.hand h).grPage
  | _ => none

/-- GR_RESULT. -/
def State.grResult (s : State) (h slot code : Nat) : State :=
  s.modHand h fun x => { x with grResult := wd (slot * 64 + code) }

/-- Open the slot: the Aperture maps the page, which takes affinity for the core (R270). -/
def State.openSlot (s : State) (h slot p : Nat) (ro : Bool) : State :=
  (s.modHand h fun x => { x with slots := aput x.slots slot { page := p, readOnly := ro, warden := x.st.getLsbD 35 } }).modSteward
    fun w => { w with affinity := aput w.affinity p (coreOf h) }

/-- The first SOPEN of a page that was never written sets its WORLD (R311). -/
def Frame.openBy (f : Frame) (warden : Bool) : Frame := { f with world := f.world.or (some warden) }

/-- A write of GR_SOPEN: the budgets, then the first result that applies (R279, R322, R733). -/
def State.sopen (s : State) (h : Nat) (ro : Bool) (src slot : Nat) : State :=
  let x := s.hand h
  let beyond := match s.verbOf h with
    | some d => decide (d.apertures ≤ x.slots.length) && (afind x.slots slot).isNone
    | none => false
  if beyond then match x.errand with
    | some e => s.stopErrand e 0x20 6
    | none => s
  else if (afind x.slots slot).isSome then s.grResult h slot 2
  else match s.sopenPage h src with
    | none => s.grResult h slot 3
    | some p => match s.standing p with
      | .good => match afind s.store.frames p with
        | some f =>
          if f.world == some true && !x.st.getLsbD 35 then s.grResult h slot 6
          else ((s.modStore fun t => { t with frames := aput t.frames p (f.openBy (x.st.getLsbD 35)) }).openSlot h slot p ro).grResult
            h slot 0
        | none => match s.missOn h p with
          | (false, t) => t
          | (true, t) => ((t.openSlot h slot p ro).askPage p false x.errand (some (x.st.getLsbD 35))).grResult h slot 1
      | st => s.grResult h slot st.code

/-- SOPEN. -/
def execSopen (h : HandId) (rdonly : Bool) (src : BitVec 2) (slot : BitVec 6) (s : State) : Res :=
  regWrite h 0x6000 0 (fun t => t.sopen h rdonly src.toNat slot.toNat) s
/-- SCLOSE. -/
def execSclose (h : HandId) (slot : BitVec 6) (s : State) : Res :=
  regWrite h 0x6001 0 (fun t => t.closeSlot h slot.toNat) s

/-- A write of GR_PIN (R323, R735). -/
def State.pin (s : State) (h p : Nat) : State :=
  match s.standing p with
  | .good =>
    let resident := (afind s.store.frames p).isSome
    if s.store.pins.contains p then s.grResult h 0 (b2n !resident)
    else if 8192 ≤ s.store.pins.length ∨ 16384 - 512 < s.reservedFrames + s.store.pins.length + 1 then s.grResult h 0 9
    else
      let s := s.modStore fun t => { t with pins := t.pins ++ [p] }
      if resident then
        (s.modStore fun t => { t with frames := amod {} t.frames p fun f => { f with pinned := true } }).grResult h 0 0
      else (s.askPage p true (s.hand h).errand none).grResult h 0 1
  | st => s.grResult h 0 st.code

/-- A pin ends (R735). -/
def Store.unpin (t : Store) (p : Nat) : Store :=
  { t with
    pins := t.pins.filter (· ≠ p)
    frames := match afind t.frames p with
      | some f => aput t.frames p { f with pinned := false }
      | none => t.frames }

/-- PIN. -/
def execPin (h : HandId) (page : BitVec 30) (s : State) : Res := regWrite h 0x6008 3 (fun t => t.pin h page.toNat) s
/-- UNPIN. -/
def execUnpin (h : HandId) (page : BitVec 30) (s : State) : Res :=
  regWrite h 0x6009 3 (fun t => t.modStore fun st => st.unpin page.toNat) s

/-! ### Page-in: the queue, delivery and failure (R324 to R326, R734) -/

/-- The first queued request (R734). -/
def State.firstQueued (s : State) : Option PageIn :=
  (s.store.queue.filter fun q => !q.started).foldl (fun (b : Option PageIn) q => match b with
    | none => some q
    | some x => if keyBefore (s.pageKey q) (s.pageKey x) then some q else some x) none

/-- Page-ins under way. -/
def Store.under (t : Store) : Nat := (t.queue.filter fun q => q.started).length

/-- The Hands blocked on a page become READY (R34). -/
def State.wakePage (s : State) (p : Nat) : State :=
  State.settle { s with hands := s.hands.map fun kv =>
    if kv.2.state = .blocked (.pageIn p) then (kv.1, { kv.2 with state := .ready }) else kv }

/-- The slots of Common openers of a page of the Warden world close (R312). -/
def State.closeWorld (s : State) (p : Nat) : State :=
  { s with hands := s.hands.map fun kv =>
      (kv.1, { kv.2 with slots := kv.2.slots.filter fun a => a.2.page ≠ p || a.2.warden }) }

/-- The page arrives in its frame, clean, and every Hand that waits goes on (R312, Page-in ladder step 6). -/
def State.fillFrame (s : State) (q : PageIn) (world : Option Bool) (words : List Word) : State :=
  let s := s.modStore fun t => { t with
    queue := t.queue.filter fun r => r.page ≠ q.page
    frames := aput t.frames q.page {
      words := asetRun 0 [] 0 words, world := world, pinned := t.pins.contains q.page, closedAt := t.closeClock } }
  (if world = some true then s.closeWorld q.page else s).wakePage q.page

/-- The errands that wait on a page-in: its page open in a slot, or the Hand blocked on it (R325). -/
def State.pageWaiters (s : State) (p : Nat) : List Nat :=
  s.hands.filterMap fun kv =>
    if kv.2.slots.any (fun a => a.2.page == p) || decide (kv.2.state = .blocked (.pageIn p)) then some kv.1 else none

/-- A page-in delivers nothing: every errand waiting stops; a Hand without an errand finds its slot
closed (R325, R326; log 39). -/
def State.pageFails (s : State) (p status : Nat) : State :=
  let ws := s.pageWaiters p
  let s := ws.foldl (fun t h => match (t.hand h).errand with
    | some e => t.stopErrand e status p
    | none => t.modHand h fun x => { x with slots := x.slots.filter fun a => a.2.page ≠ p }) s
  let s := s.modStore fun t => ({ t with queue := t.queue.filter fun r => r.page ≠ p }).unpin p
  s.wakePage p

/-- A page or node that fails verification: quarantine, a Parish record, and a Store integrity event (R325). -/
def State.quarantinePage (s : State) (p : Nat) (node : Option (Nat × Nat)) : State :=
  ((s.modStore fun t => match node with
    | some n => { t with badNodes := t.badNodes ++ [n] }
    | none => { t with quarantine := t.quarantine ++ [p] }).record 0x43 p).reportEvent 24

/-- The node path of a page is brought in to level 1. -/
def State.bringNodes (s : State) (q to_ : Nat) (nodes : List (Option (List Byte))) : State × WalkEnd :=
  let r := walkDown (s.store.treeKey.getD []) q to_ 9 s.store nodes
  ({ s with store := r.1 }, r.2)

/-! ### Write-back (R309, R310, R327) -/

/-- The Granary may write to the Store Window (R310, R334, R341). -/
def State.mayWriteBack (s : State) : Bool :=
  !s.store.frozen && !s.store.powerFail && !s.store.worn && s.dmaReady
    && (decide (s.store.state = .opened) || decide (s.store.state = .closing))

/-- Seal a page of plain words under the current epoch with its counter advanced. -/
def State.sealOut (s : State) (page : Nat) (warden : Bool) (words : Memory) : Option State :=
  let q := s.localPage page
  match s.advanceCounter ((s.store.parentCounter 0 q).getD 0) with
  | (none, _) => none
  | (some c, t) =>
    let t := t.modStore fun st => st.setParent 0 q c
    some (t.hostPut 1 0 (t.store.pageAddress page) (sealPage t.store.sealKey page c t.store.epoch warden words))

/-- The absent nodes on the path of a local page, from level 6 down to another, whose counter is not known to be 0:
their reads (R316, Page-in ladder, step 3). -/
def State.nodeReads (s : State) (q to_ : Nat) : List (Word64 × Nat) :=
  (List.range (7 - to_)).filterMap fun k =>
    let l := 6 - k
    let i := q / 8 ^ l
    if (s.store.counters l i).isSome ∨ s.store.parentCounter l i = some 0 then none
    else some (s.store.nodeAddress (s.store.own.getD 0) l i, 64)

/-- The reads of a path go out for a write-back, unless they have gone out ahead of it (R319, R327). -/
def State.askPath (s : State) (q to_ : Nat) (asked : Bool) : State :=
  if asked then s else (s.nodeReads q to_).foldl (fun t r => t.hostAsk 1 0 r.1 r.2) s

/-- Write back a dirty frame; the absent nodes of its path are read first (R327, Write-back ladder). -/
def State.writePage (s : State) (page : Nat) (nodes : List (Option (List Byte))) : State :=
  match afind s.store.frames page with
  | none => s
  | some f =>
    if !f.dirty then s
    else
      let asked := s.store.aheadRead == some page
      let s := (s.askPath (s.localPage page) 1 asked).modStore fun t => { t with
        aheadRead := if asked then none else t.aheadRead }
      match s.bringNodes (s.localPage page) 1 nodes with
      | (t, .readFailed) => t.poisonedRead
      | (t, .badNode l i) => t.quarantinePage page (some (l, i))
      | (t, .ok) => match t.sealOut page (f.world.getD false) f.words with
        | none => (t.advanceCounter ((t.store.parentCounter 0 (t.localPage page)).getD 0)).2
        | some u => u.modStore fun st => { st with frames := amod {} st.frames page fun g => { g with dirty := false } }

/-- Write back a dirty node; levels 7 to 9 only in a checkpoint (R315, R327). -/
def State.writeNode (s : State) (l i : Nat) (nodes : List (Option (List Byte))) : State :=
  match afind s.store.nodes (nodeKey l i) with
  | none => s
  | some n =>
    if !n.dirty || (decide (7 ≤ l) && decide (s.store.ckPhase ≠ .preparing)) then s
    else match (s.askPath (i * 8 ^ l) (l + 1) false).bringNodes (i * 8 ^ l) (l + 1) nodes with
      | (t, .readFailed) => t.poisonedRead
      | (t, .badNode bl bi) => t.quarantinePage ((t.ownShare.getD {}).first + i * 8 ^ l) (some (bl, bi))
      | (t, .ok) => match t.advanceCounter ((t.store.parentCounter l i).getD 0) with
        | (none, u) => u
        | (some c, u) =>
          let u := u.modStore fun st => st.setParent l i c
          let u := u.modStore fun st => { st with nodes := amod {} st.nodes (nodeKey l i) fun m => { m with dirty := false } }
          u.hostPut 1 0 (u.store.nodeAddress (u.store.own.getD 0) l i)
            (nodeOctets (u.store.treeKey.getD []) l i c n.counters)

/-- Level and index of a node of the cache. -/
def nodeLevel (k : Nat) : Nat := k / 2 ^ 40
def nodeIndex (k : Nat) : Nat := k % 2 ^ 40

/-- A node of levels 1 to 6 above no other node of the cache: its parent is resident, since nodes come in from the
top down and leave from the bottom up (R315). -/
def Store.leafNode (t : Store) (k : Nat) : Bool :=
  decide (k < nodeKey 7 0)
    && (nodeLevel k == 1 || (List.range 8).all fun j => (afind t.nodes (nodeKey (nodeLevel k - 1) (8 * nodeIndex k + j))).isNone)

/-- A dirty frame will need the node as its page's parent. -/
def State.nodeWanted (s : State) (k : Nat) : Bool :=
  nodeLevel k == 1 && s.store.frames.any fun kv => kv.2.dirty && s.localPage kv.1 / 8 == nodeIndex k

/-- The nodes that may leave the cache, in their order: clean leaves no dirty frame needs, the other clean leaves,
then dirty leaves, which are written back (log 38). -/
def State.leavingNodes (s : State) : List Nat :=
  let leaves := s.store.nodes.filter fun kv => s.store.leafNode kv.1
  let clean := leaves.filter fun kv => !kv.2.dirty
  ((clean.filter fun kv => !s.nodeWanted kv.1) ++ (clean.filter fun kv => s.nodeWanted kv.1)
    ++ leaves.filter fun kv => kv.2.dirty).map (·.1)

/-- A node leaves the cache: a dirty one once it has been written back. -/
def State.dropNode (s : State) (k : Nat) : Option State :=
  let t := match afind s.store.nodes k with
    | some n => if n.dirty && s.mayWriteBack then s.writeNode (nodeLevel k) (nodeIndex k) [] else s
    | none => s
  match afind t.store.nodes k with
  | some n => if n.dirty then none else some (t.modStore fun st => { st with nodes := aerase st.nodes k })
  | none => none

/-- The tree-node cache holds 65,536 nodes: while it holds more, one leaves (R3, R315; log 38). -/
def trimCache : Nat → State → State
  | 0, s => s
  | fuel + 1, s =>
    if s.store.nodes.length ≤ 65536 then s
    else match s.leavingNodes.findSome? s.dropNode with
      | some t => trimCache fuel t
      | none => s

/-- The cache within its bound after a walk, which brings in nine nodes at most. -/
def State.trimmed (s : State) : State := trimCache 16 s

/-! ### Frames to take (R319) -/

/-- A frame the Granary may take from its page: not pinned, not open, not awaited (R319). -/
def State.evictable (s : State) (p : Nat) (f : Frame) : Bool :=
  !f.pinned && !s.pageOpen p && !s.store.queue.any fun q => q.page == p

/-- The least recently closed evictable frame that a test allows (R319). -/
def State.victim (s : State) (ok : Nat → Frame → Bool) : Option (Nat × Frame) :=
  (s.store.frames.filter fun kv => s.evictable kv.1 kv.2 && ok kv.1 kv.2).foldl
    (fun (b : Option (Nat × Frame)) kv => match b with
      | none => some kv
      | some x => if kv.2.closedAt < x.2.closedAt then some kv else some x) none

/-- The frame's page can be written back without a read: its level-1 node is resident (R327). -/
def State.readyToWrite (s : State) (p : Nat) : Bool := (s.store.parentCounter 0 (s.localPage p)).isSome

/-- A free frame, or one made free by eviction: the least recently closed evictable one, written back first when
dirty; where that cannot be, the least recently closed clean one (R319, R334). `nodes` answers the reads of the
write-back's path. -/
def State.takeFrame (s : State) (nodes : List (Option (List Byte))) : Option State :=
  if s.store.frames.length + s.store.under < 16384 then some s
  else
    let t := match s.victim fun _ _ => true with
      | some (p, f) => if f.dirty && s.mayWriteBack then s.writePage p nodes else s
      | none => s
    (t.victim fun _ f => !f.dirty).map fun kv => t.modStore fun st => { st with frames := aerase st.frames kv.1 }

/-- Frames that are free, or clean and evictable (R319). -/
def State.reserveFrames (s : State) : Nat :=
  16384 - s.store.frames.length - s.store.under
    + (s.store.frames.filter fun kv => !kv.2.dirty && s.evictable kv.1 kv.2).length

/-- Outside a freeze the Granary writes back dirty frames ahead of need while fewer than 512 are free or clean
and evictable: one step of it. Where every such frame's node path is absent, that of the first is read, and
WRITE_BACK goes on with what comes (R319, R327; log 38). -/
def State.writeAhead (s : State) : State :=
  if !s.mayWriteBack || decide (512 ≤ s.reserveFrames) then s
  else match s.victim fun p f => f.dirty && s.readyToWrite p with
    | some (p, _) => s.writePage p []
    | none =>
      let under := s.store.aheadRead.any fun p => (afind s.store.frames p).any (·.dirty)
      match s.victim fun _ f => f.dirty with
      | some (p, _) =>
        if under then s else (s.askPath (s.localPage p) 1 false).modStore fun t => { t with aheadRead := some p }
      | none => s

/-! ### Page-ins start and end (R324 to R326, R734) -/

/-- The reads of a page-in: the page and each absent node whose counter is not known to be 0 (Page-in
ladder, step 3). -/
def State.pageReads (s : State) (p : Nat) : List (Word64 × Nat) :=
  let q := s.localPage p
  let nodes := s.nodeReads q 1
  if s.store.parentCounter 0 q = some 0 then nodes else (s.store.pageAddress p, 4096) :: nodes

/-- The flit class and host tag of a page-in's reads: those of the errand that asked (R519). -/
def State.pageInFlits (s : State) (q : PageIn) : Nat × Nat :=
  (if s.pageContracted q then 1 else 2, ((s.firstAsker q.askers).bind (·.2.batonTag)).getD 0)

/-- The wait of a miss for the end of a freeze counts as a host read longer than MEMLAT (R292, R334). -/
def State.missWaits (s : State) : State :=
  if !s.store.frozen then s
  else if s.cascade.master then s.memlatOver s.devicePath
  else s.sendControl 0 [20, s.devicePath.toNat] []

/-- PAGE_IN_START: the first queued request starts (R734). -/
def execPageInStart (nodes : List (Option (List Byte))) (s : State) : Res :=
  match s.firstQueued with
  | none => s.same
  | some q =>
    if 64 ≤ s.store.under ∨ s.store.powerFail ∨ !s.dmaReady then s.same
    else match s.takeFrame nodes with
      | none => .next s.missWaits
      | some t =>
        let c := t.pageInFlits q
        let t := t.modStore fun st => { st with queue := st.queue.map fun r =>
          if r.page = q.page then { r with started := true } else r }
        .next ((t.pageReads q.page).foldl (fun u r => u.hostAsk c.1 c.2 r.1 r.2) t).trimmed

/-- How a page-in of a request ends with what its reads brought (R308, R311, R325, R326). -/
def State.pageArrives (s : State) (q : PageIn) (data : Option (List Byte)) (nodes : List (Option (List Byte))) : State :=
  let k := s.localPage q.page
  match s.bringNodes k 1 nodes with
  | (t, .readFailed) => (t.pageFails q.page 0x44).poisonedRead
  | (t, .badNode l i) => (t.quarantinePage q.page (some (l, i))).pageFails q.page 0x43
  | (t, .ok) =>
    match (t.store.parentCounter 0 k).getD 0 with
    | 0 => t.fillFrame q q.opener []
    | c => match data with
      | none => (t.pageFails q.page 0x44).poisonedRead
      | some octets => match openPage t.store.liveKey q.page c octets with
        | none => (t.quarantinePage q.page none).pageFails q.page 0x43
        | some (_, warden, words) => t.fillFrame q (some warden) words

/-- PAGE_IN_COMPLETE: verification and delivery (R308, R311, R324 to R326). -/
def execPageInComplete (page : Nat) (data : Option (List Byte)) (nodes : List (Option (List Byte))) (s : State) : Res :=
  match s.store.queue.find? fun r => r.page == page && r.started with
  | none => s.same
  | some q => .next (s.pageArrives q data nodes).lanesLook.trimmed

/-- WRITE_BACK. -/
def execWriteBack (target : WriteBackTarget) (nodes : List (Option (List Byte))) (s : State) : Res :=
  if !s.mayWriteBack then s.same
  else match target with
    | .page p => .next (s.writePage p nodes).trimmed
    | .node l i => .next (s.writeNode l i nodes).trimmed

end Sys2Proof.Machine
end

