-- ==== Sys2Proof/Machine/Checkpoints.lean ====
section
/-!
DEFINITION. Sys2Proof/Machine/Checkpoints.lean: opening and closing the Store, checkpoints, the
power-fail warning and epochs (R299 to R305, R329 to R351).
-/
namespace Sys2Proof.Machine

/-! ### The map registers (R301, R304) -/

/-- A share may stand in the map (R301). -/
def shareOk (pages : Nat) (x : Share) : Bool :=
  decide (1 ≤ x.count) && decide (x.first + x.count ≤ pages) && pathOk x.path && pathLevel x.path == 1

/-- FIRST ascends without overlap (R301). -/
def sharesAscend : List Share → Bool
  | a :: b :: rest => decide (a.first + a.count ≤ b.first) && sharesAscend (b :: rest)
  | _ => true

/-- The map, base and size that OPEN and OPEN_NEW accept (R301, ST_BASE, ST_SIZE). -/
def Store.mapOk (t : Store) : Bool :=
  let l := t.shares
  t.base.toNat % 4096 == 0 && decide (1 ≤ t.pages) && decide (t.pages ≤ 2 ^ 30)
    && decide (l.map (·.1) = List.range l.length) && l.all (fun kv => shareOk t.pages kv.2)
    && sharesAscend (l.map (·.2)) && decide ((l.map fun kv => kv.2.path).eraseDups.length = l.length)

/-- The map entry INDEX reaches. -/
def Store.entry (t : Store) : Share := aget {} t.map t.mapIndex

/-- Change the entry INDEX reaches, unless the Store is not CLOSED (R304). -/
def Store.writeEntry (t : Store) (f : Share → Share) : Store :=
  if t.state = .closed then { t with map := aput t.map t.mapIndex (f t.entry) } else t

/-- INDEX advances (R304). -/
def Store.advance (t : Store) : Store := { t with mapIndex := (t.mapIndex + 1) % 4096 }

def ShareState.code (x : ShareState) : Nat :=
  match x with
  | .closed => 0
  | .opened => 1
  | .absent => 2
  | .stale => 3
  | .noRecord => 4
  | .newRefused => 5

/-- ST_MAP_OWNER as read. -/
def Store.ownerWord (t : Store) : Word64 := BitVec.ofNat 64 (t.entry.state.code * 2 ^ 37 + t.entry.path.toNat)

/-- ST_MAP_OWNER: a read or a write of the register, after which INDEX advances (R304). -/
def execStMapOwner (write : Option Word64) (s : State) : Res :=
  match write with
  | some d => hostWrite 0xFFFFFF1000000000#64 d (fun t => .next (t.modStore fun st =>
      (st.writeEntry fun e => { e with path := d.setWidth 36 }).advance)) s
  | none => hostRead (fun t => .next ((t.emit (.barData (leOctets 8 t.store.ownerWord.toNat))).modStore Store.advance)) s

/-! ### Keys of the Store (R317, R442) -/

/-- The Store keys are written as a system backing object under CKEK (R442). Without CKEK nothing can be
written; an object of other keys is destroyed (R347, R351; log 74). -/
def State.saveStoreKeys (s : State) : State :=
  match s.vault.ckek, s.store.treeKey, s.vault.recordKey with
  | some k, some t, some r => s.modVault fun v => { v with
      storeObject := some { kek := k, tree := t, record := r, epochs := s.store.epochKeys } }
  | _, _, _ => s.modVault fun v => { v with storeObject := none }

/-- At key formation the object comes back when CKEK still opens it (R419, R442). -/
def State.loadStoreKeys (s : State) : State :=
  match s.vault.storeObject with
  | some o =>
    if s.vault.ckek = some o.kek then
      (s.modVault fun v => { v with recordKey := some o.record }).modStore fun t =>
        { t with treeKey := some o.tree, epochKeys := o.epochs }
    else s
  | none => s

/-! ### OPEN, OPEN_NEW and CLOSE -/

/-- Set the state of a share. -/
def Store.setShare (t : Store) (i : Nat) (x : ShareState) : Store :=
  { t with map := amod {} t.map i fun e => { e with state := x } }

/-- The Store enters OPENING with nothing resident (R344, R347). -/
def State.enterOpening (s : State) (new : Bool) : State :=
  let own := (s.store.shares.find? fun kv => s.ownDevice kv.2.path).map (·.1)
  let s := s.modStore fun t => { t with
    state := .opening, code := 0, openNew := new, own := own, tree := t.treePages
    unreported := t.shares.map (·.1), quarantine := [], badNodes := [], pins := [], nodes := [], frames := []
    queue := [], worn := false, draw := .none, topOwed := false, aheadRead := none
    map := t.map.map fun (kv : Nat × Share) => (kv.1, { kv.2 with state := .closed }) }
  let gone := s.store.shares.filter fun kv => !s.ownDevice kv.2.path && !s.memberPresent kv.2.path
  s.modStore fun t => { gone.foldl (fun u kv => u.setShare kv.1 .absent) t with
    unreported := t.unreported.filter fun i => !gone.any fun kv => kv.1 == i }

/-- The message that tells a member's Granary of OPEN or OPEN_NEW: the map as it stands (R344, R347; log 40). -/
def State.openMessage (s : State) (target : Word) (new : Bool) : List Nat :=
  [12, target.toNat, b2n new, s.store.base.toNat, s.store.pages]
    ++ s.store.shares.flatMap fun kv => [kv.1, kv.2.first, kv.2.count, kv.2.path.toNat]

/-- The reads of levels 7 to 9 of this device's share, issued together, except of nodes that the resident root
shows to be 0; they wait for the OPEN record, and while host memory is out of reach (R189, R217, R315, R316, R344). -/
def State.topReads (s : State) : State :=
  match s.store.own, s.ownShare with
  | some i, some sh =>
    let nodes := [7, 8, 9].flatMap fun l => (List.range (levelNodes sh.count l)).map fun k => (l, k)
    if s.dmaReady && !s.flash.recordQueued then
      (nodes.filter fun n => s.store.parentCounter n.1 n.2 ≠ some 0).foldl
        (fun t n => t.hostAsk 1 0 (t.store.nodeAddress i n.1 n.2) 64) (s.modStore fun t => { t with topOwed := false })
    else s.modStore fun t => { t with topOwed := true }
  | _, _ => s

/-- Reads of levels 7 to 9 that were waiting go out (R217, R344). -/
def State.retryTop (s : State) : State :=
  if s.store.topOwed && s.dmaReady && !s.flash.recordQueued then s.topReads else s

/-- OPEN at this owner: its newest record, the OPEN record with GEN + 1, then the reads (R344). An epoch created
after the record is discarded (R345), and one whose end the record says is destroyed (R351). -/
def State.openOwn (s : State) : State :=
  if s.store.own.isNone then s
  else match s.newestRecord with
    | none => s.recordsRead
    | some r =>
      let s := s.recordsRead.modStore fun t => { t with
        root := r.root, epoch := r.epoch, prevLive := r.prevLive, lastSeq := max t.lastSeq r.seq, openFinal := r.final
        openSeq := r.seq
        gen := r.gen
        epochKeys := t.epochKeys.filter fun kv => decide (kv.1 ≤ r.epoch) && (r.prevLive || decide (r.epoch ≤ kv.1))
        sweepDone := !r.prevLive, sweepNext := 0, sweepCk := none, sweepRead := none }
      let s := if s.vault.ckek.isSome then s.saveStoreKeys else s
      if r.gen = 0xFFFF then s.wearOut.topReads
      else ((s.modStore fun t => { t with gen := r.gen + 1 }).programRecord
        { r with gen := r.gen + 1, final := false, kind := 1 }).topReads

/-- The seeds OPEN_NEW takes: tree key, epoch key, and a record key where there is none (R317, R347). -/
def State.newNeed (s : State) : Nat := if s.vault.recordKey.isSome then 2 else 3

/-- A key of 256 bits from a seed's conditioned output (R419). -/
def seedKey (l : List (List Byte)) (i : Nat) : List Byte := (l.getD i []).take 32

/-- OPEN_NEW has its keys: EPOCH 1, a zero root, a NEW record with the next SEQ and GEN + 1 (R347). At GEN FFFFh
there is no next GEN: no record is written, and the owner writes nothing back (R310; log 102). The keys are written
before the record (R442). -/
def State.finishNew (s : State) (got : List (List Byte)) : State :=
  let old := s.newestRecord
  let gen := old.elim s.store.gen (·.gen)
  let seq := max s.store.lastSeq (old.elim 0 (·.seq)) + 1
  let s := s.recordsRead.modVault fun v => { v with recordKey := some (v.recordKey.getD (seedKey got 2)) }
  let s := s.modStore fun t => { t with
    treeKey := some (seedKey got 0), epochKeys := [(1, seedKey got 1)], epoch := 1, prevLive := false
    root := List.replicate 8 0, gen := min 0xFFFF (gen + 1), lastSeq := seq, openFinal := true, openSeq := seq, draw := .done
    sweepDone := true, sweepNext := 0, sweepCk := none, sweepRead := none }
  let s := s.saveStoreKeys
  if gen = 0xFFFF then s.wearOut else s.programRecord (s.store.record 2 seq false s.store.root)

/-- LEFT of EP_STATUS for this device's share. -/
def State.sweepLeft (s : State) : Nat :=
  match s.ownShare with
  | some sh => if s.store.sweepDone then 0 else sh.count - s.store.sweepNext
  | none => 0

/-- A member tells the master its live epochs and what its sweeper has left (EP_STATUS, R348; log 40). -/
def State.tellEpochs (s : State) : State :=
  if s.cascade.master then s
  else s.sendControl 0 [18, s.devicePath.toNat, b2n s.store.prevLive, s.sweepLeft] []

/-- ROTATE has its key: the next epoch is current and the old one stays live (R348). -/
def State.finishRotate (s : State) (got : List (List Byte)) : State :=
  ((s.modStore fun t => { t with
    epochKeys := aput t.epochKeys (t.epoch + 1) (seedKey got 0), epoch := t.epoch + 1, prevLive := true
    draw := .none, sweepDone := false, sweepNext := 0, sweepCk := none, sweepRead := none }).saveStoreKeys).tellEpochs

/-- Seeds of the pool go to a waiting draw of Store keys; without a seed and without a source it fails (R732). -/
def feedDraw : Nat → State → State
  | 0, s => s
  | fuel + 1, s => match s.store.draw with
    | .waiting new need got =>
      if need ≤ got.length then (if new then s.finishNew got else s.finishRotate got)
      else match s.entropy.pool with
        | seed :: _ => feedDraw fuel (s.dropSeed.modStore fun t => { t with draw := .waiting new need (got ++ [seed]) })
        | [] =>
          if s.mayWait then s
          else (s.modStore fun t => { t with draw := if new then .failed else .none }).record 0xAA 0
    | _ => s

/-- Advance a waiting draw of Store keys. -/
def State.feedStore (s : State) : State := feedDraw 5 s

/-- OPEN_NEW at this owner: NEW_OK, and a CKEK under which the new keys can be written before the record (R347, R442;
log 74). -/
def State.newOwn (s : State) : State :=
  if s.store.own.isNone || !s.store.newOk || s.vault.ckek.isNone then s
  else (s.modStore fun t => { t with draw := .waiting true s.newNeed [] }).feedStore

/-- OPEN or OPEN_NEW begins at this device. -/
def State.openHere (s : State) (new : Bool) : State :=
  if new then (s.enterOpening true).newOwn else (s.enterOpening false).openOwn

/-- CLOSE begins at this device: its pins end (R323). -/
def Store.startClosing (t : Store) : Store := { t.pins.foldl Store.unpin t with state := .closing }

/-- OPEN or OPEN_NEW reaches a member: only its own share is its to open (R329, R330, R344). -/
def State.memberOpens (s : State) (new : Bool) (base : Word64) (pages : Nat) (shares : List (Nat × Share)) : State :=
  let t := (s.modStore fun st => { st with base := base, pages := pages, map := shares }).openHere new
  t.modStore fun st => { st with
    unreported := st.own.toList, state := if st.own.isNone then .closed else st.state }


/-! ### Shares report (R344 to R347, Store states) -/

/-- Waiting CHECKPOINT errands that a test selects end. -/
def State.endCheckpoints (s : State) (status : Nat) (result : Word) (detail : Nat) (which : Errand → Bool) : State :=
  s.steward.errands.foldl (fun t kv =>
    if decide (kv.2.phase = .service) && descKind kv.2.raw == 1 && which kv.2 then
      t.endService kv.1 status result detail
    else t) s

/-- The status a share that failed to open puts in CODE. -/
def ShareState.status (x : ShareState) : Nat :=
  match x with
  | .closed => 0x44
  | .opened => 0
  | .absent => 0xE0
  | .stale => 0x46
  | .noRecord => 0x49
  | .newRefused => 0x4A

/-- CODE holds the status of a share that failed to open (R344 to R347). -/
def Store.shareFailed (t : Store) : Bool := t.code == 0x44 || t.code == 0x46 || t.code == 0x49 || t.code == 0x4A

/-- CODE takes a share's status: the first of those that failed stands, and 47h gives way to it (R345). -/
def Store.noteCode (t : Store) (c : Nat) : Store :=
  if c = 0 ∨ t.shareFailed then t else { t with code := BitVec.ofNat 8 c }

/-- When every share has reported the Store is OPEN, or CLOSED with the status of share 0. -/
def State.openingEnds (s : State) : State :=
  if s.store.state ≠ .opening ∨ s.store.unreported ≠ [] then s
  else if s.store.shares.any fun kv => decide (kv.2.state = .opened) then
    s.modStore fun t => { t with state := .opened, ckClock := 0, ckDue := false }
  else
    let first := (aget {} s.store.map 0).state.status
    (s.modStore fun t => { t with state := .closed, code := BitVec.ofNat 8 first }).endCheckpoints 0x45 0 0 fun _ => true

/-- A write of ST_CMD: each owner opens its share; with no owner present the opening is over at once (Store states,
R301, R344). -/
def State.storeCommand (s : State) (op : Nat) : State :=
  let opens (new : Bool) : State :=
    if s.store.mapOk then ((s.openHere new).sendDown 1 (s.openMessage 0 new) []).openingEnds
    else s.modStore fun t => { t with code := 0x48 }
  match op, s.store.state with
  | 1, .closed => opens false
  | 2, .closed => opens true
  | 3, .opened => (s.modStore Store.startClosing).sendDown 1 [13] []
  | _, _ => s

/-- STORE_OPEN. -/
def execStoreOpen (s : State) : Res := hostWrite 0 0 (fun t => .next (t.storeCommand 1)) s
/-- STORE_OPEN_NEW. -/
def execStoreOpenNew (s : State) : Res := hostWrite 0 0 (fun t => .next (t.storeCommand 2)) s
/-- STORE_CLOSE. -/
def execStoreClose (s : State) : Res := hostWrite 0 0 (fun t => .next (t.storeCommand 3)) s

/-- A share has reported. -/
def State.shareReports (s : State) (i : Nat) (x : ShareState) : State :=
  let code := match x with
    | .opened => 0
    | .absent => 0
    | y => y.status
  (s.modStore fun t => ({ t.setShare i x with unreported := t.unreported.filter (· ≠ i) }).noteCode code).openingEnds

/-- Levels 9, 8 and 7 verified from the root down, with the octets of each node by its place among levels
7, 8 and 9 in order (R313, R315, R316, R344). -/
def verifyTop (key : List Byte) (count : Nat) (octets : Nat → List Byte) : List (Nat × Nat) → Store → Option Store
  | [], t => some t
  | (l, i) :: rest, t =>
    let before := if l = 7 then 0 else if l = 8 then levelNodes count 7 else levelNodes count 7 + levelNodes count 8
    match t.parentCounter l i with
    | none => none
    | some pc => match nodeVerified key l i pc (octets (before + i)) with
      | none => none
      | some cs => verifyTop key count octets rest { t with nodes := aput t.nodes (nodeKey l i) { counters := cs } }

/-- The nodes of levels 9, 8 and 7 of a share, highest level first. -/
def topNodes (count : Nat) : List (Nat × Nat) :=
  [9, 8, 7].flatMap fun l => (List.range (levelNodes count l)).map fun i => (l, i)

/-- This device's own share ends OPEN after an OPEN (R344, R345). -/
def State.ownOpened (s : State) (i : Nat) : State :=
  let s := if s.store.openFinal then s
    else (s.record 0x47 s.store.openSeq).modStore fun t => t.noteCode 0x47
  s.shareReports i .opened

/-- This device's own report. -/
def State.ownReports (s : State) (i count : Nat) (nodes : Option (List (List Byte))) : State :=
  if s.store.topOwed || s.flash.recordQueued then s
  else if s.store.openNew then
    match s.store.draw with
    | .done => match verifyTop (s.store.treeKey.getD []) count (fun _ => []) (topNodes count) s.store with
      | some t => { s with store := t }.shareReports i .opened
      | none => s.shareReports i .newRefused
    | .waiting _ _ _ => s
    | _ => s.shareReports i .newRefused
  else if s.newestRecord.isNone then s.shareReports i .noRecord
  else match nodes with
    | none => ((s.record 0x44 0).shareReports i .closed).poisonedRead
    | some octets => match verifyTop (s.store.treeKey.getD []) count (fun k => octets.getD k []) (topNodes count) s.store with
      | some t => { s with store := t }.ownOpened i
      | none => (s.record 0x46 s.store.openSeq).shareReports i .stale

/-- The share state a member reports. -/
def reportedState (n : Nat) : ShareState :=
  match n with
  | 1 => .opened
  | 2 => .absent
  | 3 => .stale
  | 4 => .noRecord
  | 5 => .newRefused
  | _ => .closed

/-- Change the route entries of a device path. -/
def State.modEntries (s : State) (path : Word) (f : HcEntry → HcEntry) : State :=
  s.modCascade fun c => { c with
    entries := c.entries.map fun (kv : Nat × HcEntry) =>
      if pathDevice kv.2.path = pathDevice path then (kv.1, f kv.2) else kv }

/-- The share of a member has opened: WAIT clears, and the re-test a return owes runs (R540, R541). -/
def State.shareOpened (s : State) (share : Nat) : State :=
  let sh := aget {} s.store.map share
  if sh.state ≠ .opened then s
  else
    let owed := s.cascade.entries.any fun kv => pathDevice kv.2.path == pathDevice sh.path && kv.2.retestOwed
    let t := s.modEntries sh.path fun e => { e with wait := false, retestOwed := false }
    if owed then t.retest 4 false else t

/-- A member tells the master how its share opened (R344 to R347; log 40). -/
def State.tellShare (s : State) (i : Nat) : State :=
  let st := (aget {} s.store.map i).state
  if s.cascade.master ∨ s.store.unreported.contains i then s
  else (s.sendControl 0 [17, s.devicePath.toNat, st.code, b2n (decide (st = .closed)),
    b2n (decide (st = .opened) && !s.store.openFinal), s.store.openSeq] []).tellEpochs

/-- A member's share has reported: its code, its newest committed SEQ, and the re-test a return asks for; that of a
new device at the path reads NO_RECORD (R344, R345, R539 to R541). -/
def State.memberReports (s : State) (i : Nat) (st : ShareState) (rolledBack : Bool) (seq : Nat) : State :=
  let path := (aget {} s.store.map i).path
  let fresh := s.cascade.entries.any fun kv => pathDevice kv.2.path == pathDevice path && kv.2.newDevice
  let t := s.modEntries path fun e => { e with seq := seq, newDevice := false }
  if fresh && !s.store.openNew then t.shareReports i .noRecord
  else
    let t := if st = .opened ∧ rolledBack then t.modStore fun u => u.noteCode 0x47 else t
    (t.shareReports i st).shareOpened i

/-- What SHARE_OPEN_COMPLETE does with a share that has not reported yet. -/
def State.openComplete (s : State) (i : Nat) (report : ShareReport) : State :=
  if s.store.state = .closed ∨ !s.store.unreported.contains i then s
  else match report with
    | .own nodes =>
      if s.store.own = some i then (s.ownReports i (aget {} s.store.map i).count nodes).tellShare i else s
    | .member st failed rolledBack seq =>
      if s.store.own = some i then s
      else s.memberReports i (if failed then .closed else reportedState st) rolledBack seq.toNat

/-- SHARE_OPEN_COMPLETE (R344 to R347, R540). -/
def execShareOpenComplete (share : Fin 4096) (report : ShareReport) (s : State) : Res := .next (s.openComplete share report)

/-- The index of the share of a device. -/
def State.shareIndex (s : State) (path : Word) : Option Nat :=
  (s.store.shares.find? fun kv => pathDevice kv.2.path == pathDevice path).map (·.1)

/-! ### Checkpoints (R332 to R339) -/

/-- Present member owners: the paths of their shares (Checkpoint ladder, step 1). -/
def State.memberOwners (s : State) : List Word :=
  (s.store.shares.filter fun kv => !s.ownDevice kv.2.path && s.memberPresent kv.2.path).map fun kv => kv.2.path

/-- A slot is open in this device (the part of the Holding the model holds). -/
def State.anySlotOpen (s : State) : Bool := s.hands.any fun kv => !kv.2.slots.isEmpty

/-- A CHECKPOINT errand waits for a checkpoint to start (R333, R336). -/
def State.checkpointWanted (s : State) : Bool :=
  s.steward.errands.any fun kv => decide (kv.2.phase = .service) && descKind kv.2.raw == 1 && kv.2.ckWait.isNone

/-- The Store is OPEN or CLOSING. -/
def Store.live (t : Store) : Bool := decide (t.state = .opened) || decide (t.state = .closing)

/-- This owner holds a token; a device that owns no share takes none (R339). -/
def Store.hasToken (t : Store) : Bool := t.own.isNone || decide (0 < t.tokens)

/-- Every present owner holds a token (R339). -/
def State.allTokens (s : State) : Bool :=
  s.store.hasToken && s.memberOwners.all fun p =>
    s.cascade.entries.any fun kv => pathDevice kv.2.path == pathDevice p && kv.2.token

/-- A member that holds a token tells the master so (R339; log 40). -/
def State.tellToken (s : State) : State :=
  if s.cascade.master || !s.cascade.joined || s.store.tokens = 0 then s
  else s.sendControl 0 [19, s.devicePath.toNat] []

/-- The owner takes part in a checkpoint: PREPARE (steps 1 and 2). -/
def Store.prepare (t : Store) (seq : Nat) (final : Bool) : Store :=
  { t with
    ckPhase := .preparing, ckSeq := seq, ckIsFinal := final, ckRecorded := false
    tokens := if t.own.isNone then t.tokens else t.tokens - 1
    sweepCk := if t.sweepDone && t.prevLive && t.sweepCk.isNone then some seq else t.sweepCk }

/-- The checkpoint starts: PREPARE goes to every member (R333, R339, step 1). -/
def State.startCheckpoint (s : State) (final : Bool) : State :=
  let seq := s.store.lastSeq + 1
  let owners := s.memberOwners
  let s := s.modStore fun t => { t.prepare seq final with
    ckDue := false, ckClock := 0, lastSeq := seq, ckOwners := owners, ckMembers := owners }
  let s := s.modCascade fun c => { c with
    entries := c.entries.map fun (kv : Nat × HcEntry) =>
      if owners.any (fun p => pathDevice p == pathDevice kv.2.path) then (kv.1, { kv.2 with token := false }) else kv }
  let s := s.modSteward fun w => { w with
    errands := w.errands.map fun (kv : Nat × Errand) =>
      if decide (kv.2.phase = .service) && descKind kv.2.raw == 1 && kv.2.ckWait.isNone
      then (kv.1, { kv.2 with ckWait := some seq }) else kv }
  s.sendDown 1 [0, seq, b2n final] []

/-- CHECKPOINT_START: the Store is OPEN or CLOSING, none is in progress, one is owed and every owner holds a
token. A member takes part in the master's (R333, R339). -/
def execCheckpointStart (s : State) : Res :=
  let final := decide (s.store.state = .closing) && !s.anySlotOpen
  if s.cascade.master && s.store.live && decide (s.store.ckPhase = .idle) && s.allTokens && !s.store.powerFail
      && (s.store.ckDue || s.checkpointWanted || final) then
    .next (s.owesWake.startCheckpoint final)
  else s.same

/-- Every dirty frame and node is written back (step 2). -/
def Store.clean (t : Store) : Bool := t.frames.all (fun kv => !kv.2.dirty) && t.nodes.all fun kv => !kv.2.dirty

/-- The owner freezes and takes its root snapshot (steps 2 and 3). -/
def Store.freeze (t : Store) : Store := { t with frozen := true, snapshot := some t.root, ckPhase := .ready }

/-- The flushing read that confirms an owner's posted writes: the first octets of its share (step 3; log 103). -/
def State.flushRead (s : State) : State :=
  match s.ownShare with
  | some sh => s.hostAsk 1 0 (s.store.pageAddress sh.first) 64
  | none => s

/-- READY is published, and TIMEOUT begins to run (step 4, R335). -/
def State.publish (s : State) : State :=
  ((s.modStore fun t => { t.freeze with ckWait := 0 }).hostEvent 2 |>.interruptAll 25).record 0x4B s.store.ckSeq

/-- CHECKPOINT_READY: the owner's flushing read, its freeze and snapshot; the master publishes READY once every
member owner has reported, a member reports (steps 3 and 4). In the FINAL one no slot may be open (Store states). -/
def execCheckpointReady (s : State) : Res :=
  if s.store.ckPhase ≠ .preparing ∨ !s.store.clean ∨ s.store.ckOwners ≠ [] ∨ s.store.powerFail
      ∨ (s.store.ckIsFinal && s.anySlotOpen) ∨ (s.ownShare.isSome && !s.dmaReady) then s.same
  else if s.cascade.master then .next s.flushRead.publish
  else .next ((s.flushRead.modStore Store.freeze).sendControl 0 [1, s.devicePath.toNat] [])


/-- The checkpoint that commits as SEQ started after the sweep ended: with its commit the old epoch is no longer
live (R351). -/
def Store.retires (t : Store) (seq : Nat) : Bool := t.sweepCk.any fun q => decide (q ≤ seq)

/-- The epoch whose sweep ended before this checkpoint started is destroyed (R351). -/
def State.retireEpoch (s : State) (seq : Nat) : State :=
  if s.store.retires seq then
    ((s.modStore fun t => { t with
      prevLive := false, sweepCk := none, epochKeys := t.epochKeys.filter fun kv => decide (t.epoch ≤ kv.1) }).saveStoreKeys).tellEpochs
  else s

/-- This owner programs the record of the acknowledged root; the commit that ends the old epoch says that only one is
live (step 6, R341, R351; log 104). -/
def State.programCommit (s : State) : State :=
  let t := s.store
  if t.ckRecorded || t.own.isNone then s
  else
    let r := t.record 0 t.ckSeq t.ckIsFinal (t.snapshot.getD t.root)
    (s.programRecord { r with prevLive := r.prevLive && !t.retires t.ckSeq }).modStore fun t => { t with ckRecorded := true }

/-- COMMIT reaches this owner: it programs its record (step 6). -/
def State.commitHere (s : State) : State := (s.modStore fun t => { t with ckPhase := .acked }).programCommit

/-- A write of CK_ACK: only CK_READY.SEQ while READY counts, and not once PFW_N has fallen (CK_ACK, R341, step 5). -/
def State.ackCheckpoint (s : State) (seq : Nat) : State :=
  if s.store.ckPhase = .ready ∧ s.store.ckSeq = seq ∧ !s.store.powerFail then s.commitHere.sendDown 1 [2, seq] []
  else s

/-- CK_ACK. -/
def execCkAck (data : Word64) (s : State) : Res :=
  hostWrite 0xFFFFFFFF00000000#64 data (fun t => .next (t.ackCheckpoint (data.toNat % 2 ^ 32))) s

/-- The commit's record is programmed: the key of an epoch that it ends is destroyed, and a member tells the master
(R337, R351). -/
def State.commitRecorded (s : State) : State :=
  let t := s.retireEpoch s.store.ckSeq
  if t.cascade.master then t else t.sendControl 0 [28, t.devicePath.toNat, t.store.ckSeq] []

/-- The program of a record line has ended: one that did not verify is programmed into the next line, and what waited for
it goes on (R337, R344, R351, R495; log 121). -/
def State.recordEnded (s : State) (o : FlashOp) (ok : Bool) : State :=
  if !ok then s.recordLineFor fun a t => t.queueFlash { op := 1, addr := a, words := o.words }
  else
    let isCommit := wfield (o.words.getD 12 0) 1 0 == 0 && wfield (o.words.getD 13 0) 31 0 == s.store.ckSeq
    (if isCommit && s.store.ckRecorded then s.commitRecorded else s).retryTop

/-- The Store closes: every frame is freed, every pin ends, and the shares that were OPEN read CLOSED; a STALE
one stays STALE until the next OPEN (Store states, R323, R346). -/
def Store.close (t : Store) : Store :=
  { t with
    state := .closed, frames := [], pins := [], nodes := [], queue := []
    map := t.map.map fun (kv : Nat × Share) =>
      (kv.1, { kv.2 with state := if kv.2.state = .opened then .closed else kv.2.state }) }

/-- The freeze ends and the commit is published, source 25 on the master (step 7). -/
def State.commitDone (s : State) : State :=
  let seq := s.store.ckSeq
  let final := s.store.ckIsFinal
  let s := s.modStore fun t => { t with
    ckPhase := .idle, frozen := false, snapshot := none, ckDone := seq, ckFinal := final, ckIsFinal := false
    ckMembers := [] }
  let s := s.endCheckpoints 0 (wd seq) 0 fun x => x.ckWait.isSome
  let s := if final then s.modStore Store.close else s
  if s.cascade.master then s.interruptAll 25 else s

/-- CHECKPOINT_DONE: step 7, after this owner's record and, at the master, those of its members (R337). -/
def execCheckpointDone (s : State) : Res :=
  if s.store.ckPhase = .acked ∧ s.store.ckMembers = [] ∧ !s.flash.recordQueued then .next s.commitDone else s.same

/-- A member owner has programmed its record: it has the commit (R337). -/
def State.memberCommitted (s : State) (path : Word) (seq : Nat) : State :=
  (s.modEntries path fun e => { e with seq := seq }).modStore fun t => { t with
    ckMembers := t.ckMembers.filter fun w => pathDevice w != pathDevice path }

/-- A checkpoint ends without a commit at this owner: its freeze ends. -/
def Store.dropCheckpoint (t : Store) : Store :=
  { t with
    ckPhase := .idle, frozen := false, snapshot := none, ckIsFinal := false, ckOwners := [], ckMembers := []
    sweepCk := if t.sweepCk = some t.ckSeq then none else t.sweepCk }

/-- The checkpoint is abandoned at this owner: after a FINAL one the Store is OPEN (R335, Store states). -/
def Store.abandonCheckpoint (t : Store) : Store :=
  { t.dropCheckpoint with state := if t.ckIsFinal then .opened else t.state }

/-- No ACK within TIMEOUT: freezes end without a commit (R335). -/
def State.abandon (s : State) : State :=
  let seq := s.store.ckSeq
  let final := s.store.ckIsFinal
  let s := s.modStore fun t => { t.abandonCheckpoint with ckAbandoned := true, code := if final then 0x4C else t.code }
  let s := (s.endCheckpoints 0x4C 0 seq fun x => x.ckWait.isSome).sendDown 1 [15, seq] []
  (s.interruptAll 25).record 0x4C seq

/-- A checkpoint stopped before its ACK ends here as it was, to start again at the next INTERVAL; the errands that
wait for it ask for another (R336, R341, R343; log 74). -/
def State.dropPart (s : State) : State :=
  let t := s.modStore Store.dropCheckpoint
  t.modSteward fun w => { w with
    errands := w.errands.map fun (kv : Nat × Errand) =>
      if decide (kv.2.phase = .service) && descKind kv.2.raw == 1 then (kv.1, { kv.2 with ckWait := none }) else kv }

/-- A checkpoint before its ACK. -/
def Store.unacked (t : Store) : Bool := decide (t.ckPhase = .preparing) || decide (t.ckPhase = .ready)

/-- The checkpoint that PFW_N stopped before its ACK: the master drops it on every owner, and a member tells the
master, which does (R343). -/
def State.restartCheckpoint (s : State) : State :=
  if !s.store.unacked then s
  else if s.cascade.master then s.dropPart.sendDown 1 [26, 0, s.store.ckSeq] []
  else s.dropPart.sendControl 0 [26, s.devicePath.toNat, s.store.ckSeq] []

/-- TIMEOUT has passed since READY, in ms, 0 as 1 (R335, CK_CTRL). -/
def Store.ackOverdue (t : Store) : Bool := decide (max 1 t.ckTimeout * 100000 ≤ t.ckWait)

/-- CHECKPOINT_ABANDONED: at the master, TIMEOUT after READY (R335). -/
def execCheckpointAbandoned (s : State) : Res :=
  if s.cascade.master ∧ s.store.ckPhase = .ready ∧ s.store.ackOverdue then .next s.abandon else s.same

/-- 10 ns of the wait for an ACK, at whose end the checkpoint is abandoned (R335). -/
def State.tickAck (s : State) : State :=
  if s.cascade.master ∧ s.store.ckPhase = .ready then
    let t := s.modStore fun t => { t with ckWait := t.ckWait + 1 }
    if t.store.ackOverdue then t.abandon else t
  else s

/-- A write of CK_CTRL: a changed INTERVAL restarts the count (R333). -/
def State.writeCkCtrl (s : State) (data : Word64) : State :=
  let i := bitsOf data.toNat 15 0
  s.modStore fun t => { t with
    ckTimeout := bitsOf data.toNat 47 32, ckInterval := i
    ckDue := t.ckDue && i == t.ckInterval
    ckClock := if i = t.ckInterval then t.ckClock else 0 }

/-- CK_CTRL. -/
def execCkCtrl (data : Word64) (s : State) : Res :=
  hostWrite 0xFFFF0000FFFF0000#64 data (fun t => .next (t.writeCkCtrl data)) s

/-- INTERVAL has passed since the count began, in units of 100 ms (R333). -/
def Store.intervalOver (t : Store) : Bool := t.ckInterval != 0 && decide (t.ckInterval * 10000000 ≤ t.ckClock)

/-- CHECKPOINT_INTERVAL: a periodic checkpoint falls due while the Store is OPEN or CLOSING (R333). -/
def execCheckpointInterval (s : State) : Res :=
  if s.store.live && s.store.intervalOver then .next (s.modStore fun t => { t with ckDue := true }) else s.same

/-! ### Power-fail warning (R341, R343, R500) -/

/-- Every erase under way is suspended (R500), and a sector of bank 0 marked (Power-fail ladder, step 3). -/
def State.suspendForPower (s : State) : State :=
  let t := (s.suspendErase false).suspendErase true
  match s.eraseUnderWay false with
  | some o => t.modFlash fun f => { f with marked := sectorOf o.addr :: f.marked.filter (· ≠ sectorOf o.addr) }
  | none => t

/-- PFW_N_FALL: write-back, sweeping and page-in reads stop, and a record owed is programmed (R341). -/
def execPfwNFall (s : State) : Res :=
  let t := (s.suspendForPower.modStore fun t => { t with powerFail := true }).modStartup fun x => { x with pfw := true }
  let t := if t.store.ckPhase = .acked then t.programCommit else t
  .next t.programArchive

/-! ### Epochs (R348 to R351) -/

/-- Some present owner has two live epochs (EP_STATUS.SWEEPING). -/
def State.sweeping (s : State) : Bool :=
  s.store.prevLive || s.cascade.entries.any fun kv => decide (kv.2.state = .present) && kv.2.twoEpochs

/-- A draw of a new epoch key is under way. -/
def StoreDraw.busy (d : StoreDraw) : Bool :=
  match d with
  | .waiting _ _ _ => true
  | _ => false

/-- An owner rotates: its share OPEN with one epoch live, and no draw of a key under way (R348, R732). -/
def State.rotateHere (s : State) : State :=
  if (s.ownShare.map (·.state)) = some .opened ∧ !s.store.prevLive ∧ !s.store.draw.busy then
    (s.modStore fun t => { t with draw := .waiting false 1 [] }).feedStore
  else s

/-- ROTATE: refused while some owner has two epochs live or the Store is not OPEN; else every owner rotates (R348). -/
def State.rotateEpoch (s : State) : State :=
  if s.store.state ≠ .opened ∨ s.sweeping then s.modStore fun t => { t with code := 0x4E }
  else s.rotateHere.sendDown 1 [14] []

/-- ROTATE written in EP_CTRL. -/
def execRotate (s : State) : Res := hostWrite 0 0 (fun t => .next t.rotateEpoch) s

/-- The sweep has visited the page at sweepNext. -/
def Store.sweepOn (t : Store) (count : Nat) : Store :=
  if count ≤ t.sweepNext + 1 then { t with sweepNext := t.sweepNext + 1, sweepDone := true }
  else { t with sweepNext := t.sweepNext + 1 }

/-- The sweeper goes on to its next page. -/
def State.sweepNextPage (s : State) (count : Nat) : State :=
  ((s.modStore fun t => { t.sweepOn count with sweepRead := none }).tellEpochs).trimmed

/-- A page whose counter is not known to be 0 and that is not resident is read, with the absent nodes of its path
(R316, R349). -/
def State.sweepReads (s : State) (page q : Nat) : State :=
  ((s.pageReads page).foldl (fun t r => t.hostAsk 2 0 r.1 r.2) s).modStore fun t => { t with
    sweepRead := some (t.parentCounter 0 q) }

/-- A read of the sweeper fails: nothing is quarantined, and the page is read again (R201, R326; log 103). -/
def State.sweepFails (s : State) : State := s.poisonedRead.modStore fun t => { t with sweepRead := none }

/-- The lock of R349: the page is sealed again under the current epoch and written back; a miss that waits for the
unlock finds it resident in a clean frame (R350). -/
def State.reseal (s : State) (page : Nat) (warden : Bool) (words : List Word) : State :=
  match s.sealOut page warden (asetRun 0 [] 0 words) with
  | none => (s.advanceCounter ((s.store.parentCounter 0 (s.localPage page)).getD 0)).2
  | some t => match t.store.queue.find? fun q => q.page == page with
    | none => t
    | some q => match (if q.started then some t else t.takeFrame []) with
      | some u => u.fillFrame q (some warden) words
      | none => t

/-- A contracted errand is admitted in this device (R350). -/
def State.contractedHere (s : State) : Bool :=
  s.steward.errands.any fun kv => (s.deadlineOf kv.2).isSome && (match kv.2.phase with
    | .waiting => true
    | .placed _ => true
    | .ending (some _) => true
    | _ => false)

/-- The sweeper may lock a page: CT_MEMLAT is not below 700 while a contracted errand is admitted here (R350). -/
def State.sweepMayLock (s : State) : Bool := !(decide (s.steward.ctMemlat < 700) && s.contractedHere)

/-- The sweeper's read has arrived: a copy whose counter another event changed is discarded, one that verifies
under another epoch than the current one is sealed again once the page may be locked (R349, R350). One that does not
verify is quarantined, as a page-in would (R325; log 117). A counter not known at the read's issue, whose node has
come in meanwhile, leaves the copy's age open, and the page is read again. -/
def State.sweepArrives (s : State) (page q count : Nat) (before : Option Nat) (data : Option (List Byte))
    (nodes : List (Option (List Byte))) : State :=
  if before.isNone && (s.store.parentCounter 0 q).isSome then s.sweepReads page q
  else match s.bringNodes q 1 nodes with
    | (t, .readFailed) => t.sweepFails
    | (t, .badNode l i) => (t.quarantinePage page (some (l, i))).sweepNextPage count
    | (t, .ok) =>
      match (t.store.parentCounter 0 q).getD 0, data with
      | 0, _ => t.sweepNextPage count
      | _, none => t.sweepFails
      | c, some octets =>
        if before.any (· ≠ c) then t.sweepNextPage count
        else match openPage t.store.liveKey page c octets with
          | none => (t.quarantinePage page none).sweepNextPage count
          | some (e, warden, words) =>
            if e = t.store.epoch then t.sweepNextPage count
            else if t.sweepMayLock then (t.reseal page warden words).sweepNextPage count
            else t.modStore fun st => { st with sweepRead := none }

/-- A resident page is marked dirty unless its counter is 0 (R349). -/
def State.sweepResident (s : State) (page q count : Nat) (nodes : List (Option (List Byte))) : State :=
  match s.bringNodes q 1 nodes with
  | (t, .readFailed) => t.sweepFails
  | (t, .badNode l i) => (t.quarantinePage page (some (l, i))).sweepNextPage count
  | (t, .ok) =>
    let u := if t.store.parentCounter 0 q = some 0 then t
      else t.modStore fun st => { st with frames := amod {} st.frames page fun f => { f with dirty := true } }
    u.sweepNextPage count

/-- The page the sweeper visits: counter 0 skipped, a resident page dirtied, any other read, then what its read
brought (R349); a quarantined page is skipped (log 117). -/
def State.sweepVisit (s : State) (page q count : Nat) (data : Option (List Byte)) (nodes : List (Option (List Byte))) : State :=
  if s.quarantined page || decide (s.store.parentCounter 0 q = some 0) then s.sweepNextPage count
  else if (afind s.store.frames page).isSome then s.sweepResident page q count nodes
  else match s.store.sweepRead with
    | none => s.sweepReads page q
    | some c => s.sweepArrives page q count c data nodes

/-- The sweeper may run: no queued miss of a contracted errand needs the seal engine (R350). -/
def State.sweepMayRun (s : State) : Bool := !(s.store.queue.any fun q => !q.started && s.pageContracted q)

/-- SWEEP_PAGE: the sweeper visits its next page, or its read of it arrives (R349, R350). -/
def execSweepPage (data : Option (List Byte)) (nodes : List (Option (List Byte))) (s : State) : Res :=
  match s.ownShare with
  | none => s.same
  | some sh =>
    if s.store.sweepDone || !s.store.prevLive || sh.state ≠ .opened || !s.mayWriteBack || !s.sweepMayRun then s.same
    else .next (s.sweepVisit (sh.first + s.store.sweepNext) s.store.sweepNext sh.count data nodes)

end Sys2Proof.Machine
end

