-- ==== Sys2Proof/Machine/Lanes.lean ====
section
/-!
DEFINITION. Sys2Proof/Machine/Lanes.lean: the cipher lanes (file 09): the lane window, a GO and its
refusals, and the end of an operation.
-/
namespace Sys2Proof.Machine

/-! ### Reporting -/

/-- The LANE event word. -/
def laneWord (status octets : Nat) : Word := wd (2 ^ 35 + status * 2 ^ 24 + octets)

/-- Latch the LANE event (R361). -/
def State.latchLane (s : State) (h status octets : Nat) : State :=
  (s.modHand h fun x => { x with laneEv := some (laneWord status octets) }).eventTo h .lane

/-- A GO refused: reported at once, nothing else (R361, R381). -/
def State.laneRefuse (s : State) (h l code : Nat) : State :=
  (s.modLane l fun k => { k with regs := { k.regs with
    status := BitVec.ofNat 8 code, octets := if k.regs.op.isSome then k.regs.octets else 0 } }).latchLane h code 0

/-- A lane whose operation is over: an owed flush and an owed release take place (R367, R375). -/
def State.laneIdle (s : State) (h l : Nat) : State :=
  let s := s.modLane l fun k => { k with
    cache := if k.flushOwed then [] else k.cache, flushOwed := false, regs := { k.regs with op := none } }
  if (s.hand h).laneReleasing then s.dropLane h else s

/-! ### Runs (R368) -/

/-- The errand's descriptor. -/
def State.rawOf (s : State) (h : Nat) : List Byte :=
  match s.errandOf h with
  | some (_, x) => x.raw
  | none => []

/-- A host end lies within its buffer and has the direction (R368). -/
def hostRunOk (raw : List Byte) (i off n : Nat) (write : Bool) : Bool :=
  (bufDir raw i == 3 || bufDir raw i == (if write then 2 else 1)) && decide (off + n ≤ bufLen raw i)

/-- The D-space runs of a GO: source, destination and blob, with their directions. -/
def goRuns (w key : Word) (src dst inN outN : Nat) : List (Nat × Nat × Bool) :=
  (if goSrc w = 0 then [(src, packWords (packOf (goPack w)) inN, false)] else [])
    ++ (if goDst w = 0 then [(dst, packWords (packOf (goPack w)) outN, true)] else [])
    ++ (if key.getLsbD 35 then [] else [(wfield key 23 0, 24, false)])

/-- Check runs in order (R368). -/
def checkRuns (v : AcuView) (h level code : Nat) : List (Nat × Nat × Bool) → State → Bool × State
  | [], s => (true, s)
  | (a, n, w) :: rest, s =>
    match s.checkRun v h level a n w code with
    | (true, t) => checkRuns v h level code rest t
    | r => r

/-- The whole range check of a GO (R368). -/
def State.goRange (s : State) (h : Nat) (w : Word) (r : LaneRegs) (n : Nat) : Bool × State :=
  let raw := s.rawOf h
  let inN := goInput w n r.aad.toNat
  let outN := goOutput w n
  let hostBad := (goSrc w != 0 && !hostRunOk raw (goSrc w) r.src.toNat inN false)
    || ((goDst w == 1 || goDst w == 2) && !hostRunOk raw (goDst w) r.dst.toNat outN true)
  if hostBad then (false, s)
  else
    let v := s.acuView h
    checkRuns v.1 h (s.hand h).level 0x66 (goRuns w r.key r.src.toNat r.dst.toNat inN outN) v.2

/-- A run stays mapped (a slot closed during the run ends it; log 41). -/
def runOpen (x : Hand) (a n : Nat) (write : Bool) : Bool :=
  (List.range n).all fun i => decide (dRegion x (a + i) write = .ok)

/-! ### Key blobs (R363 to R366, R434) -/

/-- Octets of WRAPPED and of the key by KEYLEN. -/
def blobSizes (keylen : Nat) : Option (Nat × Nat) :=
  match keylen with
  | 0 => some (32, 16)
  | 1 => some (40, 24)
  | 2 => some (48, 32)
  | 3 => some (48, 32)
  | 4 => some (80, 64)
  | _ => none

/-- The first 36 bits of an octet string. -/
def first36 (bs : List Byte) : Word := wd (beNat (bs.take 5) / 16)

/-- The key of a blob the Vault's wrap keys open (R364). -/
def Vault.openBlob (v : Vault) (blob : List Word) : Option (List Byte) :=
  let w0 := blob.getD 0 0
  match blobSizes (wfield w0 31 29), afind v.lwks (wfield w0 23 20) with
  | some (wn, kn), some lwk =>
    let wrapped := packOut .loose (blob.drop 2) wn
    if wfield w0 35 32 = 1 ∧ wfield w0 28 26 ≤ 3 ∧ wfield w0 25 24 ≠ 0 ∧ wfield w0 19 0 = 0
        ∧ blob.getD 1 0 = first36 wrapped
        ∧ ((blob.drop 2).take (wn / 4)).all (fun w => decide (wfield w 35 32 = 0))
        ∧ (blob.drop (2 + wn / 4)).all (· == 0) then
      match kwpOpen lwk wrapped with
      | some p => if p.take 5 = word40 w0 ∧ p.length = 5 + kn then some (p.drop 5) else none
      | none => none
    else none
  | _, _ => none

/-- The 24 words LN_KEY names, of the Hand that holds the grant (R364, R434). -/
def State.blobWords (s : State) (h : Nat) (key : Word) : List Word :=
  if key.getLsbD 35 then
    let i := wfield key 11 0
    if i / 8 = h then padBlob (aget [] s.vault.staging i) else List.replicate 24 0
  else s.readRun h (wfield key 23 0) 24
where padBlob (l : List Word) : List Word := l ++ List.replicate (24 - l.length) 0

/-- The blob's page that is not resident. -/
def State.blobMissing (s : State) (h : Nat) (key : Word) : Option Nat :=
  if key.getLsbD 35 then none else s.runMissing h (wfield key 23 0) 24

/-- The purpose a command needs (Key purpose table). -/
def goPurpose (w : Word) : Nat :=
  match goMode w with
  | 5 => 3
  | 7 => 2
  | 8 => 2
  | _ => b2n (goDec w)

/-- PURPOSE, KEYLEN and WORLD allow the key (R365). -/
def blobPolicy (w : Word) (warden : Bool) (w0 : Word) : Bool :=
  let world := wfield w0 25 24
  wfield w0 28 26 == goPurpose w && ((wfield w0 31 29 == 3 || wfield w0 31 29 == 4) == (goMode w == 6))
    && (world == 3 || world == (if warden then 1 else 2))

/-- What a lane finds of its key. -/
inductive KeyFound where
  | refused (code : Nat)
  | key (k : List Byte)
deriving DecidableEq, Repr

/-- The lane fetches the blob and looks in its cache, then R364 and R365 (R366); a refusal leaves the lane as it
was (R381). -/
def State.laneKey (s : State) (h l : Nat) (w key : Word) (warden : Bool) : KeyFound × State :=
  let blob := s.blobWords h key
  let head := blob.take 22
  let policy (k : List Byte) : KeyFound := if blobPolicy w warden (blob.getD 0 0) then .key k else .refused 0x63
  let keep (f : KeyFound) (t : State) : KeyFound × State :=
    match f with
    | .key _ => (f, t)
    | .refused _ => (f, s)
  match (s.lane l).cache.find? fun c => decide (c.blob = head) with
  | some c => keep (policy c.key) (s.modLane l fun x => { x with
      cache := c :: x.cache.filter (fun y => decide (y.blob ≠ head)), regs := { x.regs with keyHit := true } })
  | none =>
    match s.vault.openBlob blob with
    | none => (.refused 0x62, s)
    | some k => keep (policy k) (s.modLane l fun x => { x with
        cache := ({ blob := head, key := k } :: x.cache).take 8, regs := { x.regs with keyHit := false } })

/-! ### GO (R358, R360, R373, R381) -/


/-- The D-space source words a GO will read, as far as they are resident. -/
def State.goSeen (s : State) (h : Nat) (w : Word) (src inN : Nat) : List (Option Word) :=
  if goSrc w ≠ 0 then []
  else (List.range (packWords (packOf (goPack w)) inN)).map fun i => s.wordNow h (src + i)

/-- The errand whose LANE_BYTES n more input octets would pass (R279). -/
def State.laneOverrun (s : State) (h n : Nat) : Option Nat :=
  match s.errandOf h, s.verbOf h with
  | some (e, x), some d => if d.laneBytes < x.laneBytes + n then some e else none
  | _, _ => none

/-- Input octets of an operation that starts are metered (R279). -/
def State.chargeLane (s : State) (h n : Nat) : State :=
  match s.errandOf h with
  | some (e, x) => s.setErrand e { x with laneBytes := x.laneBytes + n }
  | none => s

/-- The flit class and host tag of an errand's requests to host memory (R519). -/
def State.errandFlits (s : State) (e : Option Nat) : Nat × Nat :=
  match e.bind s.errand? with
  | some x => (s.flitClass x, x.batonTag.getD 0)
  | none => (2, 0)

/-- An operation's read of its host source goes out, when it has one, once DMA may be issued (R189, R371). -/
def State.laneAsk (s : State) (l : Nat) (o : LaneOp) : State :=
  if goSrc o.go = 0 ∨ o.asked ∨ !s.dmaReady then s
  else
    let c := s.errandFlits o.errand
    (s.hostAsk c.1 c.2 (BitVec.ofNat 64 (bufAddr (s.rawOf o.hand) (goSrc o.go) + o.src)) (goInput o.go o.len o.aad)).modLane l
      fun k => { k with regs := { k.regs with op := k.regs.op.map fun p => { p with asked := true } } }

/-- The operation starts: its input is metered (R279), STATUS and OCTETS are clear, and its host read goes out. -/
def State.laneBegin (s : State) (l : Nat) (o : LaneOp) : State :=
  ((s.chargeLane o.hand (goInput o.go o.len o.aad)).modLane l fun k => { k with regs := { k.regs with
    status := 0, octets := 0, op := some o } }).laneAsk l o

/-- The operation a GO describes (R358). -/
def State.laneOpOf (s : State) (h l : Nat) (w : Word) (n : Nat) : LaneOp :=
  let r := (s.lane l).regs
  { go := w, src := r.src.toNat, dst := r.dst.toNat, len := n, aad := goAad w r.aad.toNat
    iv := r.iv.flatMap (fun x => beOctets 4 x.toNat), keyWord := r.key, warden := (s.hand h).st.getLsbD 35
    seen := s.goSeen h w r.src.toNat (goInput w n r.aad.toNat), hand := h, errand := (s.hand h).errand }

/-- Checks 6 to 8 of R381, and the start; while the blob's page is not resident the lane is busy and checks 7 and 8
wait for it, with no other effect yet (R371). -/
def State.goKey (s : State) (h l : Nat) (w : Word) (n : Nat) : State :=
  let r := (s.lane l).regs
  let x := s.hand h
  let short := match goHeld w n with
    | some p => decide (x.rbGranules < (p + 4095) / 4096)
    | none => false
  let o := s.laneOpOf h l w n
  if short then s.laneRefuse h l 0x64
  else if (s.blobMissing h r.key).isSome then
    s.modLane l fun k => { k with regs := { k.regs with op := some { o with keyDue := true } } }
  else match s.laneKey h l w r.key o.warden with
    | (.refused c, t) => t.laneRefuse h l c
    | (.key k, t) => t.laneBegin l { o with key := k }

/-- A write of LN_GO: the checks of R381 in order. -/
def State.laneGo (s : State) (h l : Nat) (w : Word) : State :=
  let r := (s.lane l).regs
  if r.op.isSome then s.laneRefuse h l 0x67
  else if !goFieldsOk w r.key then s.laneRefuse h l 0x65
  else match goPayload w r.len.toNat with
    | none => s.laneRefuse h l 0x65
    | some n =>
      if !goLengthOk w n then s.laneRefuse h l 0x65
      else if (match goHeld w n with
        | some p => decide (2 ^ 20 < p)
        | none => false) then s.laneRefuse h l 0x61
      else match s.goRange h w r n with
        | (false, t) => t.laneRefuse h l 0x66
        | (true, t) => match t.laneOverrun h (goInput w n r.aad.toNat) with
          | some e => (t.laneRefuse h l 0x20).stopErrand e 0x20 2
          | none => t.goKey h l w n

/-! ### The window (R26, R67, R277, R357) -/

/-- A Hand held in name without its unit blocks until it has one (R277). -/
def State.blockOnUnit (s : State) (h : Nat) (slice : Bool) : State :=
  (s.modHand h fun x => { x with state := .blocked (.unit slice) }).settle

/-- An access to the lane window reaches the granted lane (R67, R277). -/
def onLane (h : Nat) (k : Nat → State → IoRes) (s : State) : IoRes :=
  let x := s.hand h
  if !x.laneHeld then .fault s 0x2000
  else match x.lane with
    | none => .block (s.blockOnUnit h false)
    | some l => k l s

/-- LN_GO written with a mode and direction. -/
def goRow (h : Nat) (w : Word) (s : State) : Res :=
  regAccess h 0x2005 true 0 (onLane h fun l t => .done 0 (t.laneGo h l w)) s

/-- ECB_ENCRYPT. -/
def execEcbEncrypt (h : HandId) (go : LaneGo) (s : State) : Res := goRow h (goWord go 0 false) s
/-- ECB_DECRYPT. -/
def execEcbDecrypt (h : HandId) (go : LaneGo) (s : State) : Res := goRow h (goWord go 0 true) s
/-- CBC_ENCRYPT. -/
def execCbcEncrypt (h : HandId) (go : LaneGo) (s : State) : Res := goRow h (goWord go 1 false) s
/-- CBC_DECRYPT. -/
def execCbcDecrypt (h : HandId) (go : LaneGo) (s : State) : Res := goRow h (goWord go 1 true) s
/-- CTR_ENCRYPT. -/
def execCtrEncrypt (h : HandId) (go : LaneGo) (s : State) : Res := goRow h (goWord go 2 false) s
/-- CTR_DECRYPT. -/
def execCtrDecrypt (h : HandId) (go : LaneGo) (s : State) : Res := goRow h (goWord go 2 true) s
/-- GCM_ENCRYPT. -/
def execGcmEncrypt (h : HandId) (go : LaneGo) (s : State) : Res := goRow h (goWord go 3 false) s
/-- GCM_DECRYPT. -/
def execGcmDecrypt (h : HandId) (go : LaneGo) (s : State) : Res := goRow h (goWord go 3 true) s
/-- CCM_ENCRYPT. -/
def execCcmEncrypt (h : HandId) (go : LaneGo) (s : State) : Res := goRow h (goWord go 4 false) s
/-- CCM_DECRYPT. -/
def execCcmDecrypt (h : HandId) (go : LaneGo) (s : State) : Res := goRow h (goWord go 4 true) s
/-- CMAC_GENERATE. -/
def execCmacGenerate (h : HandId) (go : LaneGo) (s : State) : Res := goRow h (goWord go 5 false) s
/-- CMAC_VERIFY. -/
def execCmacVerify (h : HandId) (go : LaneGo) (s : State) : Res := goRow h (goWord go 5 true) s
/-- XTS_ENCRYPT. -/
def execXtsEncrypt (h : HandId) (go : LaneGo) (s : State) : Res := goRow h (goWord go 6 false) s
/-- XTS_DECRYPT. -/
def execXtsDecrypt (h : HandId) (go : LaneGo) (s : State) : Res := goRow h (goWord go 6 true) s
/-- KW_WRAP. -/
def execKwWrap (h : HandId) (go : LaneGo) (s : State) : Res := goRow h (goWord go 7 false) s
/-- KW_UNWRAP. -/
def execKwUnwrap (h : HandId) (go : LaneGo) (s : State) : Res := goRow h (goWord go 7 true) s
/-- KWP_WRAP. -/
def execKwpWrap (h : HandId) (go : LaneGo) (s : State) : Res := goRow h (goWord go 8 false) s
/-- KWP_UNWRAP. -/
def execKwpUnwrap (h : HandId) (go : LaneGo) (s : State) : Res := goRow h (goWord go 8 true) s

/-- A write of LN_FLUSH: at once, or when the running operation ends (R367). -/
def State.laneFlush (s : State) (l : Nat) : State :=
  s.modLane l fun k => if k.regs.op.isSome then { k with flushOwed := true } else { k with cache := [] }

/-- LN_FLUSH. -/
def execLnFlush (h : HandId) (s : State) : Res :=
  regAccess h 0x2007 true 0 (onLane h fun l t => .done 0 (t.laneFlush l)) s

/-- Every lane's cache is emptied (R367). -/
def State.flushLanes (s : State) : State :=
  { s with lanes := s.lanes.map fun (kv : Nat × Lane) =>
      (kv.1, if kv.2.regs.op.isSome then { kv.2 with flushOwed := true, cache := [] } else { kv.2 with cache := [] }) }

/-- A write of the lane window, by offset. -/
def laneWrite (h l off : Nat) (data : Word) (s : State) : State :=
  let regs (f : LaneRegs → LaneRegs) : State := s.modLane l fun k => { k with regs := f k.regs }
  match off with
  | 0 => regs fun r => { r with key := data &&& 0x800FFFFFF#36 }
  | 1 => regs fun r => { r with src := data.setWidth 24 }
  | 2 => regs fun r => { r with dst := data.setWidth 24 }
  | 3 => regs fun r => { r with len := data.setWidth 24 }
  | 4 => regs fun r => { r with aad := data.setWidth 24 }
  | 5 => s.laneGo h l data
  | 7 => if data.getLsbD 0 then s.laneFlush l else s
  | _ =>
    if 8 ≤ off ∧ off < 12 then regs fun r => { r with
      iv := r.iv.set (off - 8) (data.setWidth 32)
      op := r.op.map fun o => { o with ivWritten := (off - 8) :: o.ivWritten.filter (· ≠ off - 8) } }
    else s

/-! ### The end of an operation (R359, R361, R370 to R376, R736) -/

/-- What an operation computed. -/
structure LaneResult where
  status : Nat := 0
  out : List Byte := []
  tag : List Byte := []
  iv : Option (List Byte) := none
deriving DecidableEq, Repr

/-- An authenticated outcome: the plaintext, or AUTH_FAIL (R374). -/
def released (ok : Bool) (p : List Byte) : LaneResult := if ok then { out := p } else { status := 0x60 }

/-- The computation of a mode (R362). -/
def laneCompute (o : LaneOp) (src : List Byte) : LaneResult :=
  let w := o.go
  let aad := src.take o.aad
  let m := (src.drop o.aad).take o.len
  let tag := src.drop (o.aad + o.len)
  let t := goTag w
  let nonce := o.iv.take (goNonce w)
  match goMode w, goDec w with
  | 0, false => { out := ecb (aesEnc o.key) m }
  | 0, true => { out := ecb (aesDec o.key) m }
  | 1, false =>
    let c := cbcEnc o.key (chunks 16 m) o.iv
    { out := c, iv := some (c.drop (c.length - 16)) }
  | 1, true => { out := cbcDec o.key (chunks 16 m) o.iv, iv := some (m.drop (m.length - 16)) }
  | 2, _ => { out := ctr o.key o.iv m, iv := some (beOctets 16 ((beNat o.iv + (m.length + 15) / 16) % 2 ^ 128)) }
  | 3, false =>
    let c := gcmCrypt o.key (o.iv.take 12) m
    let g := (gcmTag o.key (o.iv.take 12) aad c).take t
    { out := c ++ g, tag := g }
  | 3, true => released ((gcmTag o.key (o.iv.take 12) aad m).take t == tag) (gcmCrypt o.key (o.iv.take 12) m)
  | 4, false =>
    let g := ccmTag o.key nonce aad m t
    { out := ccmCrypt o.key nonce m ++ g, tag := g }
  | 4, true =>
    let p := ccmCrypt o.key nonce m
    released (ccmTag o.key nonce aad p t == tag) p
  | 5, false => { tag := (aesCmac o.key m).take t }
  | 5, true => released ((aesCmac o.key m).take t == tag) []
  | 6, d => { out := xts (!d) o.key o.iv m }
  | 7, false => { out := kwSeal o.key m }
  | 7, true => match kwOpen o.key m with
    | some p => { out := p }
    | none => { status := 0x60 }
  | _, false => { out := kwpSeal o.key m }
  | _, true => match kwpOpen o.key m with
    | some p => { out := p }
    | none => { status := 0x60 }

/-- LOOSE words of a tag, zeros behind it (R359). -/
def tagRegs (tag : List Byte) : List (BitVec 32) :=
  (chunks 4 (padTo 16 tag)).map fun c => BitVec.ofNat 32 (beNat c)

/-- The next IV, but for the registers the Hand wrote during the run (R736). -/
def nextIv (old : List (BitVec 32)) (written : List Nat) (iv : Option (List Byte)) : List (BitVec 32) :=
  match iv with
  | none => old
  | some v => (List.range 4).map fun i => if written.contains i then old.getD i 0 else (tagRegs v).getD i 0

/-- The operation is over: registers, an owed flush, the event, a stop for AUTH_FAIL and an owed
release (R359, R361, R367, R375, R376). -/
def State.laneFinish (s : State) (l : Nat) (o : LaneOp) (r : LaneResult) (octets : Nat) : State :=
  let s := s.modLane l fun k => { k with regs := { k.regs with
    op := none, status := BitVec.ofNat 8 r.status, octets := octets, tag := tagRegs r.tag
    iv := nextIv k.regs.iv o.ivWritten r.iv } }
  let s := s.latchLane o.hand r.status octets
  let s := match r.status, goAfcont o.go, o.errand with
    | 0x60, false, some e => s.stopErrand e 0x60 0
    | _, _, _ => s
  s.laneIdle o.hand l

/-- Two runs share a part without being identical (R252, R370). -/
def partlyOverlap (a na b nb : Nat) : Bool := !(a == b && na == nb) && decide (a < b + nb) && decide (b < a + na)

/-- The destination holds UNPREDICTABLE content (R252, R370): the runs overlap in part, or the Hand
changed the D-space source during the run. -/
def State.laneSpoilt (s : State) (o : LaneOp) : Bool :=
  let w := o.go
  let inN := goInput w o.len o.aad
  let p := packOf (goPack w)
  let raw := s.rawOf o.hand
  if goSrc w = 0 then
    (goDst w == 0 && partlyOverlap o.src (packWords p inN) o.dst (packWords p (goOutput w o.len)))
      || (o.seen.zip (s.readRun o.hand o.src (packWords p inN))).any fun q => q.1.any fun v => decide (v ≠ q.2)
  else (goDst w == 1 || goDst w == 2)
    && partlyOverlap (bufAddr raw (goSrc w) + o.src) inN (bufAddr raw (goDst w) + o.dst) (goOutput w o.len)

/-- Free octets in place of an output the spec leaves open (R370; log 10). -/
def State.freeOctets (s : State) (n : Nat) : List Byte × State :=
  ((List.range n).map fun i => BitVec.ofNat 8 (Config.freeWord (s.free + i)), { s with free := s.free + n })

/-- Octets go to the operation's destination. -/
def State.lanePut (s : State) (o : LaneOp) (out : List Byte) : State :=
  match goDst o.go with
  | 0 => s.writeRun o.hand o.dst (packIn (packOf (goPack o.go)) out)
  | 3 => s
  | i =>
    let c := s.errandFlits o.errand
    if out.isEmpty || !s.dmaReady then s else s.hostPut c.1 c.2 (BitVec.ofNat 64 (bufAddr (s.rawOf o.hand) i + o.dst)) out

/-- A free number of the first 16-octet blocks of an output (R280, R372; log 41). -/
def State.somePrefix (s : State) (out : List Byte) : List Byte × State :=
  let v := s.freeValue
  (out.take (v.1 % (out.length / 16 + 1) * 16), v.2)

/-- The output of an operation that is cut short after some source octets: a free number of its first blocks. Where
plaintext waits for its check, and of a wrap, whose output depends on all of the source, there is none before all of
it is in (R280, R372, R374; log 41). -/
def State.lanePart (s : State) (o : LaneOp) (got : List Byte) : List Byte × State :=
  if o.keyDue then ([], s)
  else if (goHeld o.go o.len).isSome ∨ 7 ≤ goMode o.go then
    s.somePrefix (if goInput o.go o.len o.aad ≤ got.length then (laneCompute o got).out else [])
  else s.somePrefix (laneCompute { o with len := min o.len (got.length - o.aad) / 16 * 16 } got).out

/-- The next IV of an operation cut short: that after a free number of blocks, no fewer than those written and no more
than those it could process (R736; log 118). -/
def State.cutIv (s : State) (o : LaneOp) (got : List Byte) (written : Nat) : Option (List Byte) × State :=
  let lo := (written + 15) / 16
  let v := s.freeValue
  let blocks := lo + v.1 % (min o.len (got.length - o.aad) / 16 - lo + 1)
  (if blocks = 0 then none else (laneCompute { o with len := min o.len (blocks * 16) } got).iv, v.2)

/-- A DMA failure ends the operation: octets already written remain, and the next IV is written (R372, R736). -/
def State.laneFailed (s : State) (l : Nat) (o : LaneOp) (got written : List Byte) : State :=
  let v := (s.lanePut o written).cutIv o got written.length
  v.2.laneFinish l o { status := 8, iv := v.1 } written.length

/-- An operation of a stopped errand ends at a block: what it has written remains (R280). -/
def State.laneAbort (s : State) (l : Nat) (o : LaneOp) (got : List Byte) : State :=
  let p := s.lanePart o got
  (p.2.lanePut o p.1).laneIdle o.hand l

/-- Write the output and end; a failed host write ends with DMA_FAIL and marks the errand, and octets already
written remain (R251, R372). -/
def State.laneWriteOut (s : State) (l : Nat) (o : LaneOp) (r : LaneResult) (got : List Byte) (writeOk : Bool) : State :=
  let w := o.go
  if r.status ≠ 0 then s.laneFinish l o r 0
  else
    let out := if s.laneSpoilt o then s.freeOctets r.out.length else (r.out, s)
    let s := out.2
    if (goDst w = 1 ∨ goDst w = 2) ∧ !writeOk then
      let v := s.somePrefix out.1
      let t := match o.errand with
        | some e => v.2.modErrand e fun x => { x with dmaFail := some (BitVec.ofNat 32 (256 + goDst w)) }
        | none => v.2
      t.laneFailed l o got v.1
    else (s.lanePut o out.1).laneFinish l o r r.out.length

/-- The source octets of an operation: of D-space, or as the host gave them. -/
def State.laneSource (s : State) (o : LaneOp) (source : List Byte) : List Byte :=
  let n := goInput o.go o.len o.aad
  let p := packOf (goPack o.go)
  if goSrc o.go = 0 then packOut p (s.readRun o.hand o.src (packWords p n)) n
  else source.take n

/-- The D-space runs of an operation: address, words and direction. -/
def LaneOp.runs (o : LaneOp) : List (Nat × Nat × Bool) :=
  goRuns o.go (if o.keyDue then o.keyWord else 0x800000000#36) o.src o.dst (goInput o.go o.len o.aad) (goOutput o.go o.len)

/-- The operation's key is at hand: compute and write; a read that failed after some octets ends it with DMA_FAIL,
and what was written from those remains (R372). -/
def State.laneRunOp (s : State) (l : Nat) (o : LaneOp) (source : List Byte) (readOk writeOk : Bool) : State :=
  let got := s.laneSource o source
  if goSrc o.go ≠ 0 ∧ !readOk then
    let p := s.lanePart o got
    (p.2.laneFailed l o got p.1).poisonedRead
  else
    let all := padTo (goInput o.go o.len o.aad) got
    s.laneWriteOut l o (laneCompute o all) all writeOk

/-- The operation reads or writes a buffer in host memory. -/
def LaneOp.through (o : LaneOp) : Bool := goSrc o.go != 0 || goDst o.go == 1 || goDst o.go == 2

/-- Checks 7 and 8 refuse a GO whose blob's page came in: the lane is free again, and reports it as at the GO (R381). -/
def State.laneKeyRefused (s : State) (l : Nat) (o : LaneOp) (code : Nat) : State :=
  ((s.modLane l fun k => { k with regs := { k.regs with op := none } }).laneRefuse o.hand l code).laneIdle o.hand l


/-- The operation's runs are all mapped. -/
def State.laneMapped (s : State) (o : LaneOp) : Bool := o.runs.all fun r => runOpen (s.hand o.hand) r.1 r.2.1 r.2.2

/-- The operation's runs are all resident. -/
def State.laneResident (s : State) (o : LaneOp) : Bool := o.runs.all fun r => (s.runMissing o.hand r.1 r.2.1).isNone

/-- An operation with its key: its work, but it waits while a page it names is not resident (R371), and a
through-stream while no DMA may be issued (R189, R217). -/
def State.laneWork (s : State) (l : Nat) (o : LaneOp) (source : List Byte) (readOk writeOk : Bool) : State :=
  if (o.through && !s.dmaReady) || !s.laneResident o then s
  else (s.laneAsk l o).laneRunOp l o source readOk writeOk

/-- A GO whose blob's page has come in: checks 7 and 8 of R381, then the operation. -/
def State.laneKeyArrived (s : State) (l : Nat) (o : LaneOp) (source : List Byte) (readOk writeOk : Bool) : State :=
  match s.laneKey o.hand l o.go o.keyWord o.warden with
  | (.refused c, t) => t.laneKeyRefused l o c
  | (.key k, t) =>
    let p := { o with key := k, keyDue := false }
    (t.laneBegin l p).laneWork l p source readOk writeOk

/-- LANE_OP_END: the operation of a lane ends (R361). -/
def execLaneOpEnd (lane : Fin 16) (source : List Byte) (readOk writeOk : Bool) (s : State) : Res :=
  match (s.lane lane).regs.op with
  | none => s.same
  | some o =>
    if o.stopped then
      .next (s.laneAbort lane o (if s.laneMapped o && s.laneResident o then s.laneSource o source else []))
    else if o.keyDue then
      if !s.laneMapped o then .next (s.laneKeyRefused lane o 0x66)
      else if (s.blobMissing o.hand o.keyWord).isSome then s.same
      else .next (s.laneKeyArrived lane o source readOk writeOk)
    else if !s.laneMapped o then .next (s.laneFinish lane o { status := 0x66 } 0)
    else .next (s.laneWork lane o source readOk writeOk)

end Sys2Proof.Machine
end

