-- ==== Sys2Proof/Machine/Slots.lean ====
section
/-!
DEFINITION. Sys2Proof/Machine/Slots.lean: the Vault's resident slots, their handles and the Common
quota (R420, R424), and the metering of slice operations (R279, R395).
-/
namespace Sys2Proof.Machine

/-! ### Resident slots (R420, R424) -/

/-- The handle of a slot and generation. -/
def handleOf (gen slot : Nat) : Nat := gen * 4096 + slot

/-- The resident key a handle names (R420). -/
def Vault.lookup (v : Vault) (w : Word) : Option (Nat × KeyObj) :=
  let slot := wfield w 11 0
  if wfield w 35 28 = 0 ∧ wfield w 27 12 = aget 0 v.gens slot then (afind v.slots slot).map fun k => (slot, k)
  else none

/-- The attribute word of a key is bound to Common (R424). -/
def attrCommon (w : Word) : Bool := attrWorld w == 2

/-- Slots that slice operations and GENERATE keep for the key they will make, with its world, true
Common (R404, R429). -/
def State.keptSlots (s : State) : List (Nat × Bool) :=
  (s.slices.filterMap fun kv => match kv.2.regs.op with
    | some o => o.slot.map fun n => (n, !o.warden)
    | none => none)
  ++ s.hands.filterMap fun kv => match kv.2.vault.running with
    | some r => r.keep.map fun n => (n, attrCommon r.attr)
    | none => none

/-- Resident slots of the Common world, kept ones among them (R424). -/
def State.commonKeys (s : State) : Nat :=
  (s.vault.slots.filter fun kv => attrCommon kv.2.attr).length + (s.keptSlots.filter fun p => p.2).length

/-- The slot a new key may take: the lowest free one, within the quota (R404, R424; log 6). -/
def State.newSlot (s : State) (common : Bool) : Option Nat :=
  if common && decide (s.vault.quota ≤ s.commonKeys) then none
  else (List.range 4096).find? fun i =>
    (afind s.vault.slots i).isNone && !(s.keptSlots.any fun p => p.1 == i)

/-- A key enters a slot. -/
def State.fillSlot (s : State) (slot : Nat) (k : KeyObj) : State :=
  s.modVault fun v => { v with slots := aput v.slots slot k }

/-- A slot's handle now. -/
def State.slotHandle (s : State) (slot : Nat) : Nat := handleOf (aget 0 s.vault.gens slot) slot

/-- A slot is emptied: its generation advances (R420). -/
def Vault.emptySlot (v : Vault) (slot : Nat) : Vault :=
  { v with slots := aerase v.slots slot, gens := aset 0 v.gens slot ((aget 0 v.gens slot + 1) % 2 ^ 16) }

/-- The attribute word of a key formed inside. -/
def attrWord (type purpose world : Nat) (bulk imported exportable code : Bool) : Word :=
  wd (type * 2 ^ 28 + purpose * 2 ^ 25 + world * 2 ^ 23 + b2n bulk * 2 ^ 22 + b2n imported * 2 ^ 21
    + b2n exportable * 2 ^ 20 + b2n code * 2 ^ 19)

/-- WORLD of a key bound to a Hand's world. -/
def worldOf (warden : Bool) : Nat := if warden then 1 else 2

/-! ### Metering (R279, R395) -/

/-- Units a declared word still allows for PSET and OP. -/
def pkLeft (decl : Nat × Nat × Nat) (used pset op : Nat) : Nat :=
  if decl.1 = pset ∧ decl.2.1 = op ∧ pset ≠ 0 then decl.2.2 * (if pset = 0x7F then 1000 else 1) - used else 0

/-- Units left to a Hand's errand, none where nothing is metered. -/
def State.pkRoom (s : State) (h pset op : Nat) : Option (Nat × Nat) :=
  match s.errandOf h, s.verbOf h with
  | some (_, x), some d => some (pkLeft d.pk5 x.pk5 pset op, pkLeft d.pk6 x.pk6 pset op)
  | _, _ => none

/-- Charge units that the errand has left. -/
def State.takePk (s : State) (h pset op n : Nat) : State :=
  match s.pkRoom h pset op, s.errandOf h with
  | some (five, _), some (e, x) => s.setErrand e { x with pk5 := x.pk5 + min n five, pk6 := x.pk6 + (n - min n five) }
  | _, _ => s

/-- The errand stops with OVERRUN, DETAIL class 3 with PSET and OP. -/
def State.pkOverrun (s : State) (h pset op : Nat) : State :=
  match (s.hand h).errand with
  | some e => s.stopErrand e 0x20 (3 + pset * 256 + op * 65536)
  | none => s

/-- Charge an action before it starts; an action beyond the total is not started and stops the errand. -/
def State.chargePk (s : State) (h pset op n : Nat) : Bool × State :=
  match s.pkRoom h pset op with
  | none => (true, s)
  | some (a, b) => if n ≤ a + b then (true, s.takePk h pset op n) else (false, s.pkOverrun h pset op)

end Sys2Proof.Machine
end

