-- ==== Sys2Proof/Machine/Rsa.lean ====
section
/-!
DEFINITION. Sys2Proof/Machine/Rsa.lean: RSASSA-PKCS1-v1_5 and RSASSA-PSS (RFC 8017) on digests, with
e = 65,537 (R398).
-/
namespace Sys2Proof.Machine

/-- The hash of a DLEN (PK_CMD). -/
def hashOf (dlen : Nat) : List Byte → List Byte :=
  match dlen with
  | 0 => sha256
  | 1 => sha384
  | _ => sha512

/-- Octets of a digest by DLEN. -/
def digestLen (dlen : Nat) : Nat :=
  match dlen with
  | 0 => 32
  | 1 => 48
  | _ => 64

/-- The DigestInfo prefix of a hash (RFC 8017, 9.2). -/
def digestInfo (dlen : Nat) : List Byte :=
  let d := digestLen dlen
  let oid := match dlen with
    | 0 => 1
    | 1 => 2
    | _ => 3
  [0x30, 0x11 + d, 0x30, 0x0D, 0x06, 0x09, 0x60, 0x86, 0x48, 0x01, 0x65, 0x03, 0x04, 0x02, oid, 0x05, 0x00, 0x04, d].map
    (BitVec.ofNat 8)

/-- EMSA-PKCS1-v1_5 to k octets. -/
def pkcs1Encode (k dlen : Nat) (digest : List Byte) : List Byte :=
  let t := digestInfo dlen ++ digest
  [0x00#8, 0x01#8] ++ List.replicate (k - t.length - 3) 0xFF#8 ++ [0x00#8] ++ t

/-- MGF1 to n octets. -/
def mgf1 (hash : List Byte → List Byte) (seed : List Byte) (n : Nat) : List Byte :=
  ((List.range (n / 32 + 1)).flatMap fun i => hash (seed ++ beOctets 4 i)).take n

/-- The hash of M' of EMSA-PSS. -/
def pssHash (dlen : Nat) (digest salt : List Byte) : List Byte :=
  hashOf dlen (List.replicate 8 0#8 ++ digest ++ salt)

/-- Clear the leftmost bit of a string. -/
def clearTop (bs : List Byte) : List Byte := (bs.headD 0 &&& 0x7F#8) :: bs.drop 1

/-- EMSA-PSS to k octets, for a modulus of 8k bits. -/
def pssEncode (k dlen : Nat) (digest salt : List Byte) : List Byte :=
  let d := digestLen dlen
  let hv := pssHash dlen digest salt
  let db := List.replicate (k - 2 * d - 2) 0#8 ++ [0x01#8] ++ salt
  clearTop (xorOctets db (mgf1 (hashOf dlen) hv (k - d - 1))) ++ hv ++ [0xBC#8]

/-- EMSA-PSS verification with a salt as long as the digest. -/
def pssVerify (k dlen : Nat) (digest em : List Byte) : Bool :=
  let d := digestLen dlen
  let masked := em.take (k - d - 1)
  let hv := (em.drop (k - d - 1)).take d
  let db := clearTop (xorOctets masked (mgf1 (hashOf dlen) hv (k - d - 1)))
  let salt := db.drop (k - 2 * d - 1)
  em.drop (k - 1) == [0xBC#8] && !(masked.headD 0).getLsbD 7
    && db.take (k - 2 * d - 1) == List.replicate (k - 2 * d - 2) 0#8 ++ [0x01#8]
    && pssHash dlen digest salt == hv

/-- The encoded message a signature covers, for PKCS1-v1_5; PSS takes its salt. -/
def rsaEncode (k dlen : Nat) (pss : Bool) (digest salt : List Byte) : List Byte :=
  if pss then pssEncode k dlen digest salt else pkcs1Encode k dlen digest

/-- The RSA private operation by CRT, on p ‖ q ‖ dp ‖ dq ‖ qinv ‖ n (Backing object). -/
def rsaPrivate (k : Nat) (key : List Byte) (m : Nat) : Nat :=
  let f (i : Nat) : Nat := beNat ((key.drop (i * (k / 2))).take (k / 2))
  let p := f 0; let q := f 1
  let m1 := powMod p m (f 2)
  let m2 := powMod q m (f 3)
  m2 + subMod p m1 m2 * f 4 % p * q

/-- An RSA signature. -/
def rsaSign (k dlen : Nat) (pss : Bool) (key digest salt : List Byte) : List Byte :=
  beOctets k (rsaPrivate k key (beNat (rsaEncode k dlen pss digest salt)))

/-- RSA verification under modulus n. -/
def rsaVerify (k dlen : Nat) (pss : Bool) (n : Nat) (digest sig : List Byte) : Bool :=
  let s := beNat sig
  if n ≤ s then false
  else
    let em := beOctets k (powMod n s 65537)
    if pss then pssVerify k dlen digest em else em == pkcs1Encode k dlen digest

/-- A presented RSA public key: an odd modulus of 8k bits and e = 65,537 (R398, R401; log 46). -/
def rsaKeyOk (k : Nat) (n e : List Byte) : Bool :=
  beNat e == 65537 && beNat n % 2 == 1 && decide (2 ^ (8 * k - 1) ≤ beNat n)

end Sys2Proof.Machine
end

