-- ==== Sys2Proof/Machine/PkCompute.lean ====
section
/-!
DEFINITION. Sys2Proof/Machine/PkCompute.lean: the operands and the computation of SEQUENCER operations
(R396 to R402, SEQUENCER operands table).
-/
namespace Sys2Proof.Machine

/-! ### PK_CMD fields -/

def cmdPset (w : Word) : Nat := wfield w 23 16
/-- 1 KEYGEN, 2 SIGN, 3 VERIFY, 4 AGREE, 5 ENCAPS, 6 DECAPS. -/
def cmdOp (w : Word) : Nat := wfield w 15 12
def cmdOutv (w : Word) : Bool := w.getLsbD 11
def cmdKsrc (w : Word) : Bool := w.getLsbD 10
def cmdPurp (w : Word) : Bool := w.getLsbD 9
def cmdPss (w : Word) : Bool := w.getLsbD 8
def cmdDlen (w : Word) : Nat := wfield w 7 6

/-- Sets of the elliptic curves P-256 to P-521. -/
def isNist (pset : Nat) : Bool := decide (1 ≤ pset) && decide (pset ≤ 3)
/-- RSA sets. -/
def isRsa (pset : Nat) : Bool := decide (6 ≤ pset) && decide (pset ≤ 8)
/-- k of an RSA set. -/
def rsaSize (pset : Nat) : Nat := 256 + 128 * (pset - 6)

/-- Fields, encodings and flags of R404, check 4. -/
def cmdOk (w : Word) : Bool :=
  let p := cmdPset w; let op := cmdOp w
  wfield w 35 24 == 0 && wfield w 5 0 == 0 && (pkCycles p op).isSome
    && (!cmdOutv w || decide (4 ≤ op)) && (!cmdPurp w || (op == 1 && isNist p)) && (!cmdPss w || isRsa p)
    && cmdDlen w != 3
    && (match op with
      | 1 => !cmdKsrc w
      | 5 => !cmdKsrc w
      | 3 => true
      | _ => cmdKsrc w)

/-- Words an octet field fills (R396). -/
def fieldWords (n : Nat) : Nat := (n + 3) / 4

/-- The input fields in octets; `m` is the message length (SEQUENCER operands table). -/
def inFields (w : Word) (m : Nat) : List Nat :=
  let p := cmdPset w
  let d := digestLen (cmdDlen w)
  let nl := (curveOf p).size
  let open_ := !cmdKsrc w
  match cmdOp w with
  | 2 => if p = 4 then [4, m] else [d]
  | 3 =>
    if isNist p then [d, 2 * nl] ++ (if open_ then [2 * nl] else [])
    else if p = 4 then [4, m, 64] ++ (if open_ then [32] else [])
    else if isRsa p then [d, rsaSize p] ++ (if open_ then [rsaSize p, 4] else [])
    else if p = 11 then [4, m, 3309] ++ (if open_ then [1952] else [])
    else [4, m, 4627] ++ (if open_ then [2592] else [])
  | 4 => if p = 5 then [32] else [2 * nl]
  | 5 => if p = 9 then [1184] else [1568]
  | 6 => if p = 9 then [1088] else [1568]
  | _ => []

/-- The output fields in octets; a secret kept by OUTV is not among them (R399). -/
def outFields (w : Word) : List Nat :=
  let p := cmdPset w
  let nl := (curveOf p).size
  let secret (n : Nat) : List Nat := if cmdOutv w then [] else [n]
  match cmdOp w with
  | 1 => if isNist p then [2 * nl] else if p = 9 then [1184] else if p = 10 then [1568] else [32]
  | 2 => if isNist p then [2 * nl] else if p = 4 then [64] else [rsaSize p]
  | 4 => if p = 5 then secret 32 else secret nl
  | 5 => [if p = 9 then 1088 else 1568] ++ secret 32
  | 6 => secret 32
  | _ => []

/-- Words of a block of fields. -/
def blockWords (fs : List Nat) : Nat := (fs.map fieldWords).foldl (· + ·) 0

/-- The input block begins with a LEN word. -/
def hasLen (w : Word) : Bool := (cmdPset w == 4 && cmdOp w != 1) || decide (11 ≤ cmdPset w)

/-- Random octets an operation draws (SEQUENCER operands table). -/
def cmdRandom (w : Word) : Nat :=
  let p := cmdPset w
  match cmdOp w with
  | 1 => if isNist p then (curveOf p).size + 8 else if p = 9 ∨ p = 10 then 64 else 32
  | 2 => if isNist p then (curveOf p).size + 8 else if isRsa p ∧ cmdPss w then digestLen (cmdDlen w) else 0
  | 5 => 32
  | _ => 0

/-- The PURPOSE the key at PK_KEYH must have: SIGN_ONLY, VERIFY_ONLY or AGREE_ONLY. -/
def cmdPurpose (w : Word) : Nat :=
  match cmdOp w with
  | 2 => 5
  | 3 => 6
  | _ => 7

/-- The operation makes a Vault key (R399). -/
def cmdMakesKey (w : Word) : Bool := cmdOp w == 1 || cmdOutv w

/-- Cut a word block into octet fields (R396). -/
def splitFields : List Nat → List Word → List (List Byte)
  | [], _ => []
  | n :: ns, ws => packOut .loose ws n :: splitFields ns (ws.drop (fieldWords n))

/-! ### Computation -/

/-- What an operation found. -/
structure PkResult where
  status : Nat := 0
  out : List (List Byte) := []
  /-- TYPE, PURPOSE, material and public key of the key it makes. -/
  key : Option (Nat × Nat × List Byte × List Byte) := none
deriving DecidableEq, Repr

def badOperand : PkResult := { status := 0x88 }
/-- A signature check's outcome. -/
def sigResult (ok : Bool) : PkResult := { status := if ok then 0 else 0x80 }

/-- A private value or per-message secret of nL + 8 random octets (R398). -/
def Curve.scalar (c : Curve) (random : List Byte) : Nat := beNat random % (c.n - 1) + 1

/-- x ‖ y of a point. -/
def Curve.encode (c : Curve) (q : Point) : List Byte :=
  match q with
  | some (x, y) => beOctets c.size x ++ beOctets c.size y
  | none => []

/-- The public key of a private value, in SEQUENCER operand form. -/
def publicOf (pset : Nat) (priv : List Byte) : List Byte :=
  if isNist pset then (curveOf pset).encode ((curveOf pset).mul (beNat priv) (curveOf pset).base)
  else if pset = 4 then edPublic priv
  else if pset = 5 then x25519 priv (leOctets 32 9)
  else if isRsa pset then (priv.drop (5 * (rsaSize pset / 2))).take (rsaSize pset) ++ beOctets 4 65537
  else []

/-- KEYGEN: private value and public key. -/
def pkKeygen (pset : Nat) (random : List Byte) : List Byte × List Byte :=
  if isNist pset then
    let d := beOctets (curveOf pset).size ((curveOf pset).scalar random)
    (d, publicOf pset d)
  else if pset = 9 ∨ pset = 10 then mlkemKeygen pset random
  else (random, publicOf pset random)

/-- A shared secret goes to the output or to a DERIVE_ONLY key (R399). -/
def pkSecret (w : Word) (out : List (List Byte)) (z : List Byte) : PkResult :=
  if cmdOutv w then { out := out, key := some (0x20, 4, z, []) } else { out := out ++ [z] }

/-- VERIFY of the fields with the key held or presented (R401). -/
def pkVerify (w : Word) (held : Option KeyObj) (f : List (List Byte)) : PkResult :=
  let p := cmdPset w
  let at_ (i : Nat) : List Byte := f.getD i []
  let pub (i : Nat) : List Byte := match held with
    | some k => k.pub
    | none => at_ i
  if isNist p then
    let c := curveOf p
    let q := pointOf c (pub 2)
    if held.isNone && !c.on q.1 q.2 then badOperand else sigResult (ecVerify c (pub 2) (at_ 0) (at_ 1))
  else if isRsa p then
    let k := rsaSize p
    if held.isNone && !rsaKeyOk k (at_ 2) (at_ 3) then badOperand
    else sigResult (rsaVerify k (cmdDlen w) (cmdPss w) (beNat ((pub 2).take k)) (at_ 0) (at_ 1))
  else if p = 4 then
    if held.isNone && (edDecode (at_ 3)).isNone then badOperand else sigResult (edVerify (pub 3) (at_ 1) (at_ 2))
  else sigResult (mldsaVerify p (pub 3) (at_ 1) (at_ 2))

/-- The signature of a SIGN; none when none could be formed. -/
def pkSignature (w : Word) (k : KeyObj) (random : List Byte) (f : List (List Byte)) : Option (List Byte) :=
  let p := cmdPset w
  let at_ (i : Nat) : List Byte := f.getD i []
  if isNist p then
    let c := curveOf p
    (c.sign (beNat k.material) (c.scalar random) (at_ 0)).map fun g => beOctets c.size g.1 ++ beOctets c.size g.2
  else if p = 4 then some (edSign k.material (at_ 1))
  else some (rsaSign (rsaSize p) (cmdDlen w) (cmdPss w) k.material (at_ 0) random)

/-- SIGN with its check by verification (R402). -/
def pkSign (w : Word) (k : KeyObj) (random : List Byte) (f : List (List Byte)) : PkResult :=
  match pkSignature w k random f with
  | none => { status := 0x8D }
  | some g =>
    let fields := if cmdPset w = 4 then [f.getD 0 [], f.getD 1 [], g] else [f.getD 0 [], g]
    if (pkVerify w (some k) fields).status = 0 then { out := [g] } else { status := 0x8D }

/-- A SEQUENCER operation on its input fields (R398 to R402). -/
def pkCompute (w : Word) (key : Option KeyObj) (random : List Byte) (len : Nat) (f : List (List Byte)) : PkResult :=
  let p := cmdPset w
  let k := key.getD { attr := 0, material := [] }
  let in0 := f.getD 0 []
  if hasLen w && decide (1024 < len) then badOperand
  else match cmdOp w with
  | 1 =>
    let g := pkKeygen p random
    let purpose := if isNist p then (if cmdPurp w then 7 else 5) else if p = 4 then 5 else 7
    { out := [g.2], key := some (p, purpose, g.1, g.2) }
  | 2 => pkSign w k random f
  | 3 => pkVerify w key f
  | 4 =>
    if p = 5 then pkSecret w [] (x25519 k.material in0)
    else match (curveOf p).agree (beNat k.material) (pointOf (curveOf p) in0) with
      | some z => pkSecret w [] z
      | none => badOperand
  | 5 => match mlkemEncaps p in0 random with
    | some (c, z) => pkSecret w [c] z
    | none => badOperand
  | _ => pkSecret w [] (mlkemDecaps p k.material in0)

end Sys2Proof.Machine
end

