-- ==== Sys2Proof/Machine/Slices.lean ====
section
/-!
DEFINITION. Sys2Proof/Machine/Slices.lean: the PK slices (file 10): the slice window, SEQUENCER
operations, MAC mode, MACN and PKCLR, microcode, and the end of an operation.
-/
namespace Sys2Proof.Machine

/-! ### Events (R389) -/

/-- The SLICE event word. -/
def sliceWord (status pset op : Nat) : Word := wd (2 ^ 35 + status * 2 ^ 24 + pset * 2 ^ 16 + op * 2 ^ 12)

/-- Set PK_STATUS.STATUS and latch the SLICE event. -/
def State.sliceReport (s : State) (h l status pset op : Nat) : State :=
  ((s.modSlice l fun k => { k with regs := { k.regs with status := BitVec.ofNat 8 status } }).modHand h fun x =>
    { x with sliceEv := some (sliceWord status pset op) }).eventTo h .slice

/-- A report whose PSET and OP the spec gives no value (a refused PK_MCTL, a microcode load; log 10). -/
def State.sliceReportOpen (s : State) (h l status : Nat) : State :=
  let f := s.freeValue
  f.2.sliceReport h l status (f.1 % 256) (f.1 / 256 % 16)

/-- PK_STATUS.BUSY. -/
def State.sliceRuns (s : State) (l : Nat) : Bool := (s.slice l).regs.op.isSome

/-- Start a command of a slice. -/
def State.sliceStart (s : State) (l : Nat) (o : SliceOp) : State :=
  s.modSlice l fun k => { k with regs := { k.regs with op := some o } }

/-- A command of a Hand with nothing latched yet. -/
def State.newOp (s : State) (h : Nat) : SliceOp :=
  { cmd := 0, keyh := 0, inIdx := 0, outIdx := 0, random := [], hand := h, errand := (s.hand h).errand
    warden := (s.hand h).st.getLsbD 35 }

/-! ### PK_CMD (R397, R399, R400, R404) -/

/-- The message length of an input block. -/
def State.cmdLen (s : State) (l : Nat) (w : Word) : Nat :=
  if hasLen w then wfield (aget 0 (s.slice l).regs.opmem (s.slice l).regs.inp.toNat) 10 0 else 0

/-- Both blocks lie in operand memory (R404, check 5). -/
def State.cmdRangeOk (s : State) (l : Nat) (w : Word) : Bool :=
  let r := (s.slice l).regs
  let i := blockWords (inFields w (min (s.cmdLen l w) 1024))
  let o := blockWords (outFields w)
  (i == 0 || decide (r.inp.toNat + i ≤ 8192)) && (o == 0 || decide (r.outp.toNat + o ≤ 8192))

/-- The key named, or the code that refuses it (R404, checks 7 and 8). -/
def State.cmdKey (s : State) (h l : Nat) (w : Word) : Except Nat (Option KeyObj) :=
  if !cmdKsrc w then .ok none
  else match s.vault.lookup (s.slice l).regs.keyh with
    | none => .error 0x85
    | some (_, k) =>
      if attrType k.attr = cmdPset w ∧ attrPurpose k.attr = cmdPurpose w
          ∧ worldAllows k.attr ((s.hand h).st.getLsbD 35) = true then .ok (some k)
      else .error 0x84

/-- Draw random octets from the Hand's instance; those it does not give now stay due (R400, R459). -/
def State.drawFor (s : State) (h n : Nat) : Nat × List Byte × State :=
  match n, (s.hand h).drbg with
  | 0, _ => (0, [], s)
  | _, none => (n, [], s)
  | _, some i => match s.readyInstance i with
    | (true, t) =>
      let r := t.drawOctets h i n
      (n - r.1.length, r.1, r.2)
    | (false, t) => (n, [], t)

/-- The operation starts with its key and its slot. -/
def State.cmdStart (s : State) (h l : Nat) (w : Word) (key : Option KeyObj) (slot : Option Nat) : State :=
  let r := (s.slice l).regs
  let d := s.drawFor h (cmdRandom w)
  d.2.2.sliceStart l { s.newOp h with
    cmd := w, keyh := r.keyh, inIdx := r.inp.toNat, outIdx := r.outp.toNat
    random := d.2.1, randomDue := d.1, key := key, slot := slot }

/-- Checks 7 to 10 and the start; the operation counts against its budget only when it starts (R279). -/
def State.cmdKeys (s counted : State) (h l : Nat) (w : Word) : State :=
  let refuse (code : Nat) : State := s.sliceReport h l code (cmdPset w) (cmdOp w)
  match s.cmdKey h l w with
  | .error code => refuse code
  | .ok key =>
    if cmdRandom w ≠ 0 ∧ (s.hand h).drbg = none then refuse 0x86
    else if cmdMakesKey w then match s.newSlot (!(s.hand h).st.getLsbD 35) with
      | none => refuse 0x89
      | some n => counted.cmdStart h l w key (some n)
    else counted.cmdStart h l w key none

/-- A write of PK_CMD: the checks of R404 in order. -/
def State.pkCmd (s : State) (h l : Nat) (w : Word) : State :=
  let refuse (code : Nat) : State := s.sliceReport h l code (cmdPset w) (cmdOp w)
  if s.sliceRuns l then refuse 0x8A
  else if !(s.slice l).seqMode then refuse 0x82
  else if s.ucode.state ≠ 1 then refuse 0x83
  else if !cmdOk w then refuse 0x81
  else if !s.cmdRangeOk l w then refuse 0x87
  else match s.chargePk h (cmdPset w) (cmdOp w) 1 with
    | (false, t) => t
    | (true, t) => s.cmdKeys t h l w

/-! ### MAC mode (R390 to R395) -/

/-- The digits at an index as a number, least significant first. -/
def digitsAt (m : Memory) (i n : Nat) : Nat :=
  ((agetRun 0 m i n).reverse).foldl (fun acc w => acc * 2 ^ 36 + w.toNat) 0

def mctlLen (w : Word) : Nat := wfield w 31 27
def mctlIdx (w : Word) : Nat := wfield w 25 13

/-- A write of PK_MCTL that BUSY does not hold (R390). -/
def State.pkMctl (s : State) (h l : Nat) (w : Word) : State :=
  let n := mctlLen w
  if (s.slice l).seqMode then s.sliceReportOpen h l 0x82
  else if n = 0 ∨ 16 < n ∨ 2 ≤ wfield w 33 32 then s.sliceReportOpen h l 0x81
  else if 8192 < mctlIdx w + n then s.sliceReportOpen h l 0x87
  else match s.chargePk h 0x7F 0 (n + 2) with
    | (false, t) => t
    | (true, t) => (t.modSlice l fun k => { k with regs := { k.regs with mctl := w &&& 0x3FBFFFFFF#36 } }).sliceStart l
        { s.newOp h with load := some w }

def mgoOp (w : Word) : Nat := wfield w 35 33
def mgoLen (w : Word) : Nat := wfield w 31 26
def mgoIdx (w : Word) : Nat := wfield w 12 0

/-- OP, LEN and reserved fields of a PK_MGO (R393, check 3). -/
def mgoOk (w : Word) : Bool :=
  let n := mgoLen w
  !w.getLsbD 32 && wfield w 25 13 == 0 && (match mgoOp w with
    | 1 => decide (1 ≤ n) && decide (n ≤ 32)
    | 2 => decide (1 ≤ n) && decide (n ≤ 48)
    | 3 => decide (1 ≤ n) && decide (n ≤ 48)
    | 4 => n == 0 && mgoIdx w == 0
    | _ => false)

/-- Cycles of a MAC command. -/
def mgoCycles (w : Word) : Nat := if mgoOp w = 4 then 1 else mgoLen w + 4

/-- A write of PK_MGO: the checks of R393 in order. -/
def State.pkMgo (s : State) (h l : Nat) (w : Word) : State :=
  let refuse (code : Nat) : State := s.sliceReport h l code 0x7F (mgoOp w)
  if s.sliceRuns l then refuse 0x8A
  else if (s.slice l).seqMode then refuse 0x82
  else if !mgoOk w then refuse 0x81
  else if 8192 < mgoIdx w + mgoLen w then refuse 0x87
  else match s.chargePk h 0x7F 0 (mgoCycles w) with
    | (false, t) => t
    | (true, t) => t.sliceStart l { s.newOp h with mgo := some w }

/-- ACC with a product or number added, modulo 2^1728, a carry setting OVF (R392). -/
def SliceRegs.addAcc (r : SliceRegs) (n : Nat) : SliceRegs :=
  { r with acc := (r.acc + n) % 2 ^ 1728, ovf := r.ovf || decide (2 ^ 1728 ≤ r.acc + n) }

/-- The effect of a MAC command (MAC commands table). -/
def SliceRegs.mgo (r : SliceRegs) (w : Word) : SliceRegs :=
  let n := mgoLen w
  match mgoOp w with
  | 1 => r.addAcc (r.a * digitsAt r.opmem (mgoIdx w) n)
  | 2 => { r with
      opmem := asetRun 0 r.opmem (mgoIdx w) ((List.range n).map fun j => wd (r.acc >>> (36 * j)))
      acc := r.acc >>> (36 * n) }
  | 3 => r.addAcc (digitsAt r.opmem (mgoIdx w) n)
  | _ => { r with acc := 0 }

/-- A MACN word at an operand index (R391). -/
def SliceRegs.macn (r : SliceRegs) (i : Nat) (v : Word) : SliceRegs :=
  let r := { r with opmem := aset 0 r.opmem i v }
  if wfield r.mctl 33 32 = 1 then
    let base := wfield r.mctl 12 0
    if base ≤ i ∧ i < base + 32 then r.addAcc (r.a * v.toNat * 2 ^ (36 * (i - base))) else { r with mrange := true }
  else r

/-! ### Microcode (R407) -/

/-- A write of PK_UCODE with LOAD set: refused outside MAC mode and unless STATE is NONE; while a MAC
command runs it waits for its end, which the spec leaves open (R407; log 106). -/
def pkUcode (h l : Nat) (s : State) : IoRes :=
  if (s.slice l).seqMode || s.ucode.state != 0 then .done 0 (s.sliceReportOpen h l 0x81)
  else if s.sliceRuns l then .stall s
  else .done 0 ({ s with ucode := { s.ucode with state := 2 } }.sliceStart l { s.newOp h with ucode := true })

/-- The image is verified: its code when it is bad or old, else its version and words; a bad MAGIC or LENGTH
is reported as a bad image, which the spec leaves open (R407; log 106). -/
def checkUcode (m : Memory) : Except Nat (Nat × List Word) :=
  let n := (aget 0 m 2).toNat
  let words := agetRun 0 m 0 (n + 51)
  let pub := packOut .loose ((words.drop (n + 3)).take 24) 96
  let sig := packOut .loose ((words.drop (n + 27)).take 24) 96
  if aget 0 m 0 ≠ 0o160153143165#36 ∨ n = 0 ∨ 8141 < n then .error 0x8B
  else if sha384 pub ≠ Config.ucodeKeyHash ∨ ecVerify p384 pub (sha384 (words40 (words.take (n + 3)))) sig = false then
    .error 0x8B
  else
    let v := wfield (words.getD 1 0) 31 0
    if v < Config.ucodeMinimum then .error 0x8C else .ok (v, words)

/-- A load ends. -/
def State.ucodeEnd (s : State) (h l : Nat) : State :=
  match checkUcode (s.slice l).regs.opmem with
  | .error code =>
    ({ s with ucode := { s.ucode with state := 0 } }.recordHand code 0 h).sliceReportOpen h l code
  | .ok (v, words) =>
    { s with ucode := { state := 1, version := BitVec.ofNat 32 v, image := words } }.sliceReportOpen h l 0

/-! ### The window (R386 to R388) -/

/-- An access to the slice window reaches the granted slice (R67, R277). -/
def onSlice (h : Nat) (k : Nat → State → IoRes) (s : State) : IoRes :=
  let x := s.hand h
  if !x.sliceHeld then .fault s 0x3000
  else match x.slice with
    | none => .block (s.blockOnUnit h true)
    | some l => k l s

/-- PK_OPADDR advances by one, modulo 8,192 (R388). -/
def State.opAdvance (s : State) (l : Nat) : State :=
  s.modSlice l fun k => { k with regs := { k.regs with opaddr := (k.regs.opaddr + 1) % 8192 } }

/-- An IN of PK_OPDATA (R388). -/
def opdataRead (l : Nat) (s : State) : IoRes :=
  if s.sliceRuns l then .stall s
  else .done (aget 0 (s.slice l).regs.opmem (s.slice l).regs.opaddr) (s.opAdvance l)

/-- An OUT of PK_OPDATA (R388). -/
def opdataWrite (l : Nat) (data : Word) (s : State) : IoRes :=
  if s.sliceRuns l then .stall s
  else .done 0 ((s.modSlice l fun k => { k with regs := { k.regs with
    opmem := aset 0 k.regs.opmem k.regs.opaddr data } }).opAdvance l)

/-- A write of the slice window, by offset. -/
def sliceWrite (h l off : Nat) (data : Word) (s : State) : IoRes :=
  let regs (f : SliceRegs → SliceRegs) : IoRes := .done 0 (s.modSlice l fun k => { k with regs := f k.regs })
  match off with
  | 0 => .done 0 (s.pkCmd h l data)
  | 1 => regs fun r => { r with keyh := data }
  | 2 => regs fun r => { r with inp := data }
  | 3 => regs fun r => { r with outp := data }
  | 4 => regs fun r => { r with ovf := r.ovf && !data.getLsbD 23, mrange := r.mrange && !data.getLsbD 22 }
  | 6 => regs fun r => { r with opaddr := wfield data 12 0 }
  | 7 => opdataWrite l data s
  | 8 => if s.sliceRuns l then .stall s else .done 0 (s.pkMctl h l data)
  | 9 => .done 0 (s.pkMgo h l data)
  | 10 =>
    if !data.getLsbD 0 then .done 0 s else pkUcode h l s
  | _ => .done 0 s

/-- A write of one register of the slice window. -/
def sliceRow (h off need : Nat) (data : Word) (s : State) : Res :=
  regAccess h (0x3000 + off) true need (onSlice h fun l t => sliceWrite h l off data t) s

/-- PK_CMD of a command row. -/
def pkWord (c : PkFlags) (op : Nat) : Word :=
  wd (c.pset.toNat * 2 ^ 16 + op * 2 ^ 12 + b2n c.outv * 2 ^ 11 + b2n c.ksrc * 2 ^ 10 + b2n c.purp * 2 ^ 9
    + b2n c.scheme * 2 ^ 8 + c.dlen.toNat * 2 ^ 6)

/-- KEYGEN. -/
def execKeygen (h : HandId) (cmd : PkFlags) (s : State) : Res := sliceRow h 0 0 (pkWord cmd 1) s
/-- SIGN. -/
def execSign (h : HandId) (cmd : PkFlags) (s : State) : Res := sliceRow h 0 0 (pkWord cmd 2) s
/-- VERIFY. -/
def execVerify (h : HandId) (cmd : PkFlags) (s : State) : Res := sliceRow h 0 0 (pkWord cmd 3) s
/-- AGREE. -/
def execAgree (h : HandId) (cmd : PkFlags) (s : State) : Res := sliceRow h 0 0 (pkWord cmd 4) s
/-- ENCAPS. -/
def execEncaps (h : HandId) (cmd : PkFlags) (s : State) : Res := sliceRow h 0 0 (pkWord cmd 5) s
/-- DECAPS. -/
def execDecaps (h : HandId) (cmd : PkFlags) (s : State) : Res := sliceRow h 0 0 (pkWord cmd 6) s
/-- PK_MCTL: loads A, or holds the Hand while the slice is busy (R390). -/
def execPkMctl (h : HandId) (data : Word) (s : State) : Res := sliceRow h 8 0 data s

/-- PK_MGO of a command row. -/
def mgoWord (op : Nat) (len : BitVec 6) (idx : BitVec 13) : Word :=
  wd (op * 2 ^ 33 + len.toNat * 2 ^ 26 + idx.toNat)

/-- RUN. -/
def execRun (h : HandId) (len : BitVec 6) (idx : BitVec 13) (s : State) : Res := sliceRow h 9 0 (mgoWord 1 len idx) s
/-- ACCOUT. -/
def execAccout (h : HandId) (len : BitVec 6) (idx : BitVec 13) (s : State) : Res := sliceRow h 9 0 (mgoWord 2 len idx) s
/-- ACCADD. -/
def execAccadd (h : HandId) (len : BitVec 6) (idx : BitVec 13) (s : State) : Res := sliceRow h 9 0 (mgoWord 3 len idx) s
/-- ACCCLR. -/
def execAccclr (h : HandId) (s : State) : Res := sliceRow h 9 0 (mgoWord 4 0 0) s

/-- PK_OPDATA: an IN, or an OUT of a word (R388). -/
def execPkOpdata (h : HandId) (write : Option Word) (s : State) : Res :=
  match write with
  | none => regAccess h 0x3007 false 0 (onSlice h fun l t => opdataRead l t) s
  | some d => sliceRow h 7 0 d s

/-- PK_UCODE with LOAD set, at WS (R407). -/
def execPkUcodeLoad (h : HandId) (s : State) : Res := sliceRow h 10 3 1 s

/-! ### MACN and PKCLR (R143, R147, R391, R411) -/

/-- The core's check of the run: each word's source, then its operand index, which fails from 8,192 on (R145, R147). -/
def macnCore (v : AcuView) (h : Nat) (x : Hand) (a b : BitVec 5) : Nat → Nat → State → Option (State × Nat × Word)
  | 0, _, _ => none
  | n + 1, i, s =>
    match coreProbes v h x [x.runProbe b false i] s with
    | some r => some r
    | none => if 8192 ≤ (x.runAddr a i).toNat then some (s, 5, x.runAddr b i) else macnCore v h x a b n (i + 1) s

/-- The check of the whole run of n words (R145, R147, R472). -/
def macnCheck (v : AcuView) (h : Nat) (x : Hand) (a b : BitVec 5) (n : Nat) (s : State) : Option (State × Nat × Word) :=
  (macnCore v h x a b (min n 8193) 0 s).or (hamletProbes v h x (x.runList (min n 8193) [b] []) s)

/-- Move words into the slice. -/
def macnWord (h l : Nat) (s : State) (pa pb : Word) (_ : Nat) : Except Nat (State × Word × Word) :=
  match placeOrMiss s h pb with
  | .error p => .error p
  | .ok lb => .ok (s.modSlice l fun k => { k with regs := k.regs.macn pa.toNat (s.readFor h lb) }, pa + 1, pb + 1)

/-- The words the errand's budget still allows of a run of n (R395). -/
def State.macnRoom (s : State) (h n : Nat) : Nat :=
  match s.pkRoom h 0x7F 0 with
  | some (a, b) => min n (a + b)
  | none => n

/-- The words of a run, as many as the budget and the command's cut allow; the errand stops at the first
word the budget does not allow (R178, R395; log 71). -/
def macnRun (h l : Nat) (ra rb rc : BitVec 5) (n : Nat) (cut : Option Nat) (s : State) (x : Hand) : Act :=
  let run (k : Nat) (u : State) : BlockRun :=
    let r := runWords ra rb (macnWord h l) k { s := u, a := x.reg ra, b := x.reg rb, c := x.reg rc, page := none, moved := 0 }
    { r with s := r.s.takePk h 0x7F 0 r.moved }
  if ra = rb || rb = rc || ra = rc then twoRoles h ra rb rc (s.macnRoom h n) run s x
  else
    let r := run (min (cutAt cut n) (s.macnRoom h n)) (s.stir h)
    let t := r.s.modHand h fun y => y.blockRegs ra rb rc true r
    if r.page.isNone && decide (r.moved < cutAt cut n) then .hold (t.pkOverrun h 0x7F 0)
    else blockEnd h n r t x

/-- MACN; without a slice grant, or on a slice in SEQUENCER mode, it faults at count 0 too (R80, R147; log 115). -/
def execMacn (h : HandId) (a b c : Reg) (cut : Option Nat) (s : State) : Res :=
  issueOn h false (fun s x =>
    if !x.sliceHeld || !x.sliceMac then .raise s 5 0x3000 false
    else
      let n := (x.reg c).toNat
      if n = 0 then .step s x
      else
        let v := s.acuView h
        match macnCheck v.1 h x a b n v.2 with
        | some (t, cause, ea) => .raise t cause ea false
        | none => match x.slice with
          | none => .hold (v.2.blockOnUnit h true)
          | some l => if s.sliceRuns l then .hold v.2 else macnRun h l a b c n cut v.2 x) s

/-- PKCLR: operand memory, A and ACC read zero (R143, R411); while an operation of the slice runs the Hand is held,
and they are cleared when it has ended (log 115). -/
def execPkclr (h : HandId) (s : State) : Res :=
  issueOn h false (fun s x =>
    if !x.sliceHeld then .raise s 5 0x3000 false
    else match x.slice with
      | none => .hold (s.blockOnUnit h true)
      | some l =>
        if s.sliceRuns l then .hold s
        else .step (s.modSlice l fun k => { k with regs := { k.regs with opmem := [], a := 0, acc := 0 } }) x) s

/-! ### The end of an operation (R389, R399, R402, R405, R412) -/

/-- The command is over: no operation runs, and an owed release takes place. -/
def State.sliceIdle (s : State) (h l : Nat) : State :=
  let t := s.modSlice l fun k => { k with regs := { k.regs with op := none } }
  if (t.hand h).sliceReleasing then t.dropSlice h else t

/-- Write the output block. -/
def State.sliceOut (s : State) (l idx : Nat) (out : List (List Byte)) : State :=
  s.modSlice l fun k => { k with regs := { k.regs with
    opmem := asetRun 0 k.regs.opmem idx (out.flatMap (packIn .loose)) } }

/-- A stopped operation: zeros in place of the output block, no slot, no result (R280, R412). -/
def State.sliceStopped (s : State) (l : Nat) (o : SliceOp) : State :=
  let zeros := (outFields o.cmd).map fun n => List.replicate n 0#8
  let t := if o.ucode then { s with ucode := { s.ucode with state := 0 } }
    else if o.mgo.isSome || o.load.isSome then s
    else s.sliceOut l o.outIdx zeros
  t.sliceIdle o.hand l

/-- The key an operation makes enters its slot, and its handle (R399). -/
def State.sliceKey (s : State) (o : SliceOp) (r : PkResult) : State × Word :=
  match r.key, o.slot with
  | some (ty, purpose, material, pub), some n =>
    (s.fillSlot n { attr := attrWord ty purpose (worldOf o.warden) false false false false, material := material, pub := pub },
      wd (s.slotHandle n))
  | _, _ => (s, 0)

/-- A SEQUENCER operation's result is written, then reported. -/
def State.seqEnd (s : State) (l : Nat) (o : SliceOp) (checkOk : Bool) : State :=
  let len := if hasLen o.cmd then wfield (aget 0 (s.slice l).regs.opmem o.inIdx) 10 0 else 0
  let fs := inFields o.cmd (min len 1024)
  let f := splitFields fs (agetRun 0 (s.slice l).regs.opmem o.inIdx (blockWords fs))
  let r := pkCompute o.cmd o.key o.random len f
  let faulty := r.status == 0x8D || (r.status == 0 && !checkOk && decide (cmdOp o.cmd ≤ 2))
  let report (t : State) (status : Nat) : State := (t.sliceIdle o.hand l).sliceReport o.hand l status (cmdPset o.cmd) (cmdOp o.cmd)
  let result (t : State) (w : Word) : State := t.modSlice l fun k => { k with regs := { k.regs with result := w } }
  if faulty then report (((result s 0).recordHand 0x8D l o.hand).reportEvent 25) 0x8D
  else if r.status ≠ 0 then report (result s 0) r.status
  else
    let t := s.sliceOut l o.outIdx r.out
    let k := t.sliceKey o r
    report (result k.1 k.2) 0

/-- A register with the digits a PK_MCTL names loaded, those above ALEN clear (R390). -/
def SliceRegs.loadA (r : SliceRegs) (w : Word) : SliceRegs :=
  { r with a := digitsAt r.opmem (mctlIdx w) (mctlLen w) }

/-- SLICE_OP_END: the command or A load of a slice ends; a draw that waits for a seed keeps it waiting
(R389, R390, R400). -/
def execSliceOpEnd (slice : Fin 16) (checkOk : Bool) (s : State) : Res :=
  match (s.slice slice).regs.op with
  | none => s.same
  | some o =>
    if o.stopped then .next (s.sliceStopped slice o)
    else match o.mgo, o.load with
      | some w, _ =>
        let t := s.modSlice slice fun k => { k with regs := k.regs.mgo w }
        .next ((t.sliceIdle o.hand slice).sliceReport o.hand slice 0 0x7F (mgoOp w))
      | none, some w => .next ((s.modSlice slice fun k => { k with regs := k.regs.loadA w }).sliceIdle o.hand slice)
      | none, none =>
        if o.ucode then
          .next ((s.ucodeEnd o.hand slice).sliceIdle o.hand slice)
        else
          let d := s.drawFor o.hand o.randomDue
          if d.1 ≠ 0 then
            .next (d.2.2.modSlice slice fun k => { k with regs := { k.regs with
              op := some { o with random := o.random ++ d.2.1, randomDue := d.1 } } })
          else .next (d.2.2.seqEnd slice { o with random := o.random ++ d.2.1 } checkOk)

end Sys2Proof.Machine
end

