-- ==== Sys2Proof/Machine/EntropyOps.lean ====
section
/-!
DEFINITION. Sys2Proof/Machine/EntropyOps.lean: the noise sources, the seed pool, DR_OUT, the health
self-test and the test pattern (file 12).
-/
namespace Sys2Proof.Machine

/-- FACTORY. -/
def LifeCycle.factory (l : LifeCycle) : Bool := l.effective == 1
/-- States in which ENT_RAW returns samples (R465). -/
def LifeCycle.rawOk (l : LifeCycle) : Bool := l.factory || decide (0x11 ≤ l.effective)

/-! ### Health tests (R450) -/

/-- Samples of a run as bits, earliest first. -/
def sampleBits {n : Nat} (x : BitVec n) : List Bool := (List.range n).map fun i => x.getLsbD (n - 1 - i)

/-- The longest run of equal samples, with the run in progress. -/
def longestRun : List Bool → Bool → Nat → Nat → Nat
  | [], _, _, best => best
  | b :: bs, last, run, best =>
    let r := if b = last then run + 1 else 1
    longestRun bs b r (max best r)

/-- The start-up test of 1,024 samples: neither continuous test fails on them (R450, R451). -/
def startupTestOk (samples : BitVec 1024) : Bool :=
  let bs := sampleBits samples
  let first := bs.headD false
  decide (longestRun bs first 0 0 < 81) && decide ((bs.filter (· == first)).length < 840)

/-- The repetition count and adaptive proportion tests on one more sample: the counters, and the number of the test
that fails (R450). -/
def NoiseSource.test (x : NoiseSource) (b : Bool) : NoiseSource × Option Nat :=
  let run := if x.run ≠ 0 ∧ b = x.last then x.run + 1 else 1
  let first := if x.window = 0 then b else x.first
  let hits := (if x.window = 0 then 0 else x.hits) + b2n (b == first)
  ({ x with last := b, run := run, first := first, hits := hits, window := (x.window + 1) % 1024 },
    if 81 ≤ run then some 1 else if 840 ≤ hits then some 2 else none)

/-- ENT_EST's counts with one more sample; they refresh every 32,768 (ENT_EST table). -/
def NoiseSource.estimate (x : NoiseSource) (b : Bool) : NoiseSource :=
  let ones := x.ones + b2n b
  let agree := x.agree + b2n (b == x.last)
  if 32767 ≤ x.period then { x with period := 0, ones := 0, agree := 0, estOnes := ones, estAgree := agree }
  else { x with period := x.period + 1, ones := ones, agree := agree }

/-- A source that passed its start-up test runs its continuous tests afresh (R450, R451). -/
def NoiseSource.start (x : NoiseSource) : NoiseSource := { x with state := .healthy, run := 0, window := 0 }

/-- DETAIL of ENTROPY_SOURCE_FAIL: the source in bits 3:0 and the test in bits 7:4 (log 43). -/
def sourceFailDetail (source test : Nat) : Nat := source + 16 * test

/-- A source moves to FAILED, with its record and an entropy health event; a draw of the Vault or the Store
that waits for a source fails (R451, R452, R732). -/
def State.failSource (s : State) (i test : Nat) : State :=
  (((s.modSource i fun x => { x with state := .failed, fails := satInc x.fails 15 }).record 0xB1
    (sourceFailDetail i test)).reportEvent 26).feedStore.failDraws

/-- One more sample of a source: its counts, and its continuous tests, a failure of which fails a HEALTHY source
(R450, R451). -/
def State.takeSample (s : State) (i : Nat) (b : Bool) : State :=
  let x := s.source i
  let r := (x.estimate b).test b
  let t := s.modSource i fun _ => r.1
  match r.2 with
  | some n => if x.state = .healthy then t.failSource i n else t
  | none => t

/-- SOURCE_STARTUP_TEST: a source that is OFF becomes HEALTHY or FAILED; after a failed known-answer test it stays OFF
(R451, R468). -/
def execSourceStartupTest (source : Fin 4) (samples : BitVec 1024) (s : State) : Res :=
  if (s.source source).state ≠ .off || s.startup.inReset || (decide (5 ≤ s.link.bootStage.toNat) && !s.entropy.katOk) then
    s.same
  else if startupTestOk samples then .next (s.modSource source NoiseSource.start)
  else .next (s.failSource source 3)

/-- ENTROPY_SOURCE_FAIL: a continuous test of a HEALTHY source fails (R450 to R452). -/
def execEntropySourceFail (source : Fin 4) (test : HealthTest) (s : State) : Res :=
  if (s.source source).state ≠ .healthy then s.same
  else .next (s.failSource source (match test with
    | .repetition => 1
    | .proportion => 2))

/-! ### The pool (R453, R454) -/

/-- One conditioned block of 512 raw bits: CBC-MAC under the fixed key (R453). -/
def conditionBlock (raw : List Byte) : List Byte := cbcMac Config.conditionerKey zeroBlock (chunks 16 raw)

/-- A seed of three blocks. -/
def conditionSeed (raw : BitVec 1536) : List Byte :=
  (chunks 64 (beOctets 192 raw.toNat)).flatMap conditionBlock

/-- A seed joins the pool and waiting consumers take theirs, the Vault's draws first (R454). -/
def State.addSeed (s : State) (seed : List Byte) : State :=
  if 64 ≤ s.entropy.pool.length then s
  else ((s.modEntropy fun e => { e with pool := e.pool ++ [seed] }).feedLwks.feedStore.giveNonce).serve

/-- SEED_PRODUCED: the conditioner delivers a seed while a source is HEALTHY and no self-test runs
(R453, R454, R469). -/
def execSeedProduced (raw : BitVec 1536) (s : State) : Res :=
  if !s.anyHealthy || s.entropy.selftest then s.same else .next (s.addSeed (conditionSeed raw))

/-- INSTANCE_DUE: at 2^20 calls an instance is due and asks for a seed (R458). -/
def execInstanceDue (i : Fin 1024) (s : State) : Res :=
  let d := s.drbg i
  if d.live && decide (2 ^ 20 ≤ d.calls) then .next (s.modDrbg i fun x => { x with due := true }).serve else s.same

/-- ENTROPY_STALL: at 2^32 calls an instance stalls (R459). -/
def execEntropyStall (i : Fin 1024) (s : State) : Res :=
  let d := s.drbg i
  if d.live && !d.stalled && decide (2 ^ 32 ≤ d.calls) then .next (s.stallInstance i).serve else s.same

/-- Zero-fill the pool, every instance, the octets it has buffered for a Hand, the raw samples collected and the seeds
that waiting draws hold; each instance is instantiated again at its next call (R456, R460, R467). -/
def State.clearEntropy (s : State) : State :=
  let t := s.modEntropy fun e => { e with
    pool := [], raw := none
    drbgs := (e.drbgs.filter fun kv => kv.2.waiting).map fun (kv : Nat × Drbg) => (kv.1, { waiting := true }) }
  let t := t.modStore fun k => { k with draw := match k.draw with
    | .waiting new need _ => .waiting new need []
    | d => d }
  let t := t.modVault fun v => { v with lwkDraw := v.lwkDraw.map fun _ => [] }
  { t with
    hands := t.hands.map fun (kv : Nat × Hand) => (kv.1, { kv.2 with drbgBuf := [] }) }

/-! ### DR_OUT (R461, R462) -/

/-- The next four octets a Hand has buffered. -/
def State.popRandom (s : State) (h : Nat) : IoRes :=
  let x := s.hand h
  .done (wd (beNat (x.drbgBuf.take 4))) (s.setHand h { x with drbgBuf := x.drbgBuf.drop 4 })

/-- An IN of DR_OUT. -/
def drOutRead (h : Nat) (s : State) : IoRes :=
  match (s.hand h).drbg with
  | none => .fault s 0x5000
  | some i =>
    if (s.hand h).drbgBuf ≠ [] then s.popRandom h
    else match s.readyInstance i with
      | (false, t) => .stall t
      | (true, t) =>
        let g := t.generateCall i
        (g.2.modHand h fun x => { x with drbgBuf := g.1 }).popRandom h

/-- DR_OUT read. -/
def execDrOut (h : HandId) (s : State) : Res := regAccess h 0x5000 false 0 (drOutRead h) s

/-! ### ENT_CTRL and ENT_TEST (R451, R465 to R469) -/

/-- Retry a source: FAILED with fewer than 3 failures goes OFF, to be tested (R451). -/
def NoiseSource.retry (x : NoiseSource) : NoiseSource :=
  if x.state = .failed ∧ x.fails < 3 then { x with state := .off } else x

/-- A write of ENT_CTRL. -/
def State.writeEntCtrl (s : State) (data : Word) : State :=
  let s := (List.range 4).foldl (fun t i => if data.getLsbD (5 + i) then t.modSource i NoiseSource.retry else t) s
  if data.getLsbD 4 then s.modEntropy fun e => { e with selftest := true } else s

/-- RETRY. -/
def execRetry (h : HandId) (sources : BitVec 4) (s : State) : Res :=
  regWrite h 0x5009 3 (fun t => t.writeEntCtrl (wd (sources.toNat * 32))) s

/-- SELFTEST. -/
def execSelftest (h : HandId) (s : State) : Res := regWrite h 0x5009 3 (fun t => t.writeEntCtrl 16) s

/-- HEALTH_SELFTEST_END: sources that failed their test move to FAILED; a failed known-answer test is
recorded (R469). -/
def execHealthSelftestEnd (failed : BitVec 4) (katOk : Bool) (s : State) : Res :=
  if !s.entropy.selftest then s.same
  else
    let t := s.modEntropy fun e => { e with selftest := false }
    let t := (List.range 4).foldl (fun u i =>
      let st := (u.source i).state
      if failed.getLsbD i && (decide (st = .healthy) || decide (st = .off)) then u.failSource i 3 else u) t
    let t := if katOk then t else t.record 0xB2 0
    .next t.feedStore.failDraws

/-- The next bit of the test pattern, x^31 + x^28 + 1 (R466). -/
def lfsrStep (x : BitVec 31) : Bool × BitVec 31 :=
  let b := x.getLsbD 30 ^^ x.getLsbD 27
  (b, (x <<< 1) ||| (if b then 1#31 else 0#31))

/-- n bits of the test pattern, the earliest highest. -/
def lfsrBits : Nat → BitVec 31 → Nat → Nat × BitVec 31
  | 0, x, acc => (acc, x)
  | n + 1, x, acc => lfsrBits n (lfsrStep x).2 (acc * 2 + b2n (lfsrStep x).1)

/-- Samples that follow each other at a source: those given, or the test pattern in their place (R466). -/
def State.replaced (s : State) (i : Nat) (samples : List Bool) : List Bool × State :=
  if (s.source i).state = .testPattern then
    let r := lfsrBits samples.length (s.source i).lfsr 0
    (((List.range samples.length).map fun k => r.1.testBit (samples.length - 1 - k)), s.modSource i fun x => { x with lfsr := r.2 })
  else (samples, s)

/-- Samples read raw pass through the source's tests and counts as any other (R465). -/
def State.readRaw (s : State) (i : Nat) (samples : List Bool) : List Bool × State :=
  let r := s.replaced i samples
  (r.1, r.1.foldl (fun t b => t.takeSample i b) r.2)

/-- 32 raw samples of RAWSEL: the source's, or the test pattern's (R451, R465, R466). -/
def State.collectRaw (s : State) (samples : BitVec 32) : BitVec 32 × State :=
  let r := s.readRaw s.entropy.rawsel (sampleBits samples)
  (BitVec.ofNat 32 (r.1.foldl (fun a b => a * 2 + b2n b) 0), r.2)

/-- A source takes the sample of this tick: a free one, or the test pattern's (R450, R466; log 10). -/
def State.sampleSource (s : State) (i : Nat) : State :=
  let x := s.source i
  let r := (s.modSource i fun y => { y with taken := y.taken + 1 }).replaced i [Config.noiseBit i x.taken]
  r.2.takeSample i (r.1.headD false)

/-- The four sources take their samples, at 100 MHz (R450). -/
def State.sampleSources (s : State) : State := (List.range 4).foldl State.sampleSource s

/-- An IN of ENT_RAW: zero outside the test states, else the collected samples (R465). -/
def entRawRead (s : State) : IoRes :=
  if !s.life.rawOk then .done 0 s
  else match s.entropy.raw with
    | none => .stall s
    | some v => .done (wd v.toNat) (s.modEntropy fun e => { e with raw := none })

/-- ENT_RAW: the samples a read of the register collects (R465). -/
def execEntRaw (h : HandId) (samples : BitVec 32) (s : State) : Res :=
  regAccess h 0x5018 false 3 (fun t =>
    if !t.life.rawOk then .done 0 t
    else
      let c := t.collectRaw samples
      .done (wd c.1.toNat) (c.2.modEntropy fun e => { e with raw := some c.1 })) s

/-- The sources whose PATTERN bit is set take the test pattern, those cleared go OFF; the last clear
zero-fills the pool and every instance; without a HEALTHY source waiting draws fail (R451, R466, R467, R732). -/
def State.setPattern (s : State) (p : BitVec 4) : State :=
  let old := s.entropy.pattern
  let t := (List.range 4).foldl (fun t i =>
    if p.getLsbD i && !old.getLsbD i then t.modSource i fun x => { x with state := .testPattern, lfsr := 1 }
    else if !p.getLsbD i && old.getLsbD i then t.modSource i fun x => { x with state := .off } else t) s
  let t := t.modEntropy fun e => { e with pattern := p }
  (if p = 0 && old != 0 then t.clearEntropy else t).feedStore.failDraws

/-- A write of ENT_TEST: PATTERN only in FACTORY (R466). -/
def State.writeEntTest (s : State) (data : Word) : State :=
  let s := s.modEntropy fun e => { e with rawsel := wfield data 9 8 }
  if s.life.factory then s.setPattern (data.setWidth 4) else s

/-- PATTERN bits set. -/
def execPatternSet (h : HandId) (sources : BitVec 4) (s : State) : Res :=
  regWrite h 0x5019 3 (fun t => t.writeEntTest (t.entTestWord (t.entropy.pattern ||| sources))) s

/-- PATTERN bits cleared. -/
def execPatternClear (h : HandId) (sources : BitVec 4) (s : State) : Res :=
  regWrite h 0x5019 3 (fun t => t.writeEntTest (t.entTestWord (t.entropy.pattern &&& ~~~sources))) s

end Sys2Proof.Machine
end

