-- ==== Sys2Proof/Machine/VaultKeys.lean ====
section
/-!
DEFINITION. Sys2Proof/Machine/VaultKeys.lean: what the Vault computes: derivation (R417, R430 to
R432), lane blobs (R433, R437), backing objects (R438), shares (R440, R441) and attestation (R443, R444).
-/
namespace Sys2Proof.Machine

/-! ### Derivation -/

/-- SP 800-108 counter mode with AES-CMAC (R431): `bits` of output. -/
def kdf (prf label context : List Byte) (bits : Nat) : List Byte :=
  ((List.range ((bits + 127) / 128)).flatMap fun i =>
    aesCmac prf (beOctets 4 (i + 1) ++ label ++ [0#8] ++ context ++ beOctets 4 bits)).take (bits / 8)

/-- A key-encryption key from the DUK (Key-encryption keys table). -/
def formKek (label : List Nat) (context : List Byte) : List Byte :=
  kdf Config.duk (label.map (BitVec.ofNat 8)) context 256

/-- IKEK of a CLASS octet. -/
def formIkek (cls : Nat) : List Byte := formKek [0x49, 0x4B, 0x45, 0x4B] [BitVec.ofNat 8 cls]
/-- CKEK of BBKR and a CLASS octet. -/
def formCkek (bbkr : List Byte) (cls : Nat) : List Byte :=
  formKek [0x43, 0x4B, 0x45, 0x4B] (bbkr ++ [BitVec.ofNat 8 cls])

/-- The PRF key of a root: a SECRET is extracted first (R432). -/
def rootPrf (k : KeyObj) : List Byte :=
  if attrType k.attr = 0x20 then aesCmac (List.replicate 32 0#8) k.material else k.material

/-- VLT_DSPEC with STAGE and OUT zero (R431). -/
def dspecAttr (d : Word) : Word := d &&& 0xFFFF80000#36

/-- The key DERIVE forms (R431). -/
def derivedKey (root : KeyObj) (label ctx dspec : Word) : List Byte :=
  kdf (rootPrf root) (word40 label) (word40 ctx ++ word40 (dspecAttr dspec)) (8 * symSize (attrType dspec))

/-! ### Types -/

/-- TYPE codes that are not reserved (Key types table). -/
def typeKnown (t : Nat) : Bool :=
  (decide (1 ≤ t) && decide (t ≤ 12)) || (decide (0x10 ≤ t) && decide (t ≤ 0x14)) || t == 0x20

/-- Octets of a public key in SEQUENCER operand form. -/
def pubSize (t : Nat) : Nat :=
  if isNist t then 2 * (curveOf t).size
  else if isRsa t then rsaSize t + 4
  else if t = 11 then 1952
  else if t = 12 then 2592
  else 32

/-- Octets of a private value as the standard defines it (Backing object). -/
def privSize (t : Nat) : Nat :=
  if isNist t then (curveOf t).size
  else if isRsa t then 7 * (rsaSize t / 2)
  else if t = 9 then 2400
  else if t = 10 then 3168
  else 32

/-- Key material has the length its TYPE and PURPOSE give. -/
def materialOk (attr : Word) (n : Nat) : Bool :=
  let t := attrType attr
  if t = 0x20 then decide (32 ≤ n) && decide (n ≤ 66)
  else if 0x10 ≤ t then n == symSize t
  else if attrPurpose attr = 6 then n == pubSize t
  else n == privSize t

/-- The public key of key material: itself when it is public, the ek of an ML-KEM key (FIPS 203). -/
def pubOf (attr : Word) (m : List Byte) : List Byte :=
  let t := attrType attr
  if 0x10 ≤ t then []
  else if attrPurpose attr = 6 then m
  else if t = 9 then (m.drop 1152).take 1184
  else if t = 10 then (m.drop 1536).take 1568
  else publicOf t m

/-- A key object of attributes and material, none when the material does not fit them. -/
def makeKey (attr : Word) (m : List Byte) : Option KeyObj :=
  if materialOk attr m.length then some { attr := attr, material := m, pub := pubOf attr m } else none

/-- What is stored of a key: its public key when it is public. -/
def KeyObj.stored (k : KeyObj) : List Byte := if k.material = [] then k.pub else k.material

/-! ### Lane blobs (R364, R433, R437) -/

/-- The 24 words of a blob under a lane wrap key. -/
def laneBlob (lwk : List Byte) (cur : Nat) (attr : Word) (key : List Byte) : List Word :=
  let w0 := wd (2 ^ 32 + (attrType attr - 0x10) * 2 ^ 29 + attrPurpose attr * 2 ^ 26 + attrWorld attr * 2 ^ 24 + cur * 2 ^ 20)
  let wrapped := kwpSeal lwk (word40 w0 ++ key)
  padWords ([w0, first36 wrapped] ++ packIn .loose wrapped)
where padWords (l : List Word) : List Word := l ++ List.replicate (24 - l.length) 0

/-! ### Backing objects -/

/-- RFC 5649 octets for n octets of plaintext. -/
def kwpLen (n : Nat) : Nat := (n + 7) / 8 * 8 + 8

/-- The words of a backing object under CKEK. -/
def backingObject (ckek : List Byte) (k : KeyObj) : List Word :=
  let wrapped := kwpSeal ckek (word40 k.attr ++ word40 k.kcv ++ k.stored)
  [wd (2 * 2 ^ 32 + wrapped.length), k.attr, k.kcv, 0] ++ packIn .loose wrapped

/-- Words of a backing object by its key. -/
def objectWords (k : KeyObj) : Nat := 4 + kwpLen (10 + k.stored.length) / 4

/-- An object opened under its KEK (R438). -/
def openObject (kek : List Byte) (ws : List Word) : Option KeyObj :=
  let w0 := ws.getD 0 0
  let n := wfield w0 11 0
  if wfield w0 35 32 ≠ 2 ∨ wfield w0 30 12 ≠ 0 ∨ ws.getD 3 0 ≠ 0 ∨ n < 24 ∨ 3192 < n then none
  else match kwpOpen kek (packOut .loose (ws.drop 4) n) with
    | none => none
    | some p =>
      if p.take 10 = words40 [ws.getD 1 0, ws.getD 2 0] then makeKey (ws.getD 1 0) (p.drop 10) else none

/-! ### Shares over GF(2^8) (R440, R441) -/

/-- A polynomial's value, coefficients from the lowest. -/
def gfPoly (cs : List Byte) (x : Byte) : Byte := cs.foldr (fun c acc => c ^^^ aesMul acc x) 0

/-- The share at x: x, KCV, and a value for each octet of the key. -/
def shareOctets (key : List Byte) (kcv : Word) (coefs : List (List Byte)) (x : Byte) : List Byte :=
  x :: word40 kcv ++ (List.range key.length).map fun j => gfPoly (key.getD j 0 :: coefs.map fun c => c.getD j 0) x

/-- The N shares of a key, 10 words each. -/
def shareWords (key : List Byte) (kcv : Word) (coefs : List (List Byte)) (n : Nat) : List Word :=
  (List.range n).flatMap fun i => packIn .loose (padTo 40 (shareOctets key kcv coefs (BitVec.ofNat 8 (i + 1))))

/-- The Lagrange coefficient at 0 of one x among all. -/
def gfWeight (xs : List Byte) (x : Byte) : Byte :=
  xs.foldl (fun acc y => if y = x then acc else aesMul acc (aesMul y (aesInv (x ^^^ y)))) 1

/-- The key that shares of x and values give. -/
def combineShares (shares : List (Byte × List Byte)) : List Byte :=
  let xs := shares.map (·.1)
  (List.range 32).map fun j => shares.foldl (fun acc p => acc ^^^ aesMul (p.2.getD j 0) (gfWeight xs p.1)) 0

/-- Attributes of a custody key that COMBINE rebuilds: AES-256, WRAP_ONLY, WARDEN, IMPORTED (R441). -/
def custodyAttr : Word := attrWord 0x12 2 1 false true false false

/-- COMBINE: the rebuilt key, none when the shares do not fit (R441). -/
def rebuildKey (m : Nat) (ws : List Word) : Option KeyObj :=
  let shares := (List.range m).map fun i => packOut .loose ((ws.drop (10 * i)).take 10) 38
  let xs := shares.map fun b => b.headD 0
  let kcvs := shares.map fun b => (b.drop 1).take 5
  if xs.any (· == 0) || !xs.Nodup || kcvs.any (· != kcvs.headD []) then none
  else match makeKey custodyAttr (combineShares (shares.map fun b => (b.headD 0, b.drop 6))) with
    | none => none
    | some k => if word40 k.kcv = kcvs.headD [] then some k else none

/-! ### The Store's keys (R442; log 44) -/

/-- Tree key, record key, then each live epoch with its key. -/
def escrowOctets (tree record : List Byte) (epochs : Assoc (List Byte)) : List Byte :=
  tree ++ record ++ epochs.flatMap fun kv => beOctets 4 kv.1 ++ kv.2

/-- The epochs of an escrow. -/
def escrowEpochs (bs : List Byte) : Assoc (List Byte) :=
  (chunks 36 bs).foldl (fun m c => aput m (beNat (c.take 4)) (c.drop 4)) []

/-! ### Attestation -/

/-- The key attestation statement but its signature (R444). -/
def State.statement (s : State) (k : KeyObj) (nonce : List Byte) : List Byte :=
  let a := k.attr
  let o (n : Nat) : Byte := BitVec.ofNat 8 n
  beOctets 4 0x42584B41 ++ [1#8, o s.life.effective, o (attrType a), o (attrPurpose a), o (attrWorld a),
    o (b2n (attrBulk a) + 2 * b2n (attrImported a) + 4 * b2n (attrExportable a) + 8 * b2n (attrCode a)), 0#8, 0#8]
    ++ beOctets 8 Config.serial.toNat ++ beOctets 6 s.watch.rtcSec ++ beOctets 2 k.pub.length ++ nonce
    ++ padTo 48 s.startup.fwHash ++ word40 k.kcv ++ [0#8, 0#8, 0#8] ++ k.pub

/-- r ‖ s of the DAK over a message, with 56 random octets (R398, R443). -/
def dakSign (dak : List Byte) (random message : List Byte) : List Byte :=
  match p384.sign (beNat dak) (p384.scalar random) (sha384 message) with
  | some g => beOctets 48 g.1 ++ beOctets 48 g.2
  | none => List.replicate 96 0#8

end Sys2Proof.Machine
end

