-- ==== Sys2Proof/Machine/VaultOps.lean ====
section
/-!
DEFINITION. Sys2Proof/Machine/VaultOps.lean: the commands of the Key Vault (file 11): checks and effects at
the start, in arrival order (R446), and what the Hand sees at the end.
-/
namespace Sys2Proof.Machine

/-- What a command's checks answer. -/
inductive VaultRes where
  /-- refused with a code (R429). -/
  | no (code : Nat) (s : State)
  /-- it runs. -/
  | run (r : VaultRun) (s : State)
  /-- a page it reads is not resident: it starts when it is (log 45). -/
  | wait (s : State)
  /-- the errand stops for its budget (R279). -/
  | beyond (s : State)

/-- No key-encryption key is formed (R417, Vault modes table). -/
def State.noKek (s : State) : Bool := decide (s.vault.mode = .sealed) || decide (s.vault.mode = .none)

/-- The world of a Hand's own keys, true Warden. -/
def State.handWarden (s : State) (h : Nat) : Bool := (s.hand h).st.getLsbD 35

/-- Check runs of a command (R428). -/
def State.vaultRange (s : State) (h : Nat) (runs : List (Nat × Nat × Bool)) : Bool × State :=
  let v := s.acuView h
  checkRuns v.1 h (s.hand h).level 0xA4 runs v.2

/-- A key a handle names, usable by the Hand (R420, R423). -/
def State.vaultKey (s : State) (h : Nat) (w : Word) : Except Nat (Nat × KeyObj) :=
  match s.vault.lookup w with
  | none => .error 0xA0
  | some p => if worldAllows p.2.attr (s.handWarden h) then .ok p else .error 0xA1

/-- Reserved fields and encodings of an attribute word given as an argument (R429, check 1). -/
def attrFieldsOk (w : Word) : Bool := wfield w 18 0 == 0 && typeKnown (attrType w) && attrWorld w != 0

/-- The Hand may create a key of these attributes (R423). -/
def mayCreate (w : Word) (level : Nat) : Bool :=
  (level == 3 || attrWorld w == worldOf (decide (2 ≤ level))) && (!attrCode w || (level == 3 && attrPurpose w == 6))

/-- An attribute word with ORIGIN set by the Vault. -/
def withOrigin (w : Word) (imported : Bool) : Word := wsetBit w 21 imported

/-- A WRAP_ONLY AES key. -/
def isWrapKey (a : Word) : Bool := decide (0x10 ≤ attrType a) && decide (attrType a ≤ 0x12) && attrPurpose a == 2
/-- A WARDEN WRAP_ONLY key. -/
def isCustody (a : Word) : Bool := isWrapKey a && attrWorld a == 1

/-- A command that makes a key in a slot: which slot, in which generation (R447). -/
def VaultRun.makes (r : VaultRun) (s : State) (n : Nat) : VaultRun :=
  { r with created := some n, gen := aget 0 s.vault.gens n }

/-- A new resident key takes a slot now. -/
def State.vaultFill (s : State) (r : VaultRun) (k : KeyObj) : VaultRes :=
  match s.newSlot (attrCommon k.attr) with
  | none => .no 0xA2 s
  | some n => .run ({ r with value := s.slotHandle n }.makes s n) (s.fillSlot n k)

/-! ### Commands on resident keys -/

/-- INFO (R420, R425). -/
def vaultInfo (h : Nat) (a : List Word) (s : State) : VaultRes :=
  match s.vaultKey h (a.getD 0 0) with
  | .error c => .no c s
  | .ok (_, k) => .run { op := 1, info := some (k.attr, k.kcv) } s

/-- GENERATE: its slot is kept, its key drawn before it ends (R399, R423, R463). -/
def vaultGenerate (h : Nat) (a : List Word) (s : State) : VaultRes :=
  let w := a.getD 0 0
  let t := attrType w
  if !(decide (0x10 ≤ t) && decide (t ≤ 0x14) && typeAllows w && mayCreate w (s.hand h).level) then .no 0xA1 s
  else if (s.hand h).drbg.isNone then .no 0xA8 s
  else match s.newSlot (attrCommon w) with
    | none => .no 0xA2 s
    | some n => .run { op := 2, keep := some n, attr := withOrigin w false } s

/-- DESTROY: the slot is emptied (R420, R446). -/
def vaultDestroy (h : Nat) (a : List Word) (s : State) : VaultRes :=
  match s.vaultKey h (a.getD 0 0) with
  | .error c => .no c s
  | .ok (n, _) => .run { op := 3 } (s.modVault fun v => v.emptySlot n)

/-- LOCKEXP: EXPORTABLE becomes 0 (R422). -/
def vaultLockexp (h : Nat) (a : List Word) (s : State) : VaultRes :=
  match s.vaultKey h (a.getD 0 0) with
  | .error c => .no c s
  | .ok (n, k) => .run { op := 4 } (s.fillSlot n { k with attr := wsetBit k.attr 20 false })

/-- ISSUE: a BULK key wrapped for a lane (R437). -/
def vaultIssue (h : Nat) (a : List Word) (s : State) : VaultRes :=
  let n := (a.getD 1 0).toNat
  match s.vaultKey h (a.getD 0 0), afind s.vault.lwks s.vault.lwkCur with
  | .error c, _ => .no c s
  | _, none => .no 0xA6 s
  | .ok (_, k), some lwk =>
    if !attrBulk k.attr then .no 0xA1 s
    else
      let key := 2 ^ 35 + h * 8 + n
      .run { op := 9, value := key % 2 ^ 28, blob := some (wd key)
             stage := some (n, laneBlob lwk s.vault.lwkCur k.attr k.material) } s

/-! ### DERIVE (R430 to R433) -/

/-- The rules of R430 and the Key types table for a root and VLT_DSPEC. -/
def deriveOk (root dspec : Word) (level : Nat) : Bool :=
  let t := attrType dspec
  attrPurpose root == 4 && decide (0x10 ≤ t) && decide (t ≤ 0x14)
    && (attrWorld root == 3 || attrWorld root == attrWorld dspec) && mayCreate dspec level
    && (!attrExportable dspec || attrExportable root) && !attrCode dspec && typeAllows dspec
    && (dspec.getLsbD 15 || (attrBulk dspec && decide (attrPurpose dspec ≤ 3)))

/-- DERIVE of the root VLT_DERIVE names. -/
def vaultDerive (h : Nat) (root : Word) (s : State) : VaultRes :=
  let v := (s.hand h).vault
  let d := v.dspec
  match s.vaultKey h root, afind s.vault.lwks s.vault.lwkCur with
  | .error c, _ => .no c s
  | _, none => .no 0xA6 s
  | .ok (_, k), some lwk =>
    if !deriveOk k.attr d (s.hand h).level then .no 0xA1 s
    else
      let f := s.freeValue
      let key := derivedKey k v.label v.ctx d
      let attr := withOrigin (dspecAttr d) (attrImported k.attr)
      if d.getLsbD 15 then
        match s.newSlot (attrCommon attr) with
        | none => .no 0xA2 s
        | some n => .run ({ op := 0, value := f.1 % 2 ^ 28, blob := some (wd (s.slotHandle n)) : VaultRun }.makes s n)
            (f.2.fillSlot n { attr := attr, material := key })
      else
        let n := wfield d 18 16
        .run { op := 0, value := f.1 % 2 ^ 28, blob := some (wd (2 ^ 35 + h * 8 + n))
               stage := some (n, laneBlob lwk s.vault.lwkCur attr key) } f.2

/-! ### SAVE, LOAD, EXPORT, IMPORT (R438, R439) -/

/-- SAVE: a backing object under CKEK. The run of a command whose key is absent is taken at its shortest (log 120). -/
def vaultSave (h : Nat) (a : List Word) (s : State) : VaultRes :=
  let addr := (a.getD 1 0).toNat
  let n := match s.vault.lookup (a.getD 0 0) with
    | some (_, k) => objectWords k
    | none => 10
  match s.vault.ckek with
  | none => .no 0xA6 s
  | some kek => match s.vaultRange h [(addr, n, true)] with
    | (false, t) => .no 0xA4 t
    | (true, t) => match t.vaultKey h (a.getD 0 0) with
      | .error c => .no c t
      | .ok (_, k) => .run { op := 5, value := n, writes := (addr, backingObject kek k) } t

/-- The KEK an object names. -/
def Vault.kekOf (v : Vault) (w0 : Word) : Option (List Byte) := if w0.getLsbD 31 then v.ikek else v.ckek

/-- The slot a LOAD takes. -/
def State.loadSlot (s : State) (place : Nat) (common : Bool) : Option Nat :=
  if place = 0 then s.newSlot common
  else match s.newSlot common with
    | none => none
    | some _ =>
      if (afind s.vault.slots (place - 1)).isNone && !(s.keptSlots.any fun p => p.1 == place - 1) then some (place - 1)
      else none

/-- LOAD of an object whose words are at hand (R438); in HOLD one under IKEK only, public key or not (log 120). -/
def vaultLoadWords (place : Nat) (ws : List Word) (s : State) : VaultRes :=
  match s.vault.kekOf (ws.getD 0 0) with
  | none => .no 0xA6 s
  | some kek => match s.loadSlot place (attrCommon (ws.getD 1 0)) with
    | none => .no 0xA2 s
    | some n => match openObject kek ws with
      | none => .no 0xA5 s
      | some k => .run ({ op := 6, value := s.slotHandle n : VaultRun }.makes s n) (s.fillSlot n k)

/-- LOAD. -/
def vaultLoadCmd (h : Nat) (a : List Word) (s : State) : VaultRes :=
  let addr := (a.getD 0 0).toNat; let place := (a.getD 1 0).toNat
  match s.vaultRange h [(addr, 4, false)] with
  | (false, t) => .no 0xA4 t
  | (true, t) =>
    if (t.runMissing h addr 4).isSome then .wait t
    else
      let w0 := (t.readRun h addr 1).getD 0 0
      let n := 4 + (wfield w0 11 0 + 3) / 4
      match t.vaultRange h [(addr, n, false)] with
      | (false, u) => .no (if (t.vault.kekOf w0).isNone then 0xA6 else 0xA4) (if (t.vault.kekOf w0).isNone then t else u)
      | (true, u) => if (u.runMissing h addr n).isSome then .wait u else vaultLoadWords place (u.readRun h addr n) u

/-- EXPORT: the material under a WRAP_ONLY AES key (R439). -/
def vaultExport (h : Nat) (a : List Word) (s : State) : VaultRes :=
  let addr := (a.getD 2 0).toNat
  let n := match s.vault.lookup (a.getD 0 0) with
    | some (_, k) => kwpLen k.stored.length
    | none => 16
  match s.vaultRange h [(addr, n / 4, true)] with
  | (false, t) => .no 0xA4 t
  | (true, t) => match t.vault.lookup (a.getD 0 0), t.vault.lookup (a.getD 1 0) with
    | some (_, k), some (_, w) =>
      if !worldAllows k.attr (t.handWarden h) || !worldAllows w.attr (t.handWarden h) || !isWrapKey w.attr then .no 0xA1 t
      else if !attrExportable k.attr then .no 0xA7 t
      else .run { op := 7, value := n, writes := (addr, packIn .loose (kwpSeal w.material k.stored)) } t
    | _, _ => .no 0xA0 t

/-- IMPORT's octets: as they stand for a public key, else unwrapped. -/
def importOctets (wrap : Option KeyObj) (bs : List Byte) : Option (List Byte) :=
  match wrap with
  | none => some bs
  | some k => kwpOpen k.material bs

/-- IMPORT once its words are at hand. -/
def vaultImportWords (h : Nat) (wrap : Option KeyObj) (attr : Word) (bs : List Byte) (s : State) : VaultRes :=
  let usable := match wrap with
    | none => attrPurpose attr == 6
    | some k => worldAllows k.attr (s.handWarden h) && isWrapKey k.attr
  if !usable || !typeAllows attr || !mayCreate attr (s.hand h).level then .no 0xA1 s
  else match s.newSlot (attrCommon attr) with
    | none => .no 0xA2 s
    | some _ => match importOctets wrap bs with
      | none => .no 0xA5 s
      | some m => match makeKey (withOrigin attr true) m with
        | none => .no 0xA5 s
        | some k => s.vaultFill { op := 8 } k

/-- IMPORT (R439). -/
def vaultImport (h : Nat) (a : List Word) (s : State) : VaultRes :=
  let addr := (a.getD 1 0).toNat; let n := (a.getD 3 0).toNat
  let words := (n + 3) / 4
  match s.vaultRange h [(addr, words, false)] with
  | (false, t) => .no 0xA4 t
  | (true, t) =>
    let named := a.getD 0 0 != 0
    match named, t.vault.lookup (a.getD 0 0) with
    | true, none => .no 0xA0 t
    | _, k =>
      if (t.runMissing h addr words).isSome then .wait t
      else vaultImportWords h (if named then k.map (·.2) else none) (a.getD 2 0) (packOut .loose (t.readRun h addr words) n) t

/-! ### ATTEST and SPDM_SIGN (R443, R444) -/

/-- ATTEST: needs a SEQUENCER slice and a DRBG instance; metered as PSET 02h, OP 2. -/
def vaultAttest (h : Nat) (a : List Word) (s : State) : VaultRes :=
  let from_ := (a.getD 1 0).toNat; let to_ := (a.getD 2 0).toNat
  let x := s.hand h
  let n := match s.vault.lookup (a.getD 0 0) with
    | some (_, k) => (0x74 + k.pub.length + 96 + 3) / 4
    | none => 53
  if s.vault.dak.isNone then .no 0xA6 s
  else match s.vaultRange h [(from_, 8, false), (to_, n, true)] with
    | (false, t) => .no 0xA4 t
    | (true, t) => match t.vaultKey h (a.getD 0 0) with
      | .error c => .no c t
      | .ok (_, k) =>
        if !x.sliceHeld || x.sliceMac || x.drbg.isNone then .no 0xA8 t
        else if (t.runMissing h from_ 8).isSome then .wait t
        else match t.chargePk h 2 2 1 with
          | (false, u) => .beyond u
          | (true, u) => .run { op := 10, args := a, value := n, key := some k, data := packOut .loose (t.readRun h from_ 8) 32 } u

/-- SPDM_SIGN. -/
def vaultSpdm (h : Nat) (a : List Word) (s : State) : VaultRes :=
  let from_ := (a.getD 0 0).toNat; let to_ := (a.getD 1 0).toNat
  if s.vault.dak.isNone then .no 0xA6 s
  else match s.vaultRange h [(from_, 12, false), (to_, 24, true)] with
    | (false, t) => .no 0xA4 t
    | (true, t) =>
      if (t.runMissing h from_ 12).isSome then .wait t
      else .run { op := 11, args := a, data := packOut .loose (t.readRun h from_ 12) 48 } t

/-! ### SPLIT and COMBINE (R440, R441) -/


/-- SPLIT of an EXPORTABLE WARDEN WRAP_ONLY AES-256 key. -/
def vaultSplit (h : Nat) (a : List Word) (s : State) : VaultRes :=
  let addr := (a.getD 2 0).toNat; let n := splitN a
  match s.vaultRange h [(addr, 10 * n, true)] with
  | (false, t) => .no 0xA4 t
  | (true, t) => match t.vaultKey h (a.getD 0 0) with
    | .error c => .no c t
    | .ok (_, k) =>
      if !isCustody k.attr || attrType k.attr ≠ 0x12 then .no 0xA1 t
      else if !attrExportable k.attr then .no 0xA7 t
      else .run { op := 12, args := a, value := 10 * n, key := some k } t

/-- COMBINE of M shares. -/
def vaultCombine (h : Nat) (a : List Word) (s : State) : VaultRes :=
  let addr := (a.getD 0 0).toNat; let m := (a.getD 1 0).toNat
  match s.vaultRange h [(addr, 10 * m, false)] with
  | (false, t) => .no 0xA4 t
  | (true, t) => match t.newSlot false with
    | none => .no 0xA2 t
    | some _ =>
      if (t.runMissing h addr (10 * m)).isSome then .wait t
      else match rebuildKey m (t.readRun h addr (10 * m)) with
        | none => .no 0xA9 t
        | some k => t.vaultFill { op := 13 } k

/-! ### STORE_ESCROW and STORE_RESTORE (R442) -/

/-- STORE_ESCROW: the Store's keys under a WARDEN WRAP_ONLY key. -/
def vaultEscrow (h : Nat) (a : List Word) (s : State) : VaultRes :=
  let addr := (a.getD 1 0).toNat
  match s.store.treeKey, s.vault.recordKey with
  | some tree, some record =>
    let plain := escrowOctets tree record s.store.epochKeys
    let n := kwpLen plain.length / 4
    match s.vaultRange h [(addr, n, true)] with
    | (false, t) => .no 0xA4 t
    | (true, t) => match t.vaultKey h (a.getD 0 0) with
      | .error c => .no c t
      | .ok (_, k) =>
        if !isCustody k.attr then .no 0xA1 t
        else .run { op := 16, value := n, writes := (addr, packIn .loose (kwpSeal k.material plain)) } t
  | _, _ => .no 0xA6 s

/-- The Store takes restored keys, kept as its backing object (R442). -/
def State.restoreStore (s : State) (plain : List Byte) : State :=
  ((s.modVault fun v => { v with recordKey := some ((plain.drop 32).take 32) }).modStore fun t => { t with
    treeKey := some (plain.take 32), epochKeys := escrowEpochs (plain.drop 64) }).saveStoreKeys

/-- STORE_RESTORE with the words of an escrow of one or of two epochs, whichever opens (log 44). -/
def vaultRestoreWords (key : List Byte) (ws : List Word) (s : State) : VaultRes :=
  match kwpOpen key (packOut .loose ws 112), kwpOpen key (packOut .loose ws 144) with
  | some p, _ => if p.length = 100 then .run { op := 17 } (s.restoreStore p) else .no 0xA5 s
  | _, some p => if p.length = 136 then .run { op := 17 } (s.restoreStore p) else .no 0xA5 s
  | _, _ => .no 0xA5 s

/-- STORE_RESTORE, only while the Store is CLOSED. -/
def vaultRestore (h : Nat) (a : List Word) (s : State) : VaultRes :=
  let addr := (a.getD 1 0).toNat
  if s.vault.ckek.isNone then .no 0xA6 s
  else match s.vaultRange h [(addr, 28, false)] with
    | (false, t) => .no 0xA4 t
    | (true, t) => match t.vaultKey h (a.getD 0 0) with
      | .error c => .no c t
      | .ok (_, k) =>
        if !isCustody k.attr || t.store.state ≠ .closed then .no 0xA1 t
        else if (t.runMissing h addr 28).isSome then .wait t
        else match (t.vaultRange h [(addr, 36, false)]).1 && (t.runMissing h addr 36).isNone with
          | true => vaultRestoreWords k.material (t.readRun h addr 36) t
          | false => vaultRestoreWords k.material (t.readRun h addr 28) t

/-! ### The start of a command (R427, R429) -/

/-- Level and argument encodings of a command (R429, check 1). -/
def vaultFormOk (op level : Nat) (a : List Word) : Bool :=
  let ws := level == 3
  match op with
  | 1 => true
  | 2 => attrFieldsOk (a.getD 0 0)
  | 3 => true
  | 4 => true
  | 5 => ws
  | 6 => ws && decide ((a.getD 1 0).toNat ≤ 4096)
  | 7 => true
  | 8 => attrFieldsOk (a.getD 2 0)
  | 9 => decide ((a.getD 1 0).toNat ≤ 7)
  | 10 => true
  | 11 => ws
  | 12 => ws && wfield (a.getD 1 0) 35 8 == 0 && decide (2 ≤ splitM a) && decide (splitM a ≤ splitN a) && decide (splitN a ≤ 8)
  | 13 => ws && decide (2 ≤ (a.getD 1 0).toNat) && decide ((a.getD 1 0).toNat ≤ 8)
  | 14 => ws
  | 15 => ws
  | 16 => ws
  | 17 => ws
  | _ => false

/-- A command whose encodings pass and for which keys are formed. -/
def vaultDispatch (h op : Nat) (a : List Word) (s : State) : VaultRes :=
  match op with
  | 1 => vaultInfo h a s
  | 2 => vaultGenerate h a s
  | 3 => vaultDestroy h a s
  | 4 => vaultLockexp h a s
  | 5 => vaultSave h a s
  | 6 => vaultLoadCmd h a s
  | 7 => vaultExport h a s
  | 8 => vaultImport h a s
  | 9 => vaultIssue h a s
  | 10 => vaultAttest h a s
  | 11 => vaultSpdm h a s
  | 12 => vaultSplit h a s
  | 13 => vaultCombine h a s
  | 14 => .run { op := 14 } s
  | 15 => if s.vault.mode = .hold then .run { op := 15 } s else .no 0xA3 s
  | 16 => vaultEscrow h a s
  | _ => vaultRestore h a s

/-- The checks of a command in order. -/
def vaultTry (h op : Nat) (a : List Word) (s : State) : VaultRes :=
  if op = 0 then
    let d := (s.hand h).vault.dspec
    if wfield (a.getD 0 0) 35 28 ≠ 0 || !typeKnown (attrType d) || attrWorld d = 0 then .no 0xA3 s
    else if s.noKek then .no 0xA6 s
    else vaultDerive h (a.getD 0 0) s
  else if !vaultFormOk op (s.hand h).level a then .no 0xA3 s
  else if s.noKek then .no 0xA6 s
  else vaultDispatch h op a s

/-- The staging slot of a DERIVE or ISSUE to BLOB, with its LN_KEY word (R435). -/
def State.stageOf (s : State) (h op : Nat) (a : List Word) : Option Nat :=
  let d := (s.hand h).vault.dspec
  if op = 0 then (if d.getLsbD 15 then none else some (wfield d 18 16))
  else if op = 9 ∧ (a.getD 1 0).toNat ≤ 7 then some (a.getD 1 0).toNat
  else none

/-- VLT_RESULT takes a status and a value. -/
def State.vaultResult (s : State) (h status value : Nat) : State :=
  s.modHand h fun x => { x with vault := { x.vault with result := wd (status * 2 ^ 28 + value % 2 ^ 28), running := none } }

/-- A command refused: it ends at once; a DERIVE or ISSUE to BLOB leaves zeros in its staging slot (R429,
R435). VALUE is open (log 10). -/
def State.vaultRefuse (s : State) (h op : Nat) (a : List Word) (code : Nat) : State :=
  let f := s.freeValue
  let t := f.2.vaultResult h code f.1
  match s.stageOf h op a with
  | none => t
  | some n => (t.modVault fun v => { v with staging := aset [] v.staging (h * 8 + n) [] }).modHand h fun x =>
      { x with vault := { x.vault with blob := wd (2 ^ 35 + h * 8 + n) } }

/-- Commands the hardened path runs now (R445). -/
def State.pathRuns (s : State) : Nat :=
  (s.hands.filter fun kv => kv.2.vault.running.any fun r => !r.due && !r.queued).length

/-- The waiting command that comes first in the order of R265 (R445). -/
def State.pathFirst (s : State) : Option Nat :=
  (s.hands.filter fun kv => kv.2.vault.running.any fun r => r.queued).foldl (fun b kv => match b with
    | none => some kv.1
    | some h => match (s.hand h).errand, kv.2.errand with
      | some a, some c => if s.errandBefore c a then some kv.1 else some h
      | _, _ => some h) none

/-- A free place of the path goes to the first waiting command (R445). -/
def State.pathNext (s : State) : State :=
  if 8 ≤ s.pathRuns then s
  else match s.pathFirst with
    | none => s
    | some h => s.modHand h fun x => { x with vault := { x.vault with
        running := x.vault.running.map fun r => { r with queued := false } } }

/-- The slots a command names (R446): by handle, and a LOAD's place. -/
def slotsNamed (op : Nat) (a : List Word) : List Nat :=
  let handle (i : Nat) : List Nat := [wfield (a.getD i 0) 11 0]
  match op with
  | 2 => []
  | 6 => if a.getD 1 0 = 0 then [] else [(a.getD 1 0).toNat - 1]
  | 7 => handle 0 ++ handle 1
  | 8 => if a.getD 0 0 = 0 then [] else handle 0
  | 11 => []
  | 13 => []
  | 14 => []
  | 15 => []
  | _ => handle 0

/-- An earlier command that still waits for a page names a slot that a command names (R446). -/
def State.behind (s : State) (h seq op : Nat) (a : List Word) : Bool :=
  s.hands.any fun kv => kv.1 != h && kv.2.vault.running.any fun r =>
    r.due && decide (r.seq < seq) && (slotsNamed r.op r.args).any (slotsNamed op a).contains

/-- A command starts, or is refused. Its checks and its effects on slots are made at its arrival, but after those of an
earlier command that names the same slot and waits for a page (R446); it waits for a place on the path when 8 run
(R445). -/
def State.vaultBegin (s : State) (h seq op : Nat) (a : List Word) : State :=
  let begin_ (t : State) (r : VaultRun) : State := t.modHand h fun x => { x with vault := { x.vault with
    running := some { r with seq := seq, queued := !r.due && decide (8 ≤ t.pathRuns) } } }
  if s.behind h seq op a then begin_ s { op := op, args := a, due := true }
  else match vaultTry h op a s with
    | .no c t => t.vaultRefuse h op a c
    | .run r t => begin_ t r
    | .wait t => begin_ t { op := op, args := a, due := true }
    | .beyond t => t

/-- A command arrives: it takes the next number. -/
def State.vaultStart (s : State) (h op : Nat) (a : List Word) : State :=
  (s.modVault fun v => { v with nextCmd := v.nextCmd + 1 }).vaultBegin h s.vault.nextCmd op a

/-- The arguments a command takes. -/
def HandVault.args (v : HandVault) : List Word := [v.arg0, v.arg1, v.arg2, v.arg3]

/-- A write of VLT_CMD. -/
def vaultCmdWrite (h : Nat) (data : Word) (s : State) : IoRes :=
  let v := (s.hand h).vault
  if v.running.isSome then .stall s
  else .done 0 (s.vaultStart h (if wfield data 35 5 ≠ 0 ∨ wfield data 4 0 = 0 then 31 else wfield data 4 0) v.args)

/-- A write of VLT_DERIVE. -/
def vaultDeriveWrite (h : Nat) (data : Word) (s : State) : IoRes :=
  if (s.hand h).vault.running.isSome then .stall s else .done 0 (s.vaultStart h 0 [data])

/-- A Vault command written in VLT_CMD. -/
def vaultRow (h op : Nat) (s : State) : Res := regAccess h 0x400C true 0 (vaultCmdWrite h (wd op)) s

/-- DERIVE. -/
def execDerive (h : HandId) (root : BitVec 28) (s : State) : Res :=
  regAccess h 0x4003 true 0 (vaultDeriveWrite h (root.setWidth 36)) s
/-- INFO. -/
def execInfo (h : HandId) (s : State) : Res := vaultRow h 1 s
/-- GENERATE. -/
def execGenerate (h : HandId) (s : State) : Res := vaultRow h 2 s
/-- DESTROY. -/
def execDestroy (h : HandId) (s : State) : Res := vaultRow h 3 s
/-- LOCKEXP. -/
def execLockexp (h : HandId) (s : State) : Res := vaultRow h 4 s
/-- SAVE. -/
def execSave (h : HandId) (s : State) : Res := vaultRow h 5 s
/-- LOAD of the Vault. -/
def execVaultLoad (h : HandId) (s : State) : Res := vaultRow h 6 s
/-- EXPORT. -/
def execExportKey (h : HandId) (s : State) : Res := vaultRow h 7 s
/-- IMPORT. -/
def execImportKey (h : HandId) (s : State) : Res := vaultRow h 8 s
/-- ISSUE. -/
def execIssue (h : HandId) (s : State) : Res := vaultRow h 9 s
/-- ATTEST. -/
def execAttest (h : HandId) (s : State) : Res := vaultRow h 10 s
/-- SPDM_SIGN. -/
def execSpdmSign (h : HandId) (s : State) : Res := vaultRow h 11 s
/-- SPLIT. -/
def execSplit (h : HandId) (s : State) : Res := vaultRow h 12 s
/-- COMBINE. -/
def execCombine (h : HandId) (s : State) : Res := vaultRow h 13 s
/-- LWK_ROTATE. -/
def execLwkRotate (h : HandId) (s : State) : Res := vaultRow h 14 s
/-- BBKR_NEW. -/
def execBbkrNew (h : HandId) (s : State) : Res := vaultRow h 15 s
/-- STORE_ESCROW. -/
def execStoreEscrow (h : HandId) (s : State) : Res := vaultRow h 16 s
/-- STORE_RESTORE. -/
def execStoreRestore (h : HandId) (s : State) : Res := vaultRow h 17 s

/-! ### The end of a command (R427, R436, R446, R447, R732) -/


/-- AL_LATCH bits 63:56, which SUMMARY follows (R680). -/
def Watch.summaryBits (w : Watch) : Nat :=
  b2n w.tampered * 128 + b2n w.bbkr.isSome * 64 + b2n w.rtcValid * 32 + b2n w.halted * 16 + w.strongest % 8

/-- ALARM_N follows TAMPERED and HALTED (R614). -/
def Watch.alarm (w : Watch) : Bool := w.tampered || w.halted
/-- Change the Watch domain, driving ALARM_N; a change of AL_LATCH bits 63:56 owes a SUMMARY (R614, R680). -/
def State.watchChange (s : State) (f : Watch → Watch) : State :=
  let t := s.modWatch f
  let t := if s.watch.summaryBits = t.watch.summaryBits then t else t.modTag fun g => { g with summaryOwed := true }
  if s.watch.alarm == t.watch.alarm then t else t.emit (.alarmN t.watch.alarm)

/-- CLASS of the effective state: 2 in the Trial states (Roots and key-encryption keys). -/
def LifeCycle.cls (l : LifeCycle) : Nat := if l.trial.isSome then 2 else 1

/-- LWK_ROTATE: the next lane wrap key is replaced and current, and every lane empties its cache (R436, R367). -/
def State.rotateLwk (s : State) (key : List Byte) : State :=
  let n := (s.vault.lwkCur + 1) % 16
  (s.modVault fun v => { v with lwks := aput v.lwks n key, lwkCur := n }).flushLanes

/-- BBKR_NEW: BBKR is written, TAMPERED clears, CKEK is formed and the mode leaves HOLD; MODE becomes
NORMAL from TAMPER_HOLD (R418, R419, R613, R703). -/
def State.newBbkr (s : State) (key : List Byte) : State :=
  let t := s.watchChange fun w => { w with bbkr := some key, tampered := false }
  let t := t.modVault fun v => { v with
    ckek := some (formCkek key t.life.cls), mode := if t.life.trial.isSome then .trial else .opened }
  if t.link.mode = 2 then (t.modLink fun l => { l with mode := 1 }).hostEvent 8 else t

/-- A system draw with its octets. -/
def State.vaultDrawn (s : State) (r : VaultRun) (octets : List Byte) : VaultRun × State :=
  match r.op with
  | 12 =>
    let k := r.key.getD { attr := 0, material := [] }
    let coefs := (List.range (splitM r.args - 1)).map fun i => (octets.drop (32 * i)).take 32
    ({ r with writes := ((r.args.getD 2 0).toNat, shareWords k.material k.kcv coefs (splitN r.args)) }, s)
  | 14 => ({ r with value := (s.vault.lwkCur + 1) % 16 }, s.rotateLwk (octets.take 32))
  | _ => (r, s.newBbkr (octets.take 32))

/-- What a command draws before it ends: none where it must still wait. -/
def State.vaultComplete (s : State) (h : Nat) (r : VaultRun) : Option (VaultRun × State) :=
  match r.op with
  | 2 =>
    let d := s.drawFor h (symSize (attrType r.attr))
    if d.1 ≠ 0 then none
    else match r.keep with
      | some n => some ({ r with keep := none, value := d.2.2.slotHandle n }.makes d.2.2 n,
          d.2.2.fillSlot n { attr := r.attr, material := d.2.1 })
      | none => some (r, s)
  | 10 =>
    let d := s.drawFor h 56
    if d.1 ≠ 0 then none
    else
      let m := d.2.2.statement (r.key.getD { attr := 0, material := [] }) r.data
      let sig := dakSign (d.2.2.vault.dak.elim [] (·.material)) d.2.1 m
      some ({ r with writes := ((r.args.getD 2 0).toNat, packIn .loose (m ++ sig)) }, d.2.2)
  | 11 =>
    let f := s.freeOctets 56
    let sig := dakSign (s.vault.dak.elim [] (·.material)) f.1 (Config.spdmPrefix (r.args.getD 2 0) ++ r.data)
    some ({ r with writes := ((r.args.getD 1 0).toNat, packIn .loose sig) }, f.2)
  | _ =>
    let n := r.seeds
    if n = 0 ∨ r.status ≠ 0 then some (r, s)
    else if n ≤ s.entropy.pool.length then
      some ((s.modEntropy fun e => { e with pool := e.pool.drop n }).vaultDrawn r (s.entropy.pool.take n).flatten)
    else if s.mayWait then none
    else some ({ r with status := 0xAA }, s)

/-- A waiting generate call tells the pool that its instance waits (R454, R456). -/
def State.vaultAsk (s : State) (h : Nat) (r : VaultRun) : State :=
  if r.op = 2 ∨ r.op = 10 then (s.drawFor h 1).2.2 else s

/-- What the Hand sees of a command that ended. -/
def State.vaultShow (s : State) (h : Nat) (r : VaultRun) : State :=
  let s := s.writeRun h r.writes.1 r.writes.2
  let s := match r.stage with
    | some (n, ws) => s.modVault fun v => { v with staging := aset [] v.staging (h * 8 + n) ws }
    | none => s
  let s := s.modHand h fun x => { x with vault := { x.vault with
    arg0 := r.info.elim x.vault.arg0 (·.1), arg1 := r.info.elim x.vault.arg1 (·.2), blob := r.blob.getD x.vault.blob } }
  s.vaultResult h r.status r.value

/-- The errand of a Hand was stopped (R447). -/
def State.errandStopped (s : State) (h : Nat) : Bool :=
  decide ((s.hand h).state = .releasing) && (match s.errandOf h with
    | some (_, x) => !x.done
    | none => true)

/-- After a stopped errand's command: the slot it created is destroyed, unless it has been emptied since, and its
staging slot zero-filled (R420, R447). -/
def State.vaultUndo (s : State) (h : Nat) (r : VaultRun) : State :=
  s.modVault fun v =>
    let v := match r.created with
      | some n => if aget 0 v.gens n = r.gen then v.emptySlot n else v
      | none => v
    match r.stage with
    | some (n, _) => { v with staging := aset [] v.staging (h * 8 + n) [] }
    | none => v

/-- A command ends. -/
def State.vaultEnd (s : State) (h : Nat) (r : VaultRun) : State :=
  match s.vaultComplete h r with
  | none => s.vaultAsk h r
  | some (q, t) =>
    if (t.runMissing h q.writes.1 q.writes.2.length).isSome then s
    else
      let u := t.vaultShow h q
      let u := if s.errandStopped h then u.vaultUndo h q else u
      u.serve

/-- VAULT_COMMAND_END: the command of a Hand ends, unless a seed, a page or its place on the path still keeps
it waiting (R427, R445). -/
def execVaultCommandEnd (h : HandId) (s : State) : Res :=
  match (s.hand h).vault.running with
  | none => s.same
  | some r =>
    if r.queued then s.same
    else if !r.due then .next (s.vaultEnd h r).pathNext
    else
      let t := (s.modHand h fun x => { x with vault := { x.vault with running := none } }).vaultBegin h r.seq r.op r.args
      match (t.hand h).vault.running with
      | some q => if q.due || q.queued then .next t else .next (t.vaultEnd h q).pathNext
      | none => .next t

/-! ### The window (R426) -/

/-- A plain write of the Vault window, by offset. -/
def vaultWrite (h off : Nat) (data : Word) (s : State) : IoRes :=
  let regs (f : HandVault → HandVault) : IoRes := .done 0 (s.modHand h fun x => { x with vault := f x.vault })
  match off with
  | 0 => regs fun v => { v with ctx := data }
  | 1 => regs fun v => { v with label := data }
  | 2 => regs fun v => { v with dspec := data &&& 0xFFFDF8000#36 }
  | 3 => vaultDeriveWrite h data s
  | 8 => regs fun v => { v with arg0 := data }
  | 9 => regs fun v => { v with arg1 := data }
  | 10 => regs fun v => { v with arg2 := data }
  | 11 => regs fun v => { v with arg3 := data }
  | 12 => vaultCmdWrite h data s
  | 17 => .done 0 (s.modVault fun v => { v with quota := min 4096 (wfield data 12 0) })
  | _ => .done 0 s

end Sys2Proof.Machine
end

