-- ==== Sys2Proof/Machine/Cascade.lean ====
section
/-!
DEFINITION. Sys2Proof/Machine/Cascade.lean: the Baton ports, JOIN, the tunnel, time, loss and return
(R508 to R546). One message stands for one flit, and an event names what the link layer found.
-/
namespace Sys2Proof.Machine

/-! ### Route entries (HC_ENTRY) -/

/-- Change a route entry; a change of STATE adds one to GEN and raises source 23 (R544, HC_SUMMARY). -/
def State.setEntry (s : State) (n : Nat) (x : HcEntry) : State :=
  let was := (s.hcEntry n).state
  let s := s.modCascade fun c => { c with entries := aput c.entries n x }
  if was = x.state then s else (s.modCascade fun c => { c with gen := (c.gen + 1) % 65536 }).interruptAll 23

/-- The number a device path holds (R526). -/
def State.numberAt (s : State) (p : Word) : Option Nat :=
  (s.cascade.entries.find? fun kv => pathDevice kv.2.path == pathDevice p).map (·.1)

/-- The lowest device number no path holds (R526). -/
def State.freeNumber (s : State) : Option Nat :=
  ((List.range 4095).map (· + 1)).find? fun n => (afind s.cascade.entries n).isNone

/-- The path of the device below a port of this one (R526). -/
def State.childPath (s : State) (p : Nat) : Word :=
  let h := hopsOf s.devicePath
  wput (wput s.devicePath 35 33 (h + 1)) (32 - 3 * h) (30 - 3 * h) p

/-- The port of this device that a device directly below it hangs on. -/
def State.childPort (s : State) (path : Word) : Option Nat :=
  if hopsOf path = hopsOf s.devicePath + 1 ∧ samePorts path s.devicePath (hopsOf s.devicePath)
  then some (hopPort path (hopsOf path)) else none

/-- Source 23 when another JOIN comes to the head (R544). -/
def State.announceHead (s before : State) : State :=
  match s.cascade.awaiting with
  | some j => if before.cascade.awaiting.map (·.path) = some j.path then s else s.interruptAll 23
  | none => s

/-- A record about a member: its path stands in PATH. -/
def State.recordMember (s : State) (code detail : Nat) (path : Word) : State :=
  s.recordKind 0 code detail ((path &&& ~~~0x7FFF#36) ||| 0x1000#36)

/-- A status a completion may carry (R16, Status code ranges table): what the chapters assign to completions,
and what a Verb may report (R261). -/
def completionStatus (n : Nat) : Bool :=
  n ≤ 0x10 || (0x18 ≤ n && n ≤ 0x25) || (0x40 ≤ n && n ≤ 0xDF) || n == 0xE0 || n == 0xEA || n == 0xF8

/-! ### Link failure, loss and return (R514 to R518, R536, R537) -/

/-- A link that no longer runs holds no traffic and no keys (Link states table). -/
def BatonPort.stopTraffic (q : BatonPort) : BatonPort :=
  { q with unacked := [], waiting := [], txKey := [], rxKey := [], sent := 0, keyEpoch := 0, quiet := 0, mid := [] }

/-- A port enters FAILED (R544, Cascade status codes E6h). -/
def State.failPort (s : State) (p cause : Nat) : State :=
  ((s.modPort p fun q => { q.stopTraffic with
    state := .failed, cause := cause, fails := satInc q.fails 255 }).record 0xE6 (p + 16 * cause)).interruptAll 23

/-- An errand forwarded to a lost device completes with HOLDING_ABSENT; it answers no LOAD or UNLOAD any more
(R293, R537). -/
def State.loseErrands (s : State) (num : Nat) : State :=
  let path := (s.hcEntry num).path
  s.steward.errands.foldl (fun t kv => match kv.2.phase with
    | .forwarded _ d => if d = num then t.setErrand kv.1 { kv.2 with
        phase := .ending none, status := 0xE0, result := 0, detail := BitVec.ofNat 32 num, execPath := s.devicePath } else t
    | _ => if kv.2.awaits.any fun p => pathDevice p == pathDevice path then t.memberAnswered kv.1 kv.2 path 0xE0 num else t) s

/-- A lost device's share reads ABSENT, and a checkpoint goes on without it (R331, R337). -/
def State.loseShare (s : State) (path : Word) : State :=
  match s.shareIndex path with
  | some i =>
    let t := if s.store.state = .closed then s.modStore fun t => t.setShare i .absent else s.shareReports i .absent
    t.modStore fun t => { t with
      ckOwners := t.ckOwners.filter fun w => pathDevice w != pathDevice path
      ckMembers := t.ckMembers.filter fun w => pathDevice w != pathDevice path }
  | none => s

/-- A remote access ends: STATUS, the word read, source 23 (R543, R544). -/
def State.endRemote (s : State) (status : Nat) (v : Word) : State :=
  (s.modCascade fun c => { c with
    rop := none, rstatus := BitVec.ofNat 8 status
    rdata := if c.rop = some 1 ∧ status = 0 then v else c.rdata }).interruptAll 23

/-- A remote access to a device that is lost ends with HOLDING_ABSENT (R543). -/
def State.loseRemote (s : State) (path : Word) : State :=
  if s.cascade.rop.isSome && pathDevice s.cascade.rpath == pathDevice path then s.endRemote 0xE0 0 else s

/-- One lost device: nothing it sent is carried out any more (R537, R538). -/
def State.loseDevice (s : State) (n : Nat) (e : HcEntry) : State :=
  let s := s.setEntry n { e with state := .absent, code := 0xE7, wait := false, token := false, twoEpochs := false, left := 0 }
  let s := s.modCascade fun c => { c with held := c.held.filter fun x => pathDevice x.device != pathDevice e.path }
  let s := s.modSteward fun w => { w with almanacs := w.almanacs.map fun kv =>
    (kv.1, { kv.2 with devices := kv.2.devices.filter fun p => pathDevice p != pathDevice e.path }) }
  (((s.loseErrands n).loseShare e.path).loseRemote e.path).recordMember 0xE7 e.seq e.path

/-- The master loses the device at a path and every device beyond it (R293, R537). -/
def State.memberLost (s : State) (path : Word) : State :=
  let lost := s.cascade.entries.filter fun kv =>
    (decide (kv.2.state = .present) || decide (kv.2.state = .joining)) && deviceUnder kv.2.path path
  if lost.isEmpty then s
  else
    let t := s.modCascade fun c => { c with joins := c.joins.filter fun j => !deviceUnder j.path path }
    let t := lost.foldl (fun u kv => u.loseDevice kv.1 kv.2) t
    let hit (c : Contract) : Bool := lost.any fun kv =>
      if pathLevel c.target = 0 then deviceUnder kv.2.path c.target else pathDevice c.target == pathDevice kv.2.path
    (((t.breakContracts 5 fun _ c => hit c).hostEvent 4).interruptAll 23).announceHead s

/-- An errand of a member that has lost its master stops and sends no COMPLETION; an internal errand of its own
completes with ERRAND_STOPPED, DETAIL 0 (R260, R536; log 116). -/
def State.abandonErrand (s : State) (e : Nat) : State :=
  match s.errand? e with
  | none => s
  | some x => match x.phase with
    | .placed _ => (s.modErrand e fun z => { z with dropped := true }).stopErrand e 0x10 0
    | .ending _ => s.modErrand e fun z => { z with dropped := true }
    | _ => if x.src = .baton then s.forgetErrand e
      else s.setErrand e { x with phase := .ending none, status := 0x10, execPath := s.devicePath }

/-- The group key is destroyed (R536). -/
def State.dropGroupKey (s : State) : State :=
  let s := match s.vault.lookup s.cascade.gkey with
    | some (i, _) => s.modVault fun v => v.emptySlot i
    | none => s
  s.modCascade fun c => { c with gkey := 0, gkeyMade := false }

/-- A member without its upstream link: errands, frames, keys, JOINED (R536); a checkpoint whose record it has not
programmed is dropped (R337). -/
def State.upstreamLost (s : State) : State :=
  let s := s.steward.errands.foldl (fun t kv => t.abandonErrand kv.1) s
  let s := s.modStore fun t => { t with frames := [], nodes := [], queue := [], pins := [] }
  let s := if s.store.unacked then s.modStore Store.dropCheckpoint else s
  s.dropGroupKey.modCascade fun c => { c with
    joined := false, joinDone := false, joinSecret := [], tlock := false, reported := [], rwait := none
    ports := c.ports.map fun kv => (kv.1, kv.2.stopTraffic) }

/-- The link of a port is gone: loss at a member's upstream port, or of the device below (R536, R537). -/
def State.linkGone (s : State) (p : Nat) : State :=
  if !s.cascade.master && p == 0 then s.upstreamLost
  else if s.cascade.master then s.memberLost (s.childPath p)
  else s.sendControl 0 [5, (s.childPath p).toNat] []

/-- A link fails: the port, then what its loss brings. -/
def State.failLink (s : State) (p cause : Nat) : State := (s.failPort p cause).linkGone p

/-! ### Receiving a flit (R512 to R516) -/

/-- How many of the oldest unacknowledged flits an ACK covers. -/
def ackedCount (l : List SentFlit) (ack : Nat) : Nat :=
  match l.findIdx? fun x => x.flit.seq == ack with
  | some i => i + 1
  | none => 0

/-- An ACK frees the flits it covers, and waiting ones go out (R514). -/
def State.takeAck (s : State) (p : Nat) (ack : BitVec 10) : State :=
  (s.modPort p fun q => { q with unacked := q.unacked.drop (ackedCount q.unacked ack.toNat) }).pumpPort p

/-- The meaning of a message that a port has brought: what it relays queues as that port's (R519). -/
def relayed (p : Nat) (k : State → Res) (s : State) : Res :=
  andThen (k (s.modCascade fun c => { c with relaying := p })) fun t =>
    .next (t.modCascade fun c => { c with relaying := 8 })

/-- The next flit in order has been taken: its ACK is due with the next flit sent (R514). -/
def State.countFlit (s : State) (p : Nat) : State := s.modPort p fun r => { r with rxSeq := (r.rxSeq + 1) % 1024 }

/-- A flit arrives: CRC, tag, ACK and order, then its message with the last flit of it; an OPEN link carries only
IDLE and the CONTROL flits of JOIN (R514, R515, R518, Flit header table). -/
def receiveOn (join : Bool) (p : Nat) (f : FlitHead) (idle : Bool) (k : State → Res) (s : State) : Res :=
  let q := s.port p
  let keyed := decide (q.state = .keyed)
  if !(keyed || decide (q.state = .opened)) || !f.crcOk then s.same
  else if keyed && !f.tagOk then .next ((s.failLink p 3).reportEvent 27)
  else
    let t := s.takeAck p f.ack
    if idle || !(keyed || join) || f.seq.toNat != q.rxSeq then .next t
    else
      let u := t.countFlit p
      if f.more then .next u else relayed p k u

/-- A flit of a message that only a KEYED link carries, or IDLE. -/
def receiveFlit (p : Nat) (f : FlitHead) (idle : Bool) (k : State → Res) (s : State) : Res := receiveOn false p f idle k s

/-- IDLE (R516). -/
def execIdle (port : Fin 8) (f : FlitHead) (s : State) : Res := receiveFlit port f true State.same s

/-- The errand a master's host tag names among those forwarded (R52). -/
def State.forwardedBy (s : State) (htag : Nat) : Option (Nat × Errand) :=
  s.steward.errands.find? fun kv => kv.1 % 65536 == htag && (match kv.2.phase with
    | .forwarded _ _ => true
    | _ => false)

/-- A stop reaches the device that runs the errand, or goes on downward (R532). -/
def State.stopForwarded (s : State) (htag : Nat) : State :=
  match s.steward.errands.find? fun kv => decide (kv.2.src = .baton) && decide (kv.2.batonTag = some htag) with
  | some (e, _) => s.abandonErrand e
  | none => s.sendDown 1 [3, htag] []

/-- This device's capacity report: its path, governor, cores in service, powered lanes, slices by mode
and free frames (R533). -/
def State.capacityReport (s : State) : List Nat :=
  let sl := (List.range 16).filter s.slicePowered
  [4, s.devicePath.toNat, govNat s.power.gov, ((List.range 128).filter s.inService).length,
    ((List.range 16).filter s.lanePowered).length, (sl.filter fun i => (s.slice i).seqMode).length,
    (sl.filter fun i => !(s.slice i).seqMode).length, 16384 - s.store.frames.length - s.store.under]

/-- The group key enters the Vault, at the master GENERATED_INSIDE, at a member IMPORTED (R525). -/
def State.installGroupKey (s : State) (octets : List Byte) (imported : Bool) : State :=
  match s.newSlot false with
  | some i =>
    let t := s.fillSlot i { attr := attrWord 0x12 4 1 false imported false false, material := octets }
    t.modCascade fun c => { c with gkey := wd (t.slotHandle i), gkeyMade := true }
  | none => s.modCascade fun c => { c with gkeyMade := true }

/-- The key under which step 6 wraps the group key: derived with label GKEY from the session's export master
secret (R525; log 108). -/
def gkeyKek (secret : List Byte) : List Byte :=
  kdf (aesCmac (List.replicate 32 0#8) secret) [0x47#8, 0x4B#8, 0x45#8, 0x59#8] [] 256

/-- Step 6 and 7 of JOIN at the member: path, number, the master's Tally plus the measured one-way delay, group key,
then its report (R525, R526, R533, R534; log 117). -/
def State.memberJoins (s : State) (path : Word) (devnum tally : Nat) (wrapped : List Byte) : State :=
  let s := (s.modCascade fun c => { c with
    path := path, devnum := devnum, joined := true, joinDone := false, tlock := true }).modLink fun l =>
    { l with tally := tally + Config.linkDelay path, slew := 0, slewPhase := 0 }
  let s := match kwpOpen (gkeyKek s.cascade.joinSecret) wrapped with
    | some key => s.installGroupKey key true
    | none => s
  ((s.modCascade fun c => { c with reported := s.capacityReport }).sendControl 0 s.capacityReport []).tellToken

/-- Step 8 of JOIN: every loaded Almanac goes to the member in index order (JOIN ladder). -/
def State.sendAlmanacs (s : State) (path : Word) : State :=
  s.steward.almanacs.foldl (fun t kv => t.sendAlmanac kv.1 kv.2 path) s

/-- The contracts a member's lost cores break: those of a CORE or HAMLET target on it. The report counts cores and
names none, so which target lost one is a free choice while cores are left (Contract causes table, 9; log 98). -/
def State.breakForMember (s : State) (path : Word) (cores : Nat) : State :=
  s.steward.contracts.foldl (fun t kv =>
    let k := kv.2
    if k.bound && (pathLevel k.target == 2 || pathLevel k.target == 3) && pathDevice k.target == pathDevice path then
      if cores = 0 then t.moveContract kv.1 .broken 9
      else if t.freeValue.1 % 2 = 1 then t.freeValue.2.moveContract kv.1 .broken 9
      else t.freeValue.2
    else t) s

/-- What a PRESENT member's report changes for contracts: a trip breaks (CAUSE 8), lost cores break (CAUSE 9),
Limp and returned capacity re-test (R288, R290, R291). -/
def State.capacityChanged (s : State) (path : Word) (old new : HcEntry) : State :=
  let s := if new.gov = 3 ∧ old.gov ≠ 3 then s.breakContracts 8 fun _ c =>
      (s.targetDevices c.target).any fun d => pathDevice d.path == pathDevice path
    else s
  let s := if new.cores < old.cores then s.breakForMember path new.cores else s
  if new.gov = 2 ∧ old.gov ≠ 2 then s.retest 1 false
  else if (old.gov = 2 ∨ old.gov = 3) ∧ new.gov ≠ old.gov ∨ old.cores < new.cores then s.retest 4 false
  else s

/-- The master takes a capacity report (R533); that of a joining device is step 7 of its JOIN. -/
def State.takeCapacity (s : State) (path : Word) (gov cores lanes seqSlices macSlices frames : Nat) : State :=
  match s.numberAt path with
  | some n =>
    let old := s.hcEntry n
    let new := { old with
      gov := gov, cores := cores, lanes := lanes, seqSlices := seqSlices, macSlices := macSlices, frames := frames }
    let t := s.modCascade fun c => { c with entries := aput c.entries n new }
    if old.state = .present then t.capacityChanged path old new
    else if t.cascade.joins.any fun j => j.path == path && j.step == 3 then
      (t.modCascade fun c => { c with
        joins := c.joins.map fun j =>
          if j.path = path then { j with step := 4, unanswered := t.steward.almanacs.map (·.1) } else j }).sendAlmanacs path
    else t
  | none => s

/-- A joining member has answered for an Almanac of step 8 (R527). -/
def State.joinAnswers (s : State) (path : Word) (i : Nat) (ok : Bool) : State :=
  s.modCascade fun c => { c with
    joins := c.joins.map fun j =>
      if pathDevice j.path = pathDevice path then
        { j with unanswered := j.unanswered.filter (· ≠ i), failed := if ok then j.failed else j.failed.or (some i) }
      else j }

/-- A member's loader takes an Almanac the master sends, and answers; one that fails in step 8 of its JOIN ends
the JOIN, its link still KEYED (R255, R527, JOIN ladder step 8; log 96). -/
def State.memberLoads (s : State) (i : Nat) (octets : List Byte) : State :=
  let answer (t : State) (ok : Bool) : State :=
    (t.sendControl 0 [10, t.devicePath.toNat, i, b2n ok] []).modCascade fun c => { c with
      joined := c.joined && (ok || c.joinDone) }
  match s.checkOctets octets with
  | .error _ => answer s false
  | .ok (a, code, relocs) =>
    match s.noRoomHere s.devicePath code.length with
    | some _ => answer s false
    | none => answer (s.loadHere i s.devicePath a code relocs) true


/-- A refused link goes on as OPEN with CAUSE REFUSED (R524); only a link that is OPEN or KEYED does (R518;
log 117). -/
def State.closeRefused (s : State) (p : Nat) : State :=
  if (s.port p).state = .opened ∨ (s.port p).state = .keyed then
    s.modPort p fun q => { q.stopTraffic with state := .opened, cause := 6 }
  else s

/-- The port a refusal closes at this device; the refused device hears of it over the KEYED link first (R524). -/
def State.refuseLink (s : State) (path : Word) : State :=
  match s.childPort path with
  | some p => (s.sendControl p [22, path.toNat] []).closeRefused p
  | none => s

/-- A refusal goes to the device's parent, this one or another (R524). -/
def State.tellRefused (s : State) (path : Word) : State :=
  if (s.childPort path).isSome then s.refuseLink path else s.sendControl (s.portTo path) [22, path.toNat] []

/-- The engine or Warden firmware refuses a JOIN (R522 to R524). -/
def State.refuseJoin (s : State) (n : Nat) (path : Word) (code detail : Nat) : State :=
  let t := (s.modCascade fun c => { c with joins := c.joins.filter fun j => j.path != path }).tellRefused path
  let t := t.setEntry n { t.hcEntry n with state := .refused, code := BitVec.ofNat 8 code }
  (t.recordMember code detail path).announceHead s

/-- Entries PRESENT, JOINING or ABSENT, the master's among them (R511). -/
def State.liveEntries (s : State) : Nat :=
  1 + (s.cascade.entries.filter fun kv => decide (kv.2.state = .present) || decide (kv.2.state = .joining)
    || decide (kv.2.state = .absent)).length

/-- An offer reaches the engine: its path is a DEVICE path (R526), and its link is OPEN and not refused, or KEYED
after JOIN_ALMANAC, or lies behind a PRESENT parent, which relays no offer of a refused link (R524, R527). -/
def State.offerHeard (s : State) (o : JoinOffer) : Bool :=
  let e := (s.numberAt o.path).map s.hcEntry
  let live := match e with
    | some x => decide (x.state = .present) || decide (x.state = .joining)
    | none => false
  let again := match e with
    | some x => decide (x.state = .refused) && x.code == 0xE5
    | none => false
  let parent := s.cascade.entries.any fun kv => decide (kv.2.state = .present) && hopsOf kv.2.path + 1 == hopsOf o.path
    && samePorts kv.2.path o.path (hopsOf kv.2.path)
  s.cascade.master && s.cascade.joinEn && decide (s.cascade.joins.length < 16) && decide (0 < hopsOf o.path)
    && pathOk o.path && pathLevel o.path == 1 && !live
    && (match s.childPort o.path with
      | some p =>
        let q := s.port p
        p != 0 && ((decide (q.state = .opened) && q.cause != 6 && q.cause != 4) || (decide (q.state = .keyed) && again))
      | none => parent)

/-- JOIN_OFFER: an entry JOINING at the path's number, or JOIN_LIMIT, which without a number has no entry to stand
in (R511, R521, R526, R539; log 117). -/
def State.takeOffer (s : State) (o : JoinOffer) : State :=
  match (s.numberAt o.path).orElse fun _ => s.freeNumber with
  | none => (s.tellRefused o.path).recordMember 0xE4 0xFFFFFFFF o.path
  | some n =>
    let old := s.hcEntry n
    let e : HcEntry := { old with
      path := o.path, serial := o.serial, seq := if old.serial = o.serial then old.seq else 0
      newDevice := old.newDevice || (decide (old.state ≠ .empty) && old.serial != o.serial) }
    let was := decide (old.state = .absent)
    let t := s.modCascade fun c => { c with entries := aput c.entries n e }
    if 6 < hopsOf o.path ∨ 4096 ≤ s.liveEntries + b2n (!was) then t.refuseJoin n o.path 0xE4 n
    else (t.setEntry n { e with state := .joining }).modCascade fun c => { c with
      joins := c.joins ++ [{ path := o.path, serial := o.serial, devnum := n }] }

/-- An offer that reaches the engine is taken; others are ignored. -/
def State.hearOffer (s : State) (o : JoinOffer) : State := if s.offerHeard o then s.takeOffer o else s

/-- A forwarded errand runs best-effort while its contract is BROKEN, on this device or below (R289). -/
def State.rankForwarded (s : State) (htag : Nat) (demoted : Bool) : State :=
  match s.steward.errands.find? fun kv => decide (kv.2.src = .baton) && decide (kv.2.batonTag = some htag) with
  | some (e, _) => (s.modErrand e fun x => { x with demoted := demoted }).settle
  | none => s.sendDown 1 [24, htag, b2n demoted] []

/-- A CONTROL message that travels down from the master, at a member (R519, R525, R532, R535). -/
def State.controlDown (s : State) (m : ControlMsg) : State :=
  match m with
  | .prepare seq final =>
    (if s.store.live && decide (s.store.ckPhase = .idle) then (s.modStore fun t => t.prepare seq final).tellToken else s).sendDown
      1 [0, seq, b2n final] []
  | .commit seq =>
    (if s.store.ckPhase = .ready ∧ s.store.ckSeq = seq then s.commitHere else s).sendDown 1 [2, seq] []
  | .stop htag => s.stopForwarded htag.toNat
  | .tolerance ns =>
    (s.modCascade fun c => { c with tolerance := some (ns - 400 * hopsOf c.path) }).sendDown 1 [6, ns] []
  | .joined path devnum tally key =>
    if s.cascade.joined then
      s.sendControl (s.portTo path) [7, path.toNat, devnum.toNat, tally] key
    else s.memberJoins path devnum.toNat tally key
  | .almanac path i image =>
    if s.ownDevice path then s.memberLoads i.toNat image
    else s.sendControl (s.portTo path) [9, path.toNat, i.toNat] image
  | .unload i => (s.dropAlmanac i.toNat).sendDown 1 [11, i.toNat] []
  | .store target new base pages shares =>
    let map := shares.map fun x => (x.1.toNat, ({
      valid := true, first := x.2.1.toNat, count := x.2.2.1.toNat, path := x.2.2.2 } : Share))
    let content := ({ s with store := { s.store with base := base, pages := pages, map := map } } : State).openMessage target new
    (if target = 0 ∨ s.ownDevice target then s.memberOpens new base pages map else s).sendDown 1 content []
  | .closing => (if s.store.state = .opened then s.modStore Store.startClosing else s).sendDown 1 [13] []
  | .rotate => s.rotateHere.sendDown 1 [14] []
  | .abandon seq =>
    (if s.store.ckSeq = seq ∧ s.store.unacked then s.modStore Store.abandonCheckpoint else s).sendDown 1 [15, seq] []
  | .dropped path seq =>
    (if s.store.ckSeq = seq ∧ s.store.unacked then s.dropPart else s).sendDown 1 [26, path.toNat, seq] []
  | .memlat ns => ((s.modSteward fun w => { w with ctMemlat := ns.toNat }).modCascade fun c => { c with
      joinDone := c.joined }).sendDown 1 [16, ns.toNat] []
  | .refused path => if s.cascade.joined then s.tellRefused path else s.closeRefused 0
  | .rank htag demoted => s.rankForwarded htag.toNat demoted
  | _ => s

/-- A CONTROL message that travels up, at a member: it goes on toward the master (R519). -/
def State.controlRelay (s : State) (m : ControlMsg) : State :=
  match m with
  | .ready path => s.sendControl 0 [1, path.toNat] []
  | .capacity path gov cores lanes a b frames => s.sendControl 0 [4, path.toNat, gov.toNat, cores, lanes, a, b, frames] []
  | .loss path => s.sendControl 0 [5, path.toNat] []
  | .loaded path i ok => s.sendControl 0 [10, path.toNat, i.toNat, b2n ok] []
  | .share path (.member st failed rolled seq) => s.sendControl 0 [17, path.toNat, st, b2n failed, b2n rolled, seq.toNat] []
  | .epochs path two left => s.sendControl 0 [18, path.toNat, b2n two, left] []
  | .token path => s.sendControl 0 [19, path.toNat] []
  | .late path => s.sendControl 0 [20, path.toNat] []
  | .offer path serial => s.sendControl 0 [21, path.toNat, serial.toNat] []
  | .started htag => s.sendControl 0 [23, htag.toNat] []
  | .storeCode path c => s.sendControl 0 [25, path.toNat, c.toNat] []
  | .dropped path seq => s.sendControl 0 [26, path.toNat, seq] []
  | .committed path seq => s.sendControl 0 [28, path.toNat, seq] []
  | _ => s

/-- Change the route entry of a device path. -/
def State.modEntryAt (s : State) (path : Word) (f : HcEntry → HcEntry) : State :=
  match s.numberAt path with
  | some n => s.modCascade fun c => { c with entries := aput c.entries n (f (s.hcEntry n)) }
  | none => s

/-- A CONTROL message that has reached the master (R533, R537, Checkpoint ladder step 3). -/
def State.controlAtMaster (s : State) (m : ControlMsg) : State :=
  match m with
  | .ready path => s.modStore fun t => { t with ckOwners := t.ckOwners.filter fun w => pathDevice w != pathDevice path }
  | .capacity path gov cores lanes a b frames => s.takeCapacity path gov.toNat cores lanes a b frames
  | .loss path => s.memberLost path
  | .loaded path i ok => (s.memberLoaded path i.toNat ok).joinAnswers path i.toNat ok
  | .share path report => match s.shareIndex path, report with
    | some i, .member _ _ _ _ => s.openComplete i report
    | _, _ => s
  | .epochs path two left => s.modEntryAt path fun e => { e with twoEpochs := two, left := left }
  | .token path => s.modEntryAt path fun e => { e with token := true }
  | .late path => if s.memberPresent path then s.memlatOver path else s
  | .offer path serial => s.hearOffer { path := path, serial := serial }
  | .started htag => match s.forwardedBy htag.toNat with
    | some (e, _) => s.modErrand e fun x => { x with running := true }
    | none => s
  | .storeCode path c => if s.memberPresent path then s.modStore fun t => { t with code := c } else s
  | .committed path seq => if s.store.ckSeq = seq then s.memberCommitted path seq else s
  | .dropped path seq => if s.memberPresent path ∧ s.store.ckSeq = seq then s.restartCheckpoint else s
  | _ => s

/-- The CONTROL flits of JOIN that an OPEN link carries (Link states table). -/
def ofJoin (m : ControlMsg) : Bool :=
  match m with
  | .offer _ _ => true
  | _ => false

/-- New keys of 32 octets from the session's key schedule: their octets are free (R513, R517; log 100). -/
def State.newRxKey (s : State) (p : Nat) : State :=
  let k := s.freeOctets 32
  k.2.modPort p fun q => { q with rxKey := k.1 }

/-- CONTROL (R519). -/
def execControl (port : Fin 8) (f : FlitHead) (m : ControlMsg) (s : State) : Res :=
  receiveOn (ofJoin m) port f false (fun u =>
    let t := u.owesWake
    .next (
      if m = .keyUpdate then t.newRxKey port
      else if t.cascade.master then t.controlAtMaster m
      else if port.val = 0 then t.controlDown m else t.controlRelay m)) s

/-! ### Errands over Baton (R519, R528, R529, R538) -/

/-- A member keeps an errand whose path ends at it: refused by the checks it makes, else waiting or, a LOAD or
UNLOAD, served by its Steward (R45, R52, R528, R729). -/
def State.keepErrand (s : State) (m : ErrandMsg) : State :=
  let x : Errand := {
    src := .baton, raw := padTo 64 (m.descriptor.take 64), deadline := m.deadline, sq := m.sq.toNat
    arrival := s.link.tally, batonTag := some m.htag.toNat, execPath := s.devicePath }
  match s.memberRefusal x.raw with
  | some (st, d) => s.addErrand (x.refused st d s.devicePath)
  | none =>
    let x := { x with phase := if descKind x.raw = 0 then .waiting else .service }
    ((s.fetchUnload x).addErrand x).giveTags

/-- An errand goes on through port H(h + 1), or comes back as HOLDING_ABSENT (R528). -/
def State.forwardErrand (s : State) (m : ErrandMsg) (cls : Nat) : State :=
  let p := s.portTo m.target
  if (s.port p).state = .keyed then
    s.sendFlit p 2 cls (errandContent m.target m.htag.toNat m.deadline m.sq.toNat) m.descriptor
  else s.sendFlit 0 3 cls [m.target.toNat, m.htag.toNat, 0xE0, 0, s.devicePath.toNat, 0xFFFFFFFF] []

/-- ERRAND (R528). -/
def execErrand (port : Fin 8) (f : FlitHead) (m : ErrandMsg) (s : State) : Res :=
  receiveFlit port f false (fun u =>
    let t := u.owesWake
    .next (
      if t.cascade.master || port.val != 0 then t
      else if hopsOf m.target = hopsOf t.devicePath then t.keepErrand m
      else t.forwardErrand m f.cls)) s

/-- A SUBTREE errand that its member could not start, out of cores or tripped, while another device can take it
(R36, R566). -/
def State.movesOn (s : State) (x : Errand) (m : CompletionMsg) : Bool :=
  !x.running && (decide (m.status = 0xE0) || decide (m.status = 0xEA)) && pathLevel (descTarget x.raw) == 0
    && (match s.chooseDevice x.raw (descTarget x.raw) with
      | .own => true
      | .member n _ => pathDevice (s.hcEntry n).path != pathDevice m.device
      | .nowhere => false)

/-- The LOAD or UNLOAD that awaits a member's answer (R52). -/
def State.awaitedBy (s : State) (htag : Nat) (device : Word) : Option (Nat × Errand) :=
  s.steward.errands.find? fun kv => kv.1 % 65536 == htag && kv.2.awaits.any fun p => pathDevice p == pathDevice device

/-- The master takes a COMPLETION of a device that is not ABSENT (R529, R538); an intermediate
device's HOLDING_ABSENT names the device by its number. A status that no chapter assigns to completions is
replaced as R261 gives (R16; log 99). -/
def State.takeCompletion (s : State) (m : CompletionMsg) : State :=
  match s.forwardedBy m.htag.toNat with
  | some (e, x) =>
    if s.movesOn x m then s.launch e
    else
      let detail := if m.status = 0xE0 ∧ m.detail = 0xFFFFFFFF#32 then BitVec.ofNat 32 (s.absentDetail m.device) else m.detail
      let ok := completionStatus m.status.toNat
      s.setErrand e { x with
        phase := .ending none, status := if ok then m.status else 0x0B, result := m.result, execPath := m.execPath
        detail := if ok then detail else m.status.setWidth 32 }
  | none => match s.awaitedBy m.htag.toNat m.device with
    | some (e, x) => s.memberAnswered e x m.device m.status.toNat m.detail.toNat
    | none => s


/-! ### The tunnel (R529, R530, R538) -/

/-- A run of host memory lies inside another. -/
def runInside (a n base len : Nat) : Bool := decide (base ≤ a) && decide (a + n ≤ base + len)

/-- The run lies in the share of a member or its tree region (R530). -/
def State.inMemberShare (s : State) (path : Word) (a n : Nat) : Bool :=
  match s.store.shares.find? fun kv => pathDevice kv.2.path == pathDevice path with
  | some (i, sh) => runInside a n (s.store.pageAddress sh.first).toNat (sh.count * 4096)
      || runInside a n (s.store.nodeAddress i 1 0).toNat (regionPages sh.count * 4096)
  | none => false

/-- The run lies in a buffer of an errand in flight on a member, with the DIR it needs (R530). -/
def State.inMemberBuffer (s : State) (path : Word) (a n : Nat) (write : Bool) : Bool :=
  match s.numberAt path with
  | none => false
  | some num => s.steward.errands.any fun kv => ((match kv.2.phase with
      | .forwarded _ d => d == num
      | _ => false) || kv.2.awaits.any fun p => pathDevice p == pathDevice path) && (List.range 3).any fun i =>
        bitOf (bufDir kv.2.raw i) (b2n write) && runInside a n (bufAddr kv.2.raw i) (bufLen kv.2.raw i)

/-- The master may issue a member's access (R530). -/
def State.tunnelOk (s : State) (m : TunnelMsg) (n : Nat) (write : Bool) : Bool :=
  s.inMemberShare m.device m.address.toNat n || s.inMemberBuffer m.device m.address.toNat n write

/-- A refused tunnel access leaves a Parish record (R530). -/
def State.tunnelRefused (s : State) (m : TunnelMsg) : State :=
  s.recordMember 0xE1 ((s.numberAt m.device).getD 0xFFFFFFFF) m.device

/-- A TDATA message toward a member, in the class of the read (R519). -/
def State.sendTdata (s : State) (cls : Nat) (m : TunnelMsg) (octets : Option (List Byte)) : State :=
  s.sendFlit (s.portTo m.device) 5 cls [m.device.toNat, m.htag.toNat, m.address.toNat, b2n octets.isSome] (octets.getD [])

/-- The master checks a member's read, issues it and sends the answer (R530). -/
def State.serveRead (s : State) (cls : Fin 3) (m : TunnelMsg) : State :=
  if s.tunnelOk m m.length false then
    ((if m.data.isNone then s.poisonedRead else s).emit (.hostRead m.address m.length)).sendTdata cls m m.data
  else (s.tunnelRefused m).sendTdata cls m none

/-- The master checks a member's write and issues it (R530). -/
def State.serveWrite (s : State) (m : TunnelMsg) : State :=
  let octets := m.data.getD []
  if s.tunnelOk m octets.length true then s.emit (.hostWrite m.address octets) else s.tunnelRefused m

/-- What a member sent is carried out at the master. -/
def State.serveFlit (s : State) (x : HeldFlit) : State :=
  match x with
  | .read cls m => s.serveRead cls m
  | .write m => s.serveWrite m
  | .completion m => s.takeCompletion m

/-- With host memory in reach again, what members sent meanwhile is carried out in its order (R217, R529). -/
def State.serveHeld (s : State) : State :=
  if s.link.dmaOk then s.cascade.held.foldl State.serveFlit (s.modCascade fun c => { c with held := [] }) else s

/-- The master takes an access or a completion of a PRESENT member: at once, or, without host memory, behind what
that member sent before; a completion keeps its place after its writes (R217, R529, R538; log 117). -/
def State.memberSends (s : State) (x : HeldFlit) : State :=
  if !s.memberPresent x.device then s
  else
    let t := s.serveHeld
    if t.link.dmaOk then t.serveFlit x else t.modCascade fun c => { c with held := c.held ++ [x] }

/-- COMPLETION (R529). -/
def execCompletion (port : Fin 8) (f : FlitHead) (m : CompletionMsg) (s : State) : Res :=
  receiveFlit port f false (fun t => .next (
    if port.val = 0 then t
    else if t.cascade.master then t.memberSends (.completion m)
    else t.sendFlit 0 3 f.cls
      [m.device.toNat, m.htag.toNat, m.status.toNat, m.result.toNat, m.execPath.toNat, m.detail.toNat] [])) s

/-- TREAD: relayed by a member; checked, issued and answered by the master (R530). -/
def execTread (port : Fin 8) (f : FlitHead) (m : TunnelMsg) (s : State) : Res :=
  receiveFlit port f false (fun t => .next (
    if port.val = 0 then t
    else if !t.cascade.master then t.sendFlit 0 4 f.cls [m.device.toNat, m.htag.toNat, m.address.toNat, m.length] []
    else t.memberSends (.read f.cls m))) s

/-- TDATA: relayed toward its member. What a member reads of host memory stands in the command that
uses it (log 40). -/
def execTdata (port : Fin 8) (f : FlitHead) (m : TunnelMsg) (s : State) : Res :=
  receiveFlit port f false (fun t => .next (
    if t.cascade.master || port.val != 0 || t.ownDevice m.device then t
    else t.sendTdata f.cls m m.data)) s

/-- TWRITE: relayed by a member; checked and issued in arrival order by the master (R529, R530, R538). -/
def execTwrite (port : Fin 8) (f : FlitHead) (m : TunnelMsg) (s : State) : Res :=
  let octets := m.data.getD []
  receiveFlit port f false (fun t => .next (
    if port.val = 0 then t
    else if !t.cascade.master then
      t.sendFlit 0 6 f.cls [m.device.toNat, m.htag.toNat, m.address.toNat] octets
    else t.memberSends (.write m))) s

/-! ### Time (R534) -/

/-- The member slews toward its parent, and steps forward only with a step of the master; TLOCK while within
100 ns. -/
def State.followParent (s : State) (parentTally : Nat) (stepped : Bool) : State :=
  let d : Int := (s.link.tally : Int) - parentTally
  let step := stepped && decide (d < 0)
  (s.modLink fun l => { l with
    tally := if step then parentTally else l.tally
    slew := if step then 0 else d
    slewPhase := 0 }).modCascade fun c => { c with
      tlock := step || decide (d.natAbs ≤ 10), stepOwed := c.stepOwed || step }

/-- TIME. -/
def execTime (port : Fin 8) (f : FlitHead) (parentTally : Nat) (stepped : Bool) (s : State) : Res :=
  receiveFlit port f false (fun t => .next (
    if t.cascade.master || port.val != 0 || !t.cascade.joined then t else t.followParent parentTally stepped)) s

/-- TIME_INTERVAL: a TIME flit on every KEYED downstream port, saying whether the Tally has stepped. -/
def execTimeInterval (s : State) : Res :=
  .next ((s.sendDown 8 [s.link.tally, b2n s.cascade.stepOwed] []).modCascade fun c => { c with stepOwed := false })

/-! ### Link states (R509, R510, R514 to R518) -/

/-- RETRANSMIT_TIMEOUT: RETRY_LIMIT once a flit went out 16 times, else all go out again (R514). -/
def execRetransmitTimeout (port : Fin 8) (s : State) : Res :=
  let q := s.port port
  if ¬(q.state = .keyed ∨ q.state = .opened) ∨ q.unacked = [] then s.same
  else if q.unacked.any fun x => decide (16 ≤ x.times) then .next (s.failLink port 2)
  else
    let t := s.modPort port fun r => { r with
      retries := min 4095 (r.retries + r.unacked.length), quiet := 0
      unacked := r.unacked.map fun x => { x with times := x.times + 1 } }
    .next (q.unacked.foldl (fun u x => u.emit (.flit port x.flit)) t)

/-- BATON_SILENCE: 1 ms without a valid flit on a downstream port (R516). -/
def execBatonSilence (port : Fin 8) (s : State) : Res :=
  let st := (s.port port).state
  if port.val ≠ 0 ∧ (st = .keyed ∨ st = .opened) then .next (s.failLink port 1) else s.same

/-- UPSTREAM_LOSS: 0.8 ms without a valid flit at a member's upstream port, or that link failed (R536). -/
def execUpstreamLoss (s : State) : Res :=
  let st := (s.port 0).state
  if s.cascade.master then s.same
  else if st = .keyed ∨ st = .opened then .next (s.failLink 0 1)
  else if st = .failed ∨ s.cascade.joined then .next s.upstreamLost
  else s.same

/-- A port trains: its training flits announce its number and its device's role (R510). -/
def State.train (s : State) (p : Nat) : State :=
  (s.modPort p fun q => { q with state := .training }).emit (.training p s.cascade.master)

/-- Domains 96 to 99 are off: Slumber entered by R550, and Dormant; a trip keeps the ports (R548, R565). -/
def State.portsDark (s : State) : Bool :=
  decide (s.power.state = .dormant) || (decide (s.power.state = .slumber) && decide (s.power.gov ≠ .trip))

/-- SIGNAL_DETECT (Link states table). -/
def execSignalDetect (port : Fin 8) (s : State) : Res :=
  if (s.port port).state = .down ∧ s.cascade.portEn.getLsbD port ∧ !s.portsDark then .next (s.train port) else s.same

/-- The link is correctly wired (R509): a downstream port to port 0 of a member. -/
def wiredRight (port peer : Nat) (peerMaster : Bool) : Bool :=
  if port = 0 then peer != 0 else peer == 0 && !peerMaster

/-- A member offers JOIN (JOIN ladder, step 1). -/
def State.offerJoin (s : State) : State :=
  let st := (s.port 0).state
  if s.cascade.master || !s.cascade.ready || s.cascade.joined || (s.port 0).cause == 4
      || !(decide (st = .opened) || decide (st = .keyed)) then s
  else s.enqueue 0 1 0 [8, Config.serial.toNat] []

/-- LINK_TRAINED: OPEN, and MISWIRED with a record where the role check finds it so (R509, R510). -/
def execLinkTrained (port : Fin 8) (peer : BitVec 3) (peerMaster : Bool) (s : State) : Res :=
  if (s.port port).state ≠ .training then s.same
  else
    let right := wiredRight port peer.toNat peerMaster
    let t := s.modPort port fun q => { q.stopTraffic with
      state := .opened, peer := peer.toNat, cause := if right then 0 else 4, txSeq := 0, rxSeq := 0 }
    .next (if right then (if port.val = 0 then t.offerJoin else t) else t.record 0xE9 port)

/-- TRAINING_TIMEOUT. -/
def execTrainingTimeout (port : Fin 8) (s : State) : Res :=
  if (s.port port).state = .training then .next (s.modPort port fun q => { q with state := .down }) else s.same

/-- FAILED_RETRAIN. -/
def execFailedRetrain (port : Fin 8) (s : State) : Res :=
  if (s.port port).state = .failed ∧ s.cascade.portEn.getLsbD port then .next (s.train port) else s.same

/-- A new key of the direction sent (R513, R517; log 100). -/
def State.newTxKey (s : State) (p : Nat) : State :=
  let k := s.freeOctets 32
  k.2.modPort p fun q => { q with txKey := k.1 }

/-- New link keys of both directions (R513). -/
def State.freshKeys (s : State) (p : Nat) : State := (s.newTxKey p).newRxKey p

/-- KEY_UPDATE: each 2^36 flits of the direction this end sends, the message under the old key and then a new one;
the peer does the same for the other direction (R517). -/
def execKeyUpdate (port : Fin 8) (s : State) : Res :=
  let q := s.port port
  if q.state = .keyed ∧ 2 ^ 36 * (q.keyEpoch + 1) ≤ q.sent then
    .next (((s.sendControl port [27] []).modPort port fun r => { r with keyEpoch := r.keyEpoch + 1 }).newTxKey port)
  else s.same

/-! ### JOIN (R521 to R527) -/


/-- JOIN_OFFER: the next flit of the link to a device directly below is its offer. The master's engine takes it, or
a PRESENT parent relays it unless the link has been refused; an offer from deeper comes to the master as its
parent's CONTROL message (R514, R521, R524). -/
def execJoinOffer (offer : JoinOffer) (s : State) : Res :=
  match s.childPort offer.path with
  | none => s.same
  | some p =>
    let q := s.port p
    if q.state ≠ .opened ∧ q.state ≠ .keyed then s.same
    else
      let t := s.countFlit p
      if s.cascade.master then .next (t.hearOffer offer)
      else if (q.state = .opened ∧ q.cause ≠ 4 ∧ q.cause ≠ 6) ∨ q.state = .keyed then
        .next (t.sendControl 0 [21, offer.path.toNat, offer.serial.toNat] [])
      else .next t

/-- The link toward a device becomes KEYED, with keys taken from the session; a miswired one stays OPEN (R510, JOIN
ladder, step 3). -/
def State.keyLink (s : State) (p : Nat) : State :=
  if (s.port p).state = .opened ∧ (s.port p).cause ≠ 4 then
    (s.modPort p fun q => { q.stopTraffic with state := .keyed, txSeq := 0, rxSeq := 0 }).freshKeys p
  else s

/-- Step 3 at the master: the engine's checks (R522), then the decision waits. -/
def State.authenticate (s : State) (j : Join) (x : JoinSession) : State :=
  if !x.signaturesOk || !x.chainsOk then s.refuseJoin j.devnum j.path 0xE2 j.devnum
  else if decide (0x11 ≤ x.lc.toNat) || x.mode != 1 then s.refuseJoin j.devnum j.path 0xE3 j.devnum
  else
    let t := match s.childPort j.path with
      | some p => s.keyLink p
      | none => s
    (t.modCascade fun c => { c with
      joins := c.joins.filter (fun k => k.path != j.path)
        ++ [{ j with lc := x.lc, meas := x.meas, secret := x.secret, step := 2 }] }).announceHead s

/-- JOIN_AUTHENTICATED: at the master its engine's checks; at a member its own link, or a child's, is
keyed (R518, R522). -/
def execJoinAuthenticated (path : Word) (session : JoinSession) (s : State) : Res :=
  if s.cascade.master then
    match s.cascade.joins.find? fun j => j.path == path && j.step == 1 with
    | some j => .next (s.authenticate j session)
    | none => s.same
  else if !session.signaturesOk || !session.chainsOk then s.same
  else if !s.cascade.joined then .next ((s.keyLink 0).modCascade fun c => { c with joinSecret := session.secret })
  else match s.childPort path with
    | some p => .next (s.keyLink p)
    | none => s.same

/-- The head JOIN is accepted: step 6 sends the group key, path, number and Tally (R523, R525, R526, R534). -/
def State.acceptJoin (s : State) : State :=
  match s.cascade.awaiting with
  | none => s
  | some j =>
    let key := match s.vault.lookup s.cascade.gkey with
      | some (_, k) => kwpSeal (gkeyKek j.secret) k.material
      | none => []
    let t := s.modCascade fun c => { c with joins := c.joins.map fun k => if k.path = j.path then { k with step := 3 } else k }
    (t.sendControl (t.portTo j.path) [7, j.path.toNat, j.devnum, t.link.tally] key).announceHead s

/-- The head JOIN is refused with JOIN_POLICY (R523). -/
def State.rejectJoin (s : State) : State :=
  match s.cascade.awaiting with
  | some j => s.refuseJoin j.devnum j.path 0xE3 j.devnum
  | none => s

/-- ACCEPT: CS_JQ_DEC with ACCEPT alone. -/
def execAccept (h : HandId) (s : State) : Res := regWrite h 0xD020 3 State.acceptJoin s
/-- REJECT: CS_JQ_DEC with REJECT alone. -/
def execReject (h : HandId) (s : State) : Res := regWrite h 0xD020 3 State.rejectJoin s
/-- JOIN_DECISION_TIMEOUT: 100 ms from step 4. -/
def execJoinDecisionTimeout (s : State) : Res :=
  if s.cascade.awaiting.isSome then .next s.rejectJoin else s.same

/-- Step 9: the entry is PRESENT, WAIT for an owner while the Store is OPEN; else the re-test (R540, R541). -/
def State.memberPresents (s : State) (j : Join) : State :=
  let owns := s.store.shares.any fun kv => pathDevice kv.2.path == pathDevice j.path
  let t := s.modCascade fun c => { c with joins := c.joins.filter fun k => k.path != j.path }
  let t := t.setEntry j.devnum { t.hcEntry j.devnum with
    state := .present, code := 0, wait := owns && decide (s.store.state = .opened), retestOwed := owns }

  let t := if s.store.state = .closed then t.modStore fun u => { u with
      map := u.map.map fun (kv : Nat × Share) =>
        if pathDevice kv.2.path = pathDevice j.path ∧ kv.2.state = .absent then (kv.1, { kv.2 with state := .closed }) else kv }
    else t
  let t := (t.sendControl (t.portTo j.path) [16, t.steward.ctMemlat] [] |>.hostEvent 4).recordMember 0xE8 j.devnum j.path
  if owns then t else t.retest 4 false

/-- Step 8 has ended as MEMBER_JOINED says: the capacity is reported, and every Almanac loaded or one has failed
(R527, JOIN ladder). -/
def Join.ends (j : Join) (failed : Option (BitVec 16)) : Bool :=
  j.step == 4 && decide (j.failed = failed.map (·.toNat)) && (j.unanswered.isEmpty || j.failed.isSome)

/-- MEMBER_JOINED: step 8 ended; a failed Almanac refuses, and the link stays KEYED (R527). -/
def execMemberJoined (path : Word) (almanacOk : Option (BitVec 16)) (s : State) : Res :=
  match s.cascade.joins.find? fun j => j.path == path && j.ends almanacOk with
  | none => s.same
  | some j => match almanacOk with
    | none => .next (s.memberPresents j)
    | some i =>
      let t := s.modCascade fun c => { c with joins := c.joins.filter fun k => k.path != path }
      let t := t.setEntry j.devnum { t.hcEntry j.devnum with state := .refused, code := 0xE5 }
      .next (t.recordMember 0xE5 i.toNat path)

/-! ### Cascade window and status (CS_CTRL, HC_REOPEN, HC_SEQ) -/

/-- Ports whose PORT_EN bit clears go DOWN with CAUSE DISABLED (Link states table), and what lay beyond is lost:
its errands complete (R22, R536, R537). -/
def State.disablePorts (s : State) (en : BitVec 8) : State :=
  (List.range 8).foldl (fun t p =>
    if t.cascade.portEn.getLsbD p && !en.getLsbD p then
      let was := (t.port p).state
      let u := t.modPort p fun q => { q.stopTraffic with state := .down, cause := 5 }
      if was = .keyed ∨ was = .opened then u.linkGone p else u
    else t) s

/-- A write of CS_CTRL: port enables, JOIN_EN at the master with the group key when first set, READY at a
member with its offer (R525, CS_CTRL). -/
def State.writeCsCtrl (s : State) (data : Word) : State :=
  let m := s.cascade.master
  let en : BitVec 8 := BitVec.ofNat 8 (wfield data 15 8) &&& (if m then 0xFE#8 else 0xFF#8)
  let s := s.disablePorts en
  let s := s.modCascade fun c => { c with
    portEn := en, joinEn := m && data.getLsbD 1, ready := !m && data.getLsbD 0 }
  if m then
    if data.getLsbD 1 && !s.cascade.gkeyMade then
      let k := s.freeOctets 32
      k.2.installGroupKey k.1 false
    else s
  else if data.getLsbD 0 then s.offerJoin else s

/-- CS_CTRL. -/
def execCsCtrl (h : HandId) (data : Word) (s : State) : Res := regWrite h 0xD002 3 (fun t => t.writeCsCtrl data) s

/-- HC_REOPEN: the share of a PRESENT device with WAIT opens as R344 gives, and WAIT clears when it has (R540). -/
def State.reopen (s : State) (n : Nat) : State :=
  let e := s.hcEntry n
  if e.state = .present ∧ e.wait then
    match s.shareIndex e.path with
    | some i =>
      (s.modStore fun t => { t with unreported := t.unreported.filter (· ≠ i) ++ [i] }).sendControl
        (s.portTo e.path) (s.openMessage e.path false) []
    | none => s
  else s

/-- HC_REOPEN written by the host. -/
def execHcReopen (devnum : BitVec 12) (s : State) : Res := hostWrite 0 0 (fun t => .next (t.reopen devnum.toNat)) s

/-- The entry HC_INDEX names; entry 0 is the master, always PRESENT (HC_ENTRY to HC_SEQ). -/
def State.hcShown (s : State) : HcEntry :=
  if s.cascade.index = 0 then
    let r := s.capacityReport
    { state := .present, path := 0x1000, serial := Config.serial, gov := r.getD 2 0, cores := r.getD 3 0
      lanes := r.getD 4 0, seqSlices := r.getD 5 0, macSlices := r.getD 6 0, frames := r.getD 7 0, seq := s.store.ckDone }
  else s.hcEntry s.cascade.index

/-- An access of HC_SEQ that includes bits 63:32 is over: HC_INDEX advances (R545). -/
def State.hcAdvance (s : State) : State := s.modCascade fun c => { c with index := (c.index + 1) % 4096 }

/-- HC_SEQ read by the host, after which HC_INDEX advances (R545). -/
def execHcSeq (s : State) : Res :=
  hostRead (fun t => .next (t.emit (.barData (leOctets 8 t.hcShown.seq))).hcAdvance) s

end Sys2Proof.Machine
end

