-- ==== Sys2Proof/Machine/TagStore.lean ====
section
/-!
DEFINITION. Sys2Proof/Machine/TagStore.lean: the Custody Tag's non-volatile block: pages, slots and
markers (R675 to R678), and what the system pages hold (R679; log 49).
-/
namespace Sys2Proof.Machine

/-! ### Pages and slots (R675 to R678) -/

/-- A write of a page as far as it came (R677, R678): complete, or with no valid marker in its slot. -/
def Tag.writePage (t : Tag) (page : Nat) (data : List Byte) (complete : Bool) : Tag :=
  let old := t.current page
  let target := match old with
    | some (b, _) => !b
    | none => false
  let seq := match old with
    | some (_, n) => n + 1
    | none => 1
  let d := (padTo 120 data).take 120
  let mark := if complete then tagMarker page seq d else List.replicate 8 0xFF#8
  { t with nv := asetRun 0xFF#8 t.nv (tagSlotAt page target) (d ++ mark) }

/-! ### The system pages (R679; log 49) -/

def Tag.password (t : Tag) : List Byte := ((t.readPage 60).drop 1).take 8
def Tag.key (t : Tag) : List Byte := ((t.readPage 60).drop 9).take 16
/-- Page 60 with its parts. -/
def tagSecrets (pwd : Option (List Byte)) (key : Option (List Byte)) : List Byte :=
  [BitVec.ofNat 8 (b2n pwd.isSome + 2 * b2n key.isSome)] ++ padTo 8 (pwd.getD []) ++ padTo 16 (key.getD [])
/-- The password, when installed. -/
def Tag.pwd? (t : Tag) : Option (List Byte) := if t.pwdSet then some t.password else none
/-- K, when installed. -/
def Tag.key? (t : Tag) : Option (List Byte) := if t.keySet then some t.key else none

/-- Set both counts. -/
def Tag.setFails (t : Tag) (pwd aes : Nat) : Tag :=
  t.writePage 61 (beOctets 1 (min pwd 15) ++ beOctets 2 (min aes 0xFFFF)) true

/-- The level nibble of a page that was never set: WR above RD (Page allocation table). -/
def defaultLevel (page : Nat) : Nat := if page < 36 then 1 else if page < 60 then 14 else 0
/-- The default TG_ACLk. -/
def defaultAcl (k : Nat) : Nat := (List.range 8).foldl (fun a j => a + defaultLevel (8 * k + j) * 2 ^ (4 * j)) 0
/-- TG_ACLk as the system pages hold it: page 62, four octets each (R679). -/
def Tag.storedAcl (t : Tag) (k : Nat) : Nat :=
  if (t.current 62).isSome then beNat (((t.readPage 62).drop (4 * k)).take 4) else defaultAcl k
/-- The level nibble of a page. -/
def Tag.level (t : Tag) (page : Nat) : Nat := t.storedAcl (page / 8) / 2 ^ (4 * (page % 8)) % 16
/-- RD; WR, of which 1 acts as 0 (R679). -/
def Tag.rd (t : Tag) (page : Nat) : Nat := t.level page % 4
def Tag.wr (t : Tag) (page : Nat) : Nat := let w := t.level page / 4; if w = 1 then 0 else w
/-- TG_ACL0 to TG_ACL7 loaded from the system pages. -/
def Tag.loadAcl (t : Tag) : Tag :=
  { t with acl := asetRun 0 [] 0 ((List.range 8).map fun k => wd (t.storedAcl k)) }

/-- Page 63: the field-write map, bit p of the 64-bit number. -/
def Tag.fieldMap (t : Tag) : Nat := beNat ((t.readPage 63).take 8)
def Tag.setMap (t : Tag) (m : Nat) : Tag := t.writePage 63 (beOctets 8 m) true

/-! ### The tag side by side with a reset or a loss of power -/

/-- The main side's part of the tag at device reset; what a wired write had reached stays old (R678,
R683, R690). -/
def Tag.reset (t : Tag) : Tag :=
  let t := match t.writes with
    | (p, d) :: _ => if t.cmd.isSome then t.writePage p d false else t
    | [] => t
  { t with ien := false, cmd := none, writes := [], status := 0, keyh := 0, buf := [] }.loadAcl

/-- AL_LC (Alarm status table). -/
def LifeCycle.alLc (l : LifeCycle) : Nat := b2n l.pending.isSome * 2 ^ 24 + l.effective * 2 ^ 16 + l.fuse.toNat * 2 ^ 8

/-- Change the life cycle; a change of AL_LC sets HL_EVT.LIFECYCLE and owes a SUMMARY (R624, R680). -/
def State.lifeChange (s : State) (f : LifeCycle → LifeCycle) : State :=
  let t := s.modLife f
  if t.life.alLc = s.life.alLc then t else (t.hostEvent 1).modTag fun g => { g with summaryOwed := true }

end Sys2Proof.Machine
end

