-- ==== Sys2Proof/Machine/CardJournal.lean ====
section
/-!
DEFINITION. Sys2Proof/Machine/CardJournal.lean: the Card Journal's lines in P2 and P3 (R656 to R659).
-/
namespace Sys2Proof.Machine

/-- The 16 words of a journal line (Journal line table). -/
def Intent.words (i : Intent) (kind rtc : Nat) : List Word :=
  let ws := [wd (kind * 2 ^ 32 + b2n i.gate * 2 ^ 31 + i.seat * 2 ^ 28 + i.block * 2 ^ 21),
    wd (i.serial.toNat / 2 ^ 32), wd (i.serial.toNat % 2 ^ 32), wd i.oldCount.toNat,
    wd ((i.oldCount + 1).toNat), wd i.crc.toNat, wd (i.jseq % 2 ^ 32), wd rtc] ++ List.replicate 7 0
  ws ++ [wd (crc32c (words40 ws)).toNat]

/-- The flash word address of journal line i: 256 lines in P2, then 256 in P3 (R487). -/
def journalAddr (i : Nat) : Nat := 2 * 4096 + (i % 512) * 16

/-- Program one line at the write point, in a marked sector after its erase; an INTENT has verified before the event
that tells of it (R497, R656). -/
def State.journalLine (s : State) (kind : Nat) (i : Intent) : State :=
  let a := journalAddr s.journal.line
  let ws := i.words kind s.watch.rtcSec
  let t := s.eraseMarked (sectorOf a)
  let t := if kind = 1 then t.programNow a ws else t.queueFlash { op := 1, addr := a, words := ws }
  t.modJournal fun j => { j with line := (j.line + 1) % 512 }

/-- On entering a sector: a CARRY of every pending intent, then the erase of the other sector with
its intent and done records (R497, R658). -/
def State.journalEnter (s : State) : State :=
  if s.journal.line % 256 = 0 then
    let other := if s.journal.line < 256 then 3 else 2
    (s.journal.pending.foldl (fun u i => u.journalLine 6 i) s).internalErase other
  else s

/-- Append a line of a KIND (R658). -/
def State.toJournal (s : State) (kind : Nat) (i : Intent) : State := s.journalEnter.journalLine kind i

/-- An INTENT: programmed and pending until an outcome settles it (R656). -/
def State.journalIntent (s : State) (i : Intent) : State :=
  (s.toJournal 1 i).modJournal fun j => { j with pending := j.pending ++ [i], jseq := (j.jseq + 1) % 2 ^ 32 }

/-- An outcome line settles its intent. -/
def State.journalSettle (s : State) (kind : Nat) (i : Intent) : State :=
  (s.modJournal fun j => { j with pending := j.pending.filter fun k => k.jseq != i.jseq }).toJournal kind i

/-- What a device reset keeps of the journal: its lines in flash, found again at start-up (R658). -/
def Journal.atReset (j : Journal) : Journal := { pending := j.pending, jseq := j.jseq, line := j.line }

/-- The KIND and the fields of a journal line; none for a blank line and one whose CRC fails (R658). -/
def journalRead (ws : List Word) : Option (Nat × Intent) :=
  let at_ (i : Nat) : Word := ws.getD i 0
  let kind := wfield (at_ 0) 35 32
  if kind = 0 ∨ 6 < kind then none
  else if at_ 15 ≠ wd (crc32c (words40 (ws.take 15))).toNat then none
  else some (kind, {
    gate := (at_ 0).getLsbD 31, seat := wfield (at_ 0) 30 28, block := wfield (at_ 0) 27 21
    serial := BitVec.ofNat 64 (wfield (at_ 1) 31 0 * 2 ^ 32 + wfield (at_ 2) 31 0)
    oldCount := (at_ 3).setWidth 32, crc := (at_ 5).setWidth 32, jseq := wfield (at_ 6) 31 0 })

/-- The intents that the lines from the write point round leave pending: the newest line of each JSEQ decides, an
INTENT or a CARRY leaving it pending (R658). -/
def Flash.pendingIntents (f : Flash) (line : Nat) : List Intent :=
  (List.range 512).foldl (fun acc k =>
    match journalRead (agetRun erasedWord f.words (journalAddr (line + k)) 16) with
    | some (kind, i) =>
      let rest := acc.filter fun j => j.jseq != i.jseq
      if kind = 1 ∨ kind = 6 then rest ++ [i] else rest
    | none => acc) []

/-- The journal is found again in P2 and P3 at start-up, as the gates read it (R12, R486, R658). -/
def State.findJournal (s : State) : State :=
  let r := s.seeFlash
  let t := r.2.noteReads r.1 fun a => decide (2 * 4096 ≤ a) && decide (a < 4 * 4096)
  t.modJournal fun j => { j with pending := r.1.pendingIntents j.line }

/-- The record of one replay: gate, seat, and 1 for REPLAY_NEW (R657). -/
def State.replayRecord (s : State) (b : Bool) (n : Nat) (new : Bool) : State :=
  s.record 0xD1 (b2n b * 2 ^ 8 + n * 16 + b2n new)

/-- The replays of start-up: no card is seated, so every intent stays pending (R657). -/
def State.replayAtStart (s : State) : State :=
  s.journal.pending.foldl (fun t i => t.replayRecord i.gate i.seat false) s

end Sys2Proof.Machine
end

