-- ==== Sys2Proof/Machine/FwSlots.lean ====
section
/-!
DEFINITION. Sys2Proof/Machine/FwSlots.lean: the firmware slots and the choice between them (R504, R505, R698, R699, R705),
and what an interruption leaves in them (R498).
-/
namespace Sys2Proof.Machine

/-! ### Firmware slots (R504, R505, R698, R699) -/

/-- First flash word of a slot, B when true. -/
def slotBase (b : Bool) : Nat := if b then 0x800000 else 0x10000

/-- A slot image, offsets 0 to N + 51, that passes R505 and R698 but for COMMIT. -/
def imageOk (ws : List Word) : Bool :=
  let at_ (i : Nat) : Word := ws.getD i 0
  let n := wfield (at_ 2) 19 0
  let entry := wfield (at_ 4) 31 16
  let resident := wfield (at_ 4) 15 0
  let pub := packOut .loose ((ws.drop (n + 4)).take 24) 96
  let sig := packOut .loose ((ws.drop (n + 28)).take 24) 96
  at_ 0 == wd 0o167141162144 && wfield (at_ 2) 35 20 == 0 && decide (1 ≤ n) && decide (n ≤ 1048508)
    && wfield (at_ 4) 35 32 == 0 && decide (1 ≤ resident) && decide (resident ≤ 32768) && decide (entry < resident)
    && sha384 pub == Config.bootKeyHash
    && p384.verify (beNat (pub.take 48), beNat (pub.drop 48)) (sha384 (words40 (ws.take (n + 4))))
        (beNat (sig.take 48)) (beNat (sig.drop 48))

/-- A word of a slot. -/
def Flash.slotWord (f : Flash) (b : Bool) (off : Nat) : Word := aget erasedWord f.words (slotBase b + off)

/-- The slot is valid (R505, R698). -/
def Flash.slotValid (f : Flash) (b : Bool) : Bool :=
  let n := wfield (f.slotWord b 2) 19 0
  if f.slotWord b 0 ≠ wd 0o167141162144 then false
  else
    let base := slotBase b
    imageOk (agetRun erasedWord f.words base (n + 52))
      && f.slotWord b 0o3777760 == wd 0o143157155155
      && wfield (f.slotWord b 0o3777761) 31 0 == wfield (f.slotWord b 1) 31 0
      && !f.bad.any fun a => (decide (base ≤ a) && decide (a < base + n + 52)) || a == base + 0o3777760 || a == base + 0o3777761

/-- A word that the check of the two slots reads (R486, R505). -/
def Flash.slotReads (f : Flash) (a : Nat) : Bool :=
  [false, true].any fun b =>
    let base := slotBase b
    let n := if f.slotWord b 0 = wd 0o167141162144 then wfield (f.slotWord b 2) 19 0 + 52 else 1
    (decide (base ≤ a) && decide (a < base + n)) || a == base + 0o3777760 || a == base + 0o3777761

/-- VERSION of a slot. -/
def Flash.slotVersion (f : Flash) (b : Bool) : Nat := wfield (f.slotWord b 1) 31 0

/-- The slot the boot ROM starts, and whether R699's exception chose it. -/
def Flash.chooseSlot (f : Flash) (attempts : Nat) : Option (Bool × Bool) :=
  match f.slotValid false, f.slotValid true with
  | false, false => none
  | true, false => some (false, false)
  | false, true => some (true, false)
  | true, true =>
    let best := decide (f.slotVersion false < f.slotVersion true)
    if attempts = 3 then some (!best, true) else some (best, false)

/-- The target slot: the invalid one, slot A when neither is valid, else the one with the lower VERSION,
slot B when equal (R705). -/
def Flash.recoveryTarget (f : Flash) : Bool :=
  match f.slotValid false, f.slotValid true with
  | true, false => true
  | false, _ => false
  | true, true => decide (f.slotVersion true ≤ f.slotVersion false)

/-- Recovery's write is cut short: nothing of it was begun, or an erase or a program of it was under way, which leaves
undefined content there; which is open (R498, R506; log 107). -/
def State.cutRecovery (s : State) : State :=
  if s.startup.rcvState ≠ 1 then s
  else
    let v := s.freeValue
    let base := slotBase s.flash.recoveryTarget
    let commit := sectorOf (base + 0o3777760)
    let place := sectorOf base + v.1 / 4 % 16
    if v.1 % 4 = 0 then v.2
    else if v.1 % 4 = 1 then v.2.scramble (sectorBase commit) (sectorSize commit)
    else
      let t := v.2.modFlash fun f => f.eraseSector commit
      if v.1 % 4 = 2 then t.scramble (sectorBase place) (sectorSize place)
      else
        let t := t.modFlash fun f => f.eraseSector place
        t.scramble (sectorBase place + v.1 / 64 % 4096 * 16) 16

/-- What time has done to the array by the n-th start: programmed words with one bit in error, and words that can no
longer be corrected (R486; log 121). -/
def Flash.decay (f : Flash) (n : Nat) : Flash :=
  f.words.foldl (fun g kv => match Config.flashDecay n kv.1 with
    | 0 => g
    | 1 => { g with weak := kv.1 :: g.weak }
    | 2 => { g with words := aset erasedWord g.words kv.1 (Config.flashWord n kv.1), bad := kv.1 :: g.bad }) f

end Sys2Proof.Machine
end

