-- ==== Sys2Proof/Machine/Reset.lean ====
section
/-!
DEFINITION. Sys2Proof/Machine/Reset.lean: the fuse vote (R571 to R575), device reset (R689 to R694)
and the boot stages' change.
-/
namespace Sys2Proof.Machine

/-! ### The life-cycle fuses (R571 to R575) -/

/-- The fuse codeword of a state code (Life-cycle states table). -/
def codeword (state : Nat) : BitVec 32 :=
  match state with
  | 0 => 0x00000000
  | 1 => 0x11111111
  | 2 => 0x33333333
  | 3 => 0x77777777
  | 4 => 0xBBBBBBBB
  | _ => 0xFFFFFFFF

/-- An advance of the Life-cycle advances table. -/
def isAdvance (from_ to_ : Nat) : Bool :=
  match from_, to_ with
  | 0, 1 | 1, 2 | 2, 3 | 2, 4 | 3, 5 | 4, 5 | 0, 5 | 1, 5 | 2, 5 => true
  | _, _ => false

/-- Hamming distance. -/
def distance (a b : BitVec 32) : Nat := ((List.range 32).filter fun i => a.getLsbD i != b.getLsbD i).length

/-- What a copy decodes to (R572). -/
def decodeCopy (w : BitVec 32) : Option Nat :=
  match (List.range 6).find? fun c => decide (distance w (codeword c) ≤ 3) with
  | some c => some c
  | none =>
    let at4 := (List.range 6).filter fun c => distance w (codeword c) == 4
    at4.find? fun c => at4.any fun d => isAdvance d c

/-- The vote over the three copies: fuse state and AGREE (R573). -/
def voteOf (a b c : BitVec 32) : Nat × BitVec 3 :=
  let ds := [decodeCopy a, decodeCopy b, decodeCopy c]
  let count (x : Nat) : Nat := (ds.filter (· == some x)).length
  match (List.range 6).find? fun x => decide (2 ≤ count x) with
  | some x => (x, BitVec.ofNat 3 ((List.range 3).foldl (fun m i => m + b2n (ds.getD i none == some x) * 2 ^ i) 0))
  | none => (5, 0)

/-- The vote latched. -/
def LifeCycle.vote (l : LifeCycle) : LifeCycle :=
  let v := voteOf l.copy0 l.copy1 l.copy2
  { l with fuse := BitVec.ofNat 8 v.1, agree := v.2 }

/-- Blow one bit of one copy. -/
def LifeCycle.blow (l : LifeCycle) (bit copy : Nat) : LifeCycle :=
  let m : BitVec 32 := 1#32 <<< bit
  match copy with
  | 0 => { l with copy0 := l.copy0 ||| m }
  | 1 => { l with copy1 := l.copy1 ||| m }
  | _ => { l with copy2 := l.copy2 ||| m }

/-- The steps of an advance in R575's order: bit by bit from the lowest, copy 0, 1 and 2. -/
def blowSteps (from_ to_ : Nat) : List (Nat × Nat) :=
  ((List.range 32).filter fun i => (codeword to_).getLsbD i && !(codeword from_).getLsbD i).flatMap fun i =>
    [(i, 0), (i, 1), (i, 2)]

/-- The first n steps of the running advance are made. -/
def LifeCycle.blowFirst (l : LifeCycle) (n : Nat) : LifeCycle :=
  match l.blowing with
  | some t => ((blowSteps l.fuse.toNat t.toNat).take n).foldl (fun k p => k.blow p.1 p.2) l
  | none => l

/-- Power is lost during an advance: an open number of its steps were made (R575, log 51). -/
def State.cutAdvance (s : State) : State :=
  if s.life.blowing.isNone then s
  else
    let v := s.freeValue
    v.2.modLife fun l => { l.blowFirst (v.1 % 97) with blowing := none }

/-! ### Boot stages and modes -/

/-- HL_STATUS.BOOT_STAGE changes: a trigger in SNAPSHOT mode (R637). -/
def State.setStage (s : State) (n : Nat) : State :=
  let t := s.modLink fun l => { l with bootStage := BitVec.ofNat 8 n }
  if s.link.bootStage.toNat ≠ n && s.parish.snapshot then t.snapshotRecord 0 n t.devicePath else t

/-- HL_STATUS.MODE changes: HL_EVT.FW_READY sets. -/
def State.setMode (s : State) (m : BitVec 4) : State :=
  if s.link.mode = m then s else (s.modLink fun l => { l with mode := m }).hostEvent 8

/-! ### Device reset (R689 to R691) -/

/-- The program and the erase that a bank had under way leave undefined content in their line and sector; a sector that
an internal requester was to erase is marked (R497, R498). -/
def State.cutFlash (s : State) (b : Bool) : State :=
  let t := match s.flash.turn b with
    | some (_, o) => if o.op = 1 then s.scramble o.addr 16 else s
    | none => s
  let t := match s.eraseUnderWay b with
    | some o => t.scramble (sectorBase (sectorOf o.addr)) (sectorSize (sectorOf o.addr))
    | none => t
  if b then t
  else t.modFlash fun f => { f with
    inner := []
    marked := ((f.inner.filter fun o => o.op == 2).map fun o => sectorOf o.addr) ++ f.marked }

/-- What a device reset keeps of the Watch domain's response engine (R602, R617, R620, R621). -/
def Watch.deviceReset (w : Watch) : Watch :=
  let latch := w.latch &&& 0xFF#28
  { w with
    halted := false, mlock := false, latch := latch, strongLatch := w.strongLatch &&& 0xFF#28
    strongest := if latch = 0 then 0 else w.strongest
    mons := w.mons.filter fun kv => decide (kv.1 < 8)
    testMon := 0, testRun := none, testResult := 0, railsLive := false, capture := (0, 0), rtcHi := 0
    reported := 0, samples := [], sampleClock := 0 }

/-- GC_CAUSE.ATTEMPTS after a device reset (R700). -/
def Startup.attemptsAfter (x : Startup) (cause : BitVec 7) : Nat :=
  if cause = 4 then (if x.fwWritten then x.attempts else satInc x.attempts 15) else 0

/-- The cards of a gate are deactivated: nothing is powered, no seat holds a card; VSEL is low outside ISO mode
(R641, R661, Gate pins table). -/
def Gate.drop (g : Gate) : Gate :=
  { g with state := if g.mode = 0 then 0 else 1, cls := 0, prot := false, width := false, divUsed := 0, seats := []
           clockStop := none, clkStopped := none, vccEn := false, vselPin := g.vselPin && g.mode == 1 }

/-- A gate at device reset: its cards are deactivated (R661). -/
def Gate.reset (g : Gate) : Gate := { pres := g.pres }

/-- SEQ of the first record after a start: one above the highest held (R628). -/
def Parish.nextSeq (p : Parish) : Nat := if p.used = 0 then p.archSeq else max p.ringSeq p.archSeq

/-- The state a device reset leaves; the pins, the fuses, the flash array, the tag's non-volatile block
and field side, the Watch domain, the Parish ring and GC_CAUSE are kept (R690; log 85). -/
def State.resetMain (s : State) (cause : BitVec 7) : State :=
  { pending := s.pending
    out := s.out
    free := s.free
    link := { perst := s.link.perst, d3cold := s.link.d3cold, pmeEn := s.link.d3cold && s.link.pmeEn }
    store := { recordLine := s.store.recordLine, lastSeq := s.store.lastSeq }
    vault := { storeObject := s.vault.storeObject }
    cascade := { master := s.cascade.master, portEn := if s.cascade.master then 0xFE else 0xFF }
    power := { tj := s.power.tj }
    flash :=
      { words := s.flash.words, bad := s.flash.bad, weak := s.flash.weak, undef := s.flash.undef, programmed := s.flash.programmed
        marked := s.flash.marked }
    life :=
      { copy0 := s.life.copy0, copy1 := s.life.copy1, copy2 := s.life.copy2, fuse := s.life.fuse
        agree := s.life.agree, trial := s.life.trial, spent := s.life.spent, blowing := s.life.blowing }
    watch := s.watch
    parish :=
      { ring := s.parish.ring, oldest := s.parish.oldest, next := s.parish.next, used := s.parish.used
        ringSeq := s.parish.ringSeq, archSeq := s.parish.archSeq, seq := s.parish.nextSeq, archLine := s.parish.archLine, archTokens := s.parish.archTokens
        archClock := s.parish.archClock }
    gateA := s.gateA.reset
    gateB := s.gateB.reset
    journal := s.journal.atReset
    tag := s.tag.reset
    startup :=
      { rails := s.startup.rails, pfw := s.startup.pfw, bootSel := s.startup.bootSel
        attempts := s.startup.attemptsAfter cause, slot := s.startup.slot, fallback := s.startup.fallback
        cause := if s.startup.inReset then s.startup.cause ||| cause else cause } }

/-- A Carrier WRITE is cut short at the gate: whether its INTENT line was programmed is open, and no
outcome line follows (R656, R660; log 60). -/
def State.cutWrite (s : State) (b : Bool) : State :=
  match (s.gate b).intent with
  | none => s
  | some i =>
    let v := s.freeValue
    let t := v.2.modGate b fun g => { g with intent := none }
    if v.1 % 2 = 1 then (t.journalIntent i).modFlash Flash.landed else t

/-- Cards of a gate in a mode that powers them are deactivated at the pins. -/
def State.dropCards (s : State) (b : Bool) : State :=
  if 2 ≤ (s.gate b).state ∨ (s.gate b).op.isSome then s.emit (.gatePin b "DEACTIVATE") else s

/-- A device reset begins; an open session closes with its record (R498, R590, R689 to R691). -/
def State.deviceReset (s : State) (cause : BitVec 7) : State :=
  let t := if s.life.session = .opened then s.record 0xF7 (s.life.rights.toNat * 2 ^ 16) else s
  let t := ((((t.cutFlash true).cutFlash false).cutRecovery).cutWrite false).cutWrite true
  let t := (t.dropCards false).dropCards true
  let t := t.resetMain cause
  let t := if s.life.pending.isSome then t.modTag fun g => { g with summaryOwed := true } else t
  t.watchChange Watch.deviceReset

end Sys2Proof.Machine
end

