-- ==== Sys2Proof/Machine/Session.lean ====
section
/-!
DEFINITION. Sys2Proof/Machine/Session.lean: key formation (R417, R418), the NOTIFY, HALT and PURGE
responses (R601 to R603) and the end of a debug session (R590, R591).
-/
namespace Sys2Proof.Machine

/-! ### Key formation (R417, R418, R436, R443) -/

/-- The attributes of the DAK: an ECDSA P-384 signing key of the Warden world. -/
def dakKey : KeyObj := { attr := attrWord 2 5 1 false false false false, material := Config.dakPrivate, pub := Config.dakPublic }

/-- The sixteen lane wrap keys are drawn at key formation from seeds, as far as the pool has them (R436, R732). -/
def State.drawLwks (s : State) : State :=
  (s.modVault fun v => { v with lwkCur := 0, lwks := [], lwkDraw := some [] }).feedLwks

/-- The Vault's keys are formed: none in BLANK or TERMINATED, no CKEK while BBKR is absent or TAMPERED
is latched (R417, R418); the DAK's object opens under the IKEK of CLASS NORMAL only. -/
def State.formKeys (s : State) : State :=
  let e := s.life.effective
  if e = 0 ∨ e = 5 then s.modVault fun v => { v with
      mode := .none, ikek := none, ckek := none, dak := none, lwks := [], lwkDraw := none, formOwed := false }
  else
    let cls := s.life.cls
    let bbkr := if s.watch.tampered then none else s.watch.bbkr
    let t := s.modVault fun v => { v with
      ikek := some (formIkek cls), ckek := bbkr.map fun b => formCkek b cls
      formOwed := false
      dak := if Config.dakProvisioned && cls == 1 then some dakKey else none
      mode := if bbkr.isNone then .hold else if s.life.trial.isSome then .trial else .opened }
    t.drawLwks.loadStoreKeys

/-! ### Responses (R601 to R603) -/

/-- PME is signalled when WAKE_IN or an alarm comes with PME_En, from D3cold by PE_WAKE_N (R207); in Dormant
PE_WAKE_N is asserted (R557), and without VDD_GUARD, a Dormant rail, nothing is. -/
def State.signalPme (s : State) : State :=
  if s.watch.mainDark then s
  else if s.power.state = .dormant then s.emit .peWake
  else if !s.link.pmeEn then s
  else s.emit (if s.link.d3cold then .peWake else .pme)

/-- NOTIFY beyond LOG: HL_EVT.ALARM, source 16 on every core, PME (R207, R601). -/
def State.notifyAlarm (s : State) : State := ((s.hostEvent 0).interruptAll 16).signalPme

/-- A response is taken: STRONGEST. -/
def State.tookResponse (s : State) (resp : Nat) : State := s.watchChange fun w => { w with strongest := max w.strongest resp }

/-- HALT beyond NOTIFY and the session's close: every errand of this device ends with TAMPER_HALT, HALTED
sets (R280, R601). -/
def State.haltAll (s : State) (detail : Nat) : State :=
  let t := s.watchChange fun w => { w with halted := true }
  t.steward.errands.foldl (fun u kv => match kv.2.phase with
    | .forwarded _ _ => u
    | _ => u.stopErrand kv.1 0xF8 detail) t

/-- Every resident and staging slot is emptied, every generation advances, the lane wrap keys and the
Store keys are destroyed (R448). -/
def State.purgeVault (s : State) : State :=
  let t := s.modVault fun v => { v with
    slots := [], staging := [], lwks := [], lwkCur := 0, lwkDraw := none, recordKey := none
    gens := (List.range 4096).map fun i => (i, (aget 0 v.gens i + 1) % 65536) }
  t.modStore fun k => { k with treeKey := none, epochKeys := [] }

/-- The Store loses its frames and nodes without write-back and is CLOSED, a checkpoint is abandoned, which a member
tells the master of; what waited for a page goes on (R601, R603; log 74). -/
def State.purgeStore (s : State) : State :=
  let t := if s.store.ckPhase = .idle then s else if s.cascade.master then s.abandon else s.restartCheckpoint
  let t := t.modStore fun k => { k.close with draw := .none }
  { t with hands := t.hands.map fun (kv : Nat × Hand) =>
      let x := { kv.2 with slots := [] }
      (kv.1, match x.state with
        | .blocked (.pageIn _) => { x with state := .ready }
        | _ => x) }

/-- After a PURGE the keys are formed again, once a source is HEALTHY (R418, R448, R468). -/
def State.reformKeys (s : State) : State :=
  if s.anyHealthy && s.entropy.katOk then s.formKeys
  else s.modVault fun v => { v with ikek := none, ckek := none, dak := none, formOwed := true }

/-- What PURGE adds to HALT: the Store, the Release Buffer (which holds nothing between commands), and
the zero-fills of R367, R411, R448 and R460; the keys are formed again (R418, R601, R603). -/
def State.purge (s : State) : State :=
  let t := s.purgeStore.flushLanes
  let t : State := { t with slices := t.slices.map fun (kv : Nat × Slice) =>
    (kv.1, { kv.2 with regs := { kv.2.regs with opmem := [], a := 0, acc := 0, op := kv.2.regs.op.map SliceOp.stop } }) }
  let t : State := { t with
    savedSlices := t.savedSlices.map fun (kv : Nat × SliceRegs) => (kv.1, { kv.2 with opmem := [], a := 0, acc := 0 }) }
  let t := t.purgeVault.clearEntropy
  let t := if t.vault.mode = .sealed ∨ t.vault.mode = .none then t else t.reformKeys
  t.settle

/-- A PURGE response that no alarm calls for; TAMPER_HALT's DETAIL, a monitor ID, is open (R577, R591;
log 52). -/
def State.purgeResponse (s : State) : State :=
  let v := s.freeValue
  ((((v.2.tookResponse 4).notifyAlarm).haltAll (v.1 % 2 ^ 32)).purge)

/-! ### Sessions (R590, R591) -/

/-- The session closes with an END: halted Hands resume, tracing stops, POWER_HOLD lapses, a read of its own that
waits is dropped, source 24 and the record; the consequence of SCAN is the caller's. -/
def State.endSession (s : State) (ending : Nat) : State :=
  if s.life.session ≠ .opened then s
  else
    let rights := s.life.rights.toNat
    let t := s.modLife fun l => { l with
      session := .closed, ending := ending, rights := 0, notAfter := none, powerHold := false, traces := []
      scanUsed := false, readOwed := none, readRing := false }
    let t : State := { t with
      hands := t.hands.map fun (kv : Nat × Hand) => (kv.1, { kv.2 with halted := false, stepOne := false }) }
    (t.settle.interruptAll 24).record 0xF7 (ending + rights * 2 ^ 16)

/-- SCAN was used in the open session. -/
def LifeCycle.scanOpen (l : LifeCycle) : Bool := decide (l.session = .opened) && l.scanUsed

/-- The session closes; after a SCAN the PURGE response and a device reset follow (R591). -/
def State.closeSession (s : State) (ending : Nat) : State :=
  let t := s.endSession ending
  if s.life.scanOpen then t.purgeResponse.deviceReset 0x20 else t

end Sys2Proof.Machine
end

