-- ==== Sys2Proof/Machine/Power.lean ====
section
/-!
DEFINITION. Sys2Proof/Machine/Power.lean: power states, latency tolerance and the thermal governor
(R547 to R570).
-/
namespace Sys2Proof.Machine

/-! ### The tolerance in force and the state it allows (R549, R550, R558, R559) -/

/-- Every Baton port is DOWN. -/
def State.portsDown (s : State) : Bool := s.cascade.ports.all fun kv => decide (kv.2.state = .down)

/-- No lane, slice or Vault operation runs (R549). -/
def State.enginesIdle (s : State) : Bool :=
  s.lanes.all (fun kv => kv.2.regs.op.isNone) && s.slices.all (fun kv => kv.2.regs.op.isNone)
    && s.hands.all fun kv => kv.2.vault.running.isNone

/-- R549: no Hand READY or RUNNING and no engine at work; a halted Hand counts as BLOCKED (R592). -/
def State.dozeIdle (s : State) : Bool :=
  s.enginesIdle && s.hands.all fun kv =>
    (decide (kv.2.state ≠ .ready) || s.frozen kv.1) && decide (kv.2.state ≠ .running)

/-- Hand 0 of the Reeve core is BLOCKED in WAIT. -/
def State.reeveWaits (s : State) : Bool :=
  match (s.hand 0).state with
  | .blocked (.wait _ _) => true
  | _ => false

/-- An errand the master has forwarded is in flight on its member, not here. -/
def Errand.away (x : Errand) : Bool :=
  match x.phase with
  | .forwarded _ _ => true
  | _ => false

/-- The Granary has host reads outstanding besides page-ins: levels 7 to 9 while OPENING, or a parent brought in for a
write-back (R315, R327). -/
def State.storeReads (s : State) : Bool :=
  (decide (s.store.state = .opening) && s.store.own.any fun i => s.store.unreported.contains i) || s.store.aheadRead.isSome

/-- The conditions of R550 for Nap; a halted Hand counts as an errand in flight (R595). -/
def State.napIdle (s : State) : Bool :=
  s.enginesIdle && s.steward.errands.all (fun kv => kv.2.away) && s.hands.all (fun kv => !kv.2.halted)
    && s.reeveWaits && decide (s.store.ckPhase = .idle)
    && (s.store.sweepDone || !s.store.prevLive) && s.store.queue.isEmpty && !s.storeReads
    && s.rings.all (fun kv => kv.2.reads.isEmpty) && !s.life.powerHold

/-- Dirty frames and dirty nodes of levels 1 to 6 are all written back (R551). -/
def Store.restClean (t : Store) : Bool :=
  t.frames.all (fun kv => !kv.2.dirty) && t.nodes.all fun kv => !kv.2.dirty || decide (7 * 2 ^ 40 ≤ kv.1)

/-! ### Entries and wake -/

/-- DOZE_ENTRY: after 1 µs of R549's conditions. -/
def execDozeEntry (s : State) : Res :=
  if s.power.state = .run ∧ 200 ≤ s.tolerance ∧ s.dozeIdle then .next (s.modPower fun p => { p with state := .doze }) else s.same

/-- Core watchdogs lose their counts in retention (R554). -/
def State.dropWatchdogs (s : State) : State :=
  { s with cores := s.cores.map fun (kv : Nat × Core) => (kv.1, { kv.2 with wdCount := 0 }) }

/-- NAP_ENTRY: after 400 µs of R550's conditions, by tolerance or in D3hot (R206, R559). -/
def execNapEntry (s : State) : Res :=
  if (s.power.state = .run ∨ s.power.state = .doze) ∧ (40000 ≤ s.tolerance ∨ s.link.d3hot) ∧ s.napIdle then
    .next (s.dropWatchdogs.modPower fun p => { p with state := .nap })
  else s.same

/-- Domains 0 to 79 go to Slumber: lanes, slices and Workspace lose what they hold; I-RAM, Commons and the registers
stay (Power states table, R411, R554, R555; log 81). -/
def State.turnOffUnits (s : State) : State :=
  let s : State := { s with
    lanes := s.lanes.map fun (kv : Nat × Lane) => (kv.1, { kv.2 with cache := [] })
    slices := s.slices.map fun (kv : Nat × Slice) => (kv.1, { kv.2 with regs := { kv.2.regs with opmem := [], a := 0, acc := 0 } })
    cores := s.cores.map fun (kv : Nat × Core) => (kv.1, { kv.2 with workspace := [] }) }
  s.dropWatchdogs

/-- The frame banks, the Release Buffer and domains 88 to 90 go off, but for tree levels 7 to 9 (R551, R555). -/
def Store.turnOff (t : Store) : Store :=
  { t with frames := [], nodes := t.nodes.filter fun kv => decide (7 * 2 ^ 40 ≤ kv.1) }

/-- The banks may go off: all is written back, and no freeze keeps them (R551, R567). -/
def Store.atRest (t : Store) : Bool := t.restClean && !t.frozen

/-- SLUMBER_ENTRY: after 30 ms of R550's conditions with every port DOWN and everything written back; an
open session closes with END 4, which after a SCAN resets the device instead (R590, R591); a tripped device turns its banks off once its freeze is over and they are clean (R551, R559, R567). -/
def execSlumberEntry (s : State) : Res :=
  if s.power.gov = .trip then
    if s.power.state = .slumber ∧ s.store.atRest then .next (s.modStore Store.turnOff) else s.same
  else if (s.power.state = .run ∨ s.power.state = .doze ∨ s.power.state = .nap) ∧ 3000000 ≤ s.tolerance
      ∧ !s.link.d3hot ∧ s.portsDown ∧ s.napIdle ∧ s.store.restClean then
    let t := s.closeSession 4
    if s.life.scanOpen then .next t
    else .next ((t.turnOffUnits.modStore Store.turnOff).modPower fun p => { p with state := .slumber })
  else s.same

/-- The page-in of a pinned page on leaving Slumber, ahead of every queued miss (R323). -/
def State.askPinned (s : State) (p : Nat) : State :=
  (s.askPage p true none none).modStore fun t => { t with
    queue := t.queue.map fun q => if q.page = p then { q with wake := true } else q }

/-- The device is in Run again, and its READY Hands run (R552, R553). -/
def State.toRun (s : State) : State := (s.modPower fun p => { p with state := .run, wakeOwed := false }).settle

/-- Return to Run. From Slumber every frame is free and pinned pages page in at once; what a trip left in the frame
banks is written back first (R323, R551, R552, R555). -/
def State.wake (s : State) : State :=
  match s.power.state with
  | .dormant => s
  | .slumber =>
    if s.store.atRest then
      let t := (s.modStore Store.turnOff).toRun
      t.store.pins.foldl State.askPinned t
    else s.owesWake
  | _ => s.toRun

/-- WAKE_EVENT: not while tripped, nor from Dormant (R552, R557, R565). -/
def execWakeEvent (s : State) : Res := if s.power.gov = .trip then s.same else .next s.wake

/-- WAKE_IN (R207, R552, R557). -/
def execWakeIn (s : State) : Res :=
  let t := s.signalPme
  if t.power.gov = .trip then .next t else .next t.wake

/-- In Dormant both gates are deactivated and the Parish ring is emptied (R630, R661). -/
def State.enterDormant (s : State) : State :=
  let s : State := { s with gateA := s.gateA.drop, gateB := s.gateB.drop }
  s.modParish fun p => { p with ring := [], oldest := p.next, used := 0 }

/-- PME_TO_Ack once every port is DOWN, and from D3hot then Dormant (R556). -/
def State.turnOffAck (s : State) : State :=
  if !s.portsDown then s
  else
    let t := (s.modPower fun p => { p with turnOffOwed := false }).emit .pmeAck
    if !s.link.d3hot then t
    else
      let t := t.closeSession 4
      if s.life.scanOpen then t
      else ((t.dropCards false).dropCards true).enterDormant.modPower fun p => { p with state := .dormant }

/-- PME_TURN_OFF: acknowledged when every port is DOWN (R556). -/
def execPmeTurnOff (s : State) : Res :=
  if s.linkAwake then .next (s.modPower fun p => { p with turnOffOwed := true }).turnOffAck else s.same

/-- The state of the PCIe link; a trip leaves it as it was (Power states table, R566). -/
def State.linkPower (s : State) : LinkPower :=
  match s.power.state with
  | .dormant => .l2
  | .run => .l0
  | .doze => .l0
  | _ => if s.power.gov = .trip then s.power.linkHeld else if s.link.l12 then .l12 else if s.link.aspmL1 then .l1 else .l0

/-! ### The governor (R561 to R566) -/

/-- Both SPRINT_EN are 1. -/
def Power.sprintOk (p : Power) : Bool := p.hostSprint && p.wardenSprint

/-- The rows of the Governor transitions table that apply: target and whether SPRINT_LOCK is set. -/
def govRows (p : Power) (tj : Int) (cool : Bool) : List (GovLevel × Bool) :=
  let row (c : Bool) (x : GovLevel × Bool) : List (GovLevel × Bool) := if c then [x] else []
  match p.gov with
  | .sprint => row (decide (115 ≤ tj)) (.trip, false) ++ row (decide (105 ≤ tj)) (.limp, false)
      ++ row (decide (98 ≤ tj)) (.stride, true) ++ row (!p.sprintOk) (.stride, false)
  | .stride => row (decide (115 ≤ tj)) (.trip, false) ++ row (decide (105 ≤ tj)) (.limp, false)
      ++ row (decide (tj < 90) && !p.sprintLock && p.sprintOk) (.sprint, false)
  | .limp => row (decide (115 ≤ tj)) (.trip, false) ++ row (decide (tj < 98) && cool) (.stride, true)
  | .trip => row (decide (tj < 90) && cool) (.stride, true)

/-- The row whose target lies furthest down the Governor levels table; the rows stand in that order. -/
def govTarget (p : Power) (tj : Int) (cool : Bool) : Option (GovLevel × Bool) := (govRows p tj cool).head?

/-- Units the new level does not power, held by none, lose what they held (R411, R564). -/
def State.trimUnits (s : State) : State :=
  { s with
    lanes := s.lanes.map fun (kv : Nat × Lane) =>
      if s.lanePowered kv.1 || kv.2.holder.isSome then kv else (kv.1, { kv.2 with regs := {}, cache := [] })
    slices := s.slices.map fun (kv : Nat × Slice) =>
      if s.slicePowered kv.1 || kv.2.holder.isSome then kv else (kv.1, { kv.2 with regs := {}, lastUser := none }) }

/-- Errands that wait go to another device of their target, or complete with THERMAL_TRIP (R566). -/
def State.tripWaiting (s : State) (e : Nat) (x : Errand) (tj : Nat) : State :=
  let beyond : State := s.setErrand e (x.refused 0xEA tj s.devicePath)
  if x.src = .baton || (s.tripRefusal x.raw).isSome then beyond
  else match s.chooseDevice x.raw (descTarget x.raw) with
    | .member num port => s.forwardTo e x num port
    | _ => beyond

/-- Thermal trip: errands end, Slumber without R550's conditions, TRIPS, the record, contracts BROKEN
with CAUSE 8 (R288, R565, R566). -/
def State.thermalTrip (s : State) (tj : Int) : State :=
  let n := tjBits tj
  let s := s.endSession 4
  let s := s.modPower fun p => { p with state := .slumber, trips := satInc p.trips 255 }
  let s := s.steward.errands.foldl (fun t kv => match kv.2.phase with
    | .placed _ => t.stopErrand kv.1 0xEA n
    | .waiting => t.tripWaiting kv.1 kv.2 n
    | .service => t.stopErrand kv.1 0xEA n
    | _ => t) s
  let s := (s.record 0xEA n).breakContracts 8 fun _ c => (s.targetDevices c.target).any fun d => pathDevice d.path == pathDevice s.devicePath
  let s := s.turnOffUnits
  if s.store.atRest then s.modStore Store.turnOff else s

/-- A change of level with its signals (R563, R564). -/
def State.changeLevel (s : State) (into : GovLevel) (lock : Bool) (tj : Int) : State :=
  let was := s.power.gov
  let link := s.linkPower
  let s := s.modPower fun p => { p with gov := into, linkHeld := link, sprintLock := p.sprintLock || (lock && p.rest != 0) }
  let s := s.trimUnits
  let s := ((s.hostEvent 5).interruptAll 17).record 0xEB (govNat was * 16 + govNat into)
  let s := if into = .limp then s.retest 1 false else if was = .limp ∨ was = .trip then s.retest 4 false else s
  let s := if was = .trip then s.owesWake else s
  if into = .trip then
    let scan := s.life.scanOpen
    let s := s.thermalTrip tj
    if scan then s.purgeResponse.deviceReset 0x20 else s
  else s

/-- TJ_READING: the hottest of the 16 sensors, and the row it calls for (R562); the governor is off in Dormant (R557). -/
def execTjReading (sensors : List Int) (coolForOneSecond : Bool) (s : State) : Res :=
  match sensors with
  | [] => s.same
  | x :: xs =>
    if s.power.state = .dormant then s.same
    else
    let tj := xs.foldl max x
    let t := s.modPower fun p => { p with tj := tj }
    match govTarget t.power tj coolForOneSecond with
    | some (into, lock) => .next (t.changeLevel into lock tj)
    | none => .next t

/-- SPRINT_LOCK_EXPIRY: REST seconds have passed. -/
def execSprintLockExpiry (s : State) : Res := .next (s.modPower fun p => { p with sprintLock := false })

/-! ### Registers (R560) -/

/-- PW_LT_GLOBAL as written counts from now on (R560). -/
def Power.forceGlobal (p : Power) : Power := { p with ltForce := p.ltGlobal }

/-- PW_LT_RING n as written counts from now on (R560). -/
def Power.forceRing (p : Power) (n : Nat) : Power :=
  { p with ltRingForce := match afind p.ltRing n with
      | some v => aput p.ltRingForce n v
      | none => aerase p.ltRingForce n }

/-- PW_LT_GLOBAL with bits 63:32: in force, and the re-test of R290. -/
def State.writeLtGlobal (s : State) (data : Word64) : State :=
  (s.modPower fun p => { p with ltGlobal := bitsOf data.toNat 31 0, ltForce := bitsOf data.toNat 31 0 }).retest 4 false

/-- PW_LT_GLOBAL. -/
def execPwLtGlobal (data : Word64) (s : State) : Res :=
  hostWrite 0xFFFFFFFF00000000#64 data (fun t => .next (t.writeLtGlobal data).announceTolerance) s

/-- PW_LT_RING n without the re-test. -/
def State.setLtRing (s : State) (n : Nat) (data : Word64) : State :=
  let v := bitsOf data.toNat 31 0
  s.modPower fun p =>
    if data.getLsbD 63 then { p with ltRing := aput p.ltRing n v, ltIdle := aerase p.ltIdle n }
    else { p with ltRing := aerase p.ltRing n, ltIdle := aput p.ltIdle n v }

/-- PW_LT_RING n. -/
def execPwLtRing (n : RingId) (data : Word64) (s : State) : Res :=
  hostWrite 0x7FFFFFFF00000000#64 data (fun t =>
    .next (((t.setLtRing n data).modPower fun p => p.forceRing n).retest 4 false).announceTolerance) s

/-- PW_GOV: REST and the host's SPRINT_EN. -/
def State.writePwGov (s : State) (data : Word64) : State :=
  s.modPower fun p => { p with rest := bitsOf data.toNat 23 16, hostSprint := data.getLsbD 0 }

/-- PW_GOV. -/
def execPwGov (data : Word64) (s : State) : Res :=
  hostWrite 0xFFFFFFFFFF00FFFE#64 data (fun t => .next (t.writePwGov data)) s

/-- GV_CTRL. -/
def execGvCtrl (h : HandId) (data : Word) (s : State) : Res :=
  regWrite h 0xC001 3 (fun t => t.modPower fun p => { p with wardenSprint := data.getLsbD 0 }) s

end Sys2Proof.Machine
end

