-- ==== Sys2Proof/Machine/LifeCycle.lean ====
section
/-!
DEFINITION. Sys2Proof/Machine/LifeCycle.lean: life-cycle advances, Trial entry, the test access port,
the debug mailbox and debug sessions (file 17), but for READ and WRITE.
-/
namespace Sys2Proof.Machine

/-! ### The port (R582, R583, R594) -/

/-- The TAP works: not in Dormant, nor with the main side unpowered. -/
def State.tapLive (s : State) : Bool := decide (s.power.state ≠ .dormant) && !s.watch.mainDark
/-- The mailbox works: the TAP does, and no device reset is in force. -/
def State.mailboxLive (s : State) : Bool := s.tapLive && !s.startup.inReset

/-- A mailbox reply. -/
def State.reply (s : State) (status : Nat) (words : List Nat) : State := s.emit (.mailbox (BitVec.ofNat 8 status) words)
/-- A command refused with its DETAIL in the reply and a Parish record (status codes table). -/
def State.refuseReply (s : State) (status detail : Nat) : State := (s.record status detail).reply status [detail]
/-- A command the rights or the state do not allow: DEBUG_DENIED (R583; log 54). -/
def State.denyReply (s : State) : State := (s.modLife fun l => { l with denied := true }).reply 0xF6 []

/-- A mailbox command with its reply, through the DBG_MBOX register (R582, R583). -/
def mailbox (f : State → State) (s : State) : Res :=
  if s.mailboxLive then .next (f (s.modLife fun l => { l with ir := 0x10 })) else s.same

/-- A TAP instruction is loaded; the register shows the instruction in force, and TDO is high-impedance
during a device reset (R711). -/
def tapLoad (ir : Byte) (out : List Nat) (s : State) : Res :=
  if s.tapLive then
    let t := s.modLife fun l => { l with ir := ir }
    .next (if out.isEmpty || t.startup.inReset then t else t.reply 0 out)
  else s.same

/-- States in which EXTEST acts (R582). -/
def LifeCycle.openState (l : LifeCycle) : Bool := decide (l.effective ≤ 1) || decide (0x11 ≤ l.effective)

/-- EXTEST: in BLANK, FACTORY and the Trial states, else as BYPASS. -/
def execExtest (s : State) : Res := tapLoad (if s.life.openState then 0x00 else 0xFF) [] s
/-- SAMPLE/PRELOAD. -/
def execSamplePreload (s : State) : Res := tapLoad 0x01 [] s
/-- The value IDCODE selects (R582). -/
def idcode : Nat := Config.releaseIndex.toNat * 2 ^ 28 + 0x3616 * 2 ^ 12 + 0x56F
/-- IDCODE. -/
def execIdcode (s : State) : Res := tapLoad 0x02 [idcode] s
/-- BYPASS. -/
def execBypass (s : State) : Res := tapLoad 0xFF [] s

/-! ### Rights (R587, R589) -/

/-- Rights free in an effective state (Rights by life-cycle state table). -/
def freeRights (state : Nat) : BitVec 10 :=
  match state with
  | 0x00 => 0x0FF
  | 0x01 => 0x3FF
  | 0x11 => 0x1FF
  | 0x12 => 0x2FF
  | 0x13 => 0x0FF
  | _ => 0

/-- Rights a certificate can grant in a fuse state. -/
def certRights (state : Nat) : BitVec 10 := if state = 2 ∨ state = 3 ∨ state = 4 then 0x0FF else 0

/-- The open session holds a right. -/
def LifeCycle.has (l : LifeCycle) (bit : Nat) : Bool := decide (l.session = .opened) && l.rights.getLsbD bit

/-- The session may halt a Hand: the halt right of the Hand's world. -/
def State.mayHaltHand (s : State) (h : Nat) : Bool := s.mayHalt ((s.hand h).st.getLsbD 35)

/-- A command that wakes the device, which a right allows (R594, R595). -/
def wakeWith (ok : State → Bool) (f : State → State) (s : State) : Res :=
  mailbox (fun t => if ok t then f (if t.power.gov = .trip then t else t.wake) else t.denyReply) s

/-! ### Queries -/

/-- LC_QUERY: effective and fuse state codes, serial, RTC seconds and validity, stepping. -/
def execLcQuery (s : State) : Res :=
  mailbox (fun t =>
    t.reply 0 [t.life.effective, t.life.fuse.toNat, Config.serial.toNat / 2 ^ 32, Config.serial.toNat % 2 ^ 32,
      t.watch.rtcSec / 2 ^ 32, t.watch.rtcSec % 2 ^ 32, b2n t.watch.rtcValid, Config.stepMajor.toNat, Config.stepMinor.toNat]) s

/-- STATUS. -/
def execStatus (s : State) : Res := mailbox (fun t => t.reply 0 [t.life.dbgStatus.toNat]) s

/-! ### Opening a session (R584 to R587) -/

/-- The effective state is ISSUED, FIELDED or RETURNED. -/
def LifeCycle.inService (l : LifeCycle) : Bool := decide (2 ≤ l.effective) && decide (l.effective ≤ 4)

/-- CHALLENGE: a new nonce from conditioned output, which replaces any earlier one; it waits for a seed after the Vault's
draws (R585; log 37). -/
def execChallenge (s : State) : Res :=
  mailbox (fun t =>
    if !t.life.inService || t.life.session = .opened then t.denyReply
    else if t.power.state = .slumber then t.reply 0xF5 [1]
    else if !t.anyHealthy then t.reply 0xF5 [3]
    else (t.modLife fun l => { l with nonceOwed := true }).giveNonce) s

/-- Field of a certificate, big-endian. -/
def certField (c : List Byte) (off n : Nat) : Nat := beNat ((c.drop off).take n)

/-- LCMASK covers a fuse state. -/
def lcMaskHas (mask fuse : Nat) : Bool :=
  match fuse with
  | 2 => bitOf mask 0
  | 3 => bitOf mask 1
  | 4 => bitOf mask 2
  | _ => false

/-- The step of R586 that refuses a certificate: status and DETAIL; none where it passes. -/
def State.certRefusal (s : State) (c : List Byte) : Option (Nat × Nat) :=
  let signed := c.take 160
  if s.life.effective = 5 ∨ s.power.state = .slumber then some (0xF5, 1)
  else if s.life.deny then some (0xF5, 2)
  else match s.life.nonce with
  | none => some (0xF3, 2)
  | some nonce =>
    if certField c 0 4 ≠ 0x42584443 ∨ certField c 4 1 ≠ 1 ∨ 8 ≤ certField c 5 1 ∨ 1024 ≤ certField c 6 2
        ∨ certField c 0x3C 4 ≠ 0 then some (0xF2, 3)
    else if sha384 ((c.drop 0x40).take 96) ≠ Config.debugKeyHash then some (0xF2, 4)
    else if !p384.verify (certField c 0x40 48, certField c 0x70 48) (sha384 signed) (certField c 0xA0 48) (certField c 0xD0 48)
    then some (0xF2, 5)
    else if certField c 8 8 ≠ Config.serial.toNat ∨ (c.drop 0x10).take 32 ≠ nonce
        ∨ !lcMaskHas (certField c 5 1) s.life.fuse.toNat then some (0xF3, 6)
    else if !s.watch.rtcValid then some (0xF4, 0)
    else if s.watch.rtcSec < certField c 0x30 6 then some (0xF4, 1)
    else if certField c 0x36 6 ≤ s.watch.rtcSec then some (0xF4, 2)
    else none

/-- The session opens with RIGHTS: source 24 and the record (R590). -/
def State.openSession (s : State) (rights : BitVec 10) (notAfter : Option Nat) : State :=
  let t := s.modLife fun l => { l with
    session := .opened, rights := rights, notAfter := notAfter, nonce := none, scanUsed := false }
  ((t.settle.interruptAll 24).record 0xF7 (2 ^ 8 + rights.toNat * 2 ^ 16)).reply 0 []

/-- The nonce is discarded (R585, R590). -/
def LifeCycle.dropNonce (l : LifeCycle) : LifeCycle :=
  { l with nonce := none, session := if l.session = .challenged then .closed else l.session }

/-- OPEN with a certificate: the nonce is discarded at its first OPEN, whatever the outcome (R585, R586). -/
def State.openWith (s : State) (c : List Byte) : State :=
  let r := s.certRefusal c
  let t := s.modLife LifeCycle.dropNonce
  match r with
  | some (0xF5, d) => t.reply 0xF5 [d]
  | some (code, d) => t.refuseReply code d
  | none => t.openSession (BitVec.ofNat 10 (certField c 6 2) &&& certRights t.life.fuse.toNat) (some (certField c 0x36 6))

/-- DBG_OPEN: with a certificate, or with nothing where rights are free (R586, R587; log 53). -/
def execDbgOpen (certificate : Option (List Byte)) (s : State) : Res :=
  mailbox (fun t =>
    if t.life.session = .opened then t.denyReply
    else match certificate with
      | some c => t.openWith c
      | none =>
        if freeRights t.life.effective = 0 then t.denyReply
        else if t.power.state = .slumber then t.reply 0xF5 [1]
        else if t.life.deny then t.reply 0xF5 [2]
        else t.openSession (freeRights t.life.effective) none) s

/-- DBG_CLOSE: END 1 (R590). -/
def execDbgClose (s : State) : Res :=
  mailbox (fun t => if t.life.session = .opened then (t.reply 0 []).closeSession 1 else t.denyReply) s

/-- NONCE_EXPIRY: 60 s after issue (R585). -/
def execNonceExpiry (s : State) : Res :=
  if s.life.nonce.isSome then .next (s.modLife LifeCycle.dropNonce) else s.same

/-- SESSION_EXPIRY: RTC seconds reach NOT_AFTER, END 2 (R590). -/
def execSessionExpiry (s : State) : Res :=
  match s.life.notAfter with
  | some n => if s.life.session = .opened ∧ n ≤ s.watch.rtcSec then .next (s.closeSession 2) else s.same
  | none => s.same

/-- The effect of DENY set: the session closes with END 5 and OPEN is refused until device reset (R590). -/
def State.setDeny (s : State) : State :=
  let t := s.closeSession 5
  if s.life.scanOpen then t else t.modLife fun l => { l with deny := true }

/-- DBG_CTRL: a write of 0 is ignored. -/
def execDbgCtrl (h : HandId) (data : Word) (s : State) : Res :=
  regWrite h 0xE009 3 (fun t => if data.getLsbD 0 then t.setDeny else t) s

/-! ### Life-cycle advances (R574 to R577) -/

/-- The DETAIL that refuses an advance, none where it starts; every caller but the mailbox states CONFIRM
(Life-cycle advances table, R576; log 56). -/
def State.advanceRefusal (s : State) (mail : Bool) (target : Nat) : Option Nat :=
  let from_ := s.life.fuse.toNat
  if s.life.trial.isSome then some 3
  else if s.startup.pfw then some 4
  else if !isAdvance from_ target || s.life.blowing.isSome || s.life.pending.isSome then some 1
  else if mail && !(decide (from_ ≤ 1)) then some 1
  else if !mail && from_ == 0 && target == 1 then some 1
  else if from_ = 0 ∧ target = 1 ∧ !Config.dukProgrammed then some 2
  else if from_ = 1 ∧ target = 2 ∧ !(Config.hashesProgrammed && Config.dakProvisioned) then some 2
  else none

/-- LC_RESULT. -/
def State.lcResult (s : State) (status detail : Nat) : State :=
  s.modLife fun l => { l with status := BitVec.ofNat 8 status, detail := BitVec.ofNat 8 detail }

/-- An advance starts, or is refused with LC_REFUSED. -/
def State.advance (s : State) (mail : Bool) (target : Nat) (refusal : Option Nat) : State :=
  match refusal with
  | some d =>
    let t := (s.record 0xF0 d).lcResult 0xF0 d
    if mail then t.reply 0xF0 [d] else t
  | none =>
    let t := (s.modLife fun l => { l with blowing := some (BitVec.ofNat 8 target) }).lcResult 0 0
    if mail then t.reply 0 [] else t

/-- The effect of a write of LC_ADVANCE: CONFIRM first, then R574 and R576. -/
def State.writeLcAdvance (s : State) (confirm target : Nat) : State :=
  s.advance false target (if confirm ≠ 255 - target then some 5 else s.advanceRefusal false target)

/-- LC_ADVANCE: a write of the register at WS, or the mailbox command of BLANK and FACTORY with an open
session. -/
def execLcAdvance (by_ : LcRequester) (target : Byte) (s : State) : Res :=
  match by_ with
  | .hand h confirm => regWrite h 0xE001 3 (fun t => t.writeLcAdvance confirm.toNat target.toNat) s
  | .mailbox => mailbox (fun t =>
      if t.life.session ≠ .opened || decide (2 ≤ t.life.effective) then t.denyReply
      else t.advance true target.toNat (t.advanceRefusal true target.toNat)) s

/-- TERMINATED takes effect as its advance ends (R577). -/
def State.terminate (s : State) : State :=
  let scan := s.life.scanOpen
  let t := s.lifeChange fun l => { l with fuse := 5, agree := 7 }
  let t := (t.endSession 6).purgeResponse
  let t := t.modVault fun v => { v with mode := .none, ikek := none, ckek := none, dak := none, lwks := [] }
  if scan then t.deviceReset 0x20 else t

/-- FUSE_ADVANCE_END: every bit is blown; the new state waits for the next device reset, TERMINATED does
not (R575, R577). -/
def execFuseAdvanceEnd (s : State) : Res :=
  match s.life.blowing with
  | none => s.same
  | some t =>
    let u := s.modLife fun l => { l.blowFirst 96 with blowing := none }
    if t = 5 then .next u.terminate
    else .next (u.lifeChange fun l => { l with pending := some t })

/-! ### Trial states (R578 to R581) -/

/-- A token matches its slot (R579). -/
def tokenMatches (slot : Nat) (stateCode : Byte) (preimage : List Byte) : Bool :=
  decide (slot < 32) &&
    (sha384 (preimage ++ beOctets 8 Config.serial.toNat ++ [stateCode])).take 32 == Config.tokenSlot slot

/-- The DETAIL that refuses a Trial entry (R578, Trial entry table; log 57). -/
def State.trialRefusal (s : State) (slot : Nat) (stateCode : Byte) (preimage : List Byte) : Option Nat :=
  let fuse := s.life.fuse.toNat
  if !(fuse == 1 || fuse == 2 || fuse == 4) || !(decide (0x11 ≤ stateCode.toNat) && decide (stateCode.toNat ≤ 0x13)) then some 1
  else if !s.life.window then some 4
  else if fuse = 1 then none
  else if s.life.spent.contains slot then some 2
  else if tokenMatches slot stateCode preimage then none
  else some 3

/-- TRIAL_ENTER: the used fuse, then the Trial register, then a device reset (R580). -/
def execTrialEnter (slot : Nat) (stateCode : Byte) (preimage : List Byte) (s : State) : Res :=
  mailbox (fun t =>
    match t.trialRefusal slot stateCode preimage with
    | some d => t.refuseReply 0xF1 d
    | none =>
      let u := if t.life.fuse = 1 then t else t.modLife fun l => { l with spent := slot :: l.spent }
      ((u.lifeChange fun l => { l with trial := some stateCode }).reply 0 []).deviceReset 0x40) s

/-! ### Commands of an open session (R588, R591, R592, R595) -/

/-- DBG_HALT. -/
def execDbgHalt (hand : HandId) (s : State) : Res :=
  wakeWith (fun t => t.mayHaltHand hand.toNat)
    (fun t => ((t.modHand hand.toNat fun x => { x with halted := true, stepOne := false }).settle).reply 0 []) s

/-- DBG_RESUME. -/
def execDbgResume (hand : HandId) (s : State) : Res :=
  mailbox (fun t =>
    if t.mayHaltHand hand.toNat then
      ((t.modHand hand.toNat fun x => { x with halted := false, stepOne := false }).settle).reply 0 []
    else t.denyReply) s

/-- DBG_STEP: a halted Hand runs one instruction and halts again. -/
def execDbgStep (hand : HandId) (s : State) : Res :=
  mailbox (fun t =>
    if t.mayHaltHand hand.toNat then
      let u := if (t.hand hand.toNat).halted then
          (t.modHand hand.toNat fun x => { x with halted := false, stepOne := true }).settle
        else t
      u.reply 0 []
    else t.denyReply) s

/-- TRACE of a Hand the session may halt. -/
def execTrace (hand : HandId) (op : TraceOp) (s : State) : Res :=
  wakeWith (fun t => t.life.has 4 && t.mayHaltHand hand.toNat)
    (fun t => match op with
      | .start => (t.modLife fun l => { l with traces := aput l.traces hand.toNat [] }).reply 0 []
      | .stop => (t.modLife fun l => { l with traces := aerase l.traces hand.toNat }).reply 0 []
      | .read => t.reply 0 ((aget [] t.life.traces hand.toNat).map (·.toNat))) s

/-- The flash address of a word of a run: a run in the archive goes on from the end of P7 at P4, as its sectors form
a ring (R636; log 122). -/
def runAddr (ring : Bool) (a : Nat) : Nat :=
  if ring then archiveAddr 0 + (a - archiveAddr 0) % 16384 else a % 2 ^ 24

/-- Flash words read in a run, with what an uncorrectable one records (R486). -/
def flashRun (ring : Bool) (a : Nat) : Nat → State → List Nat × State
  | 0, s => ([], s)
  | n + 1, s =>
    let r := s.flashReadWord (runAddr ring a)
    let t := flashRun ring (a + 1) n r.2
    (r.1.toNat :: t.1, t.2)

/-- A run of flash words is read for the debugger and answered: it waits while a bank it needs is programming, and
suspends an erase there (R486, R491). -/
def State.debugRead (s : State) (ring : Bool) (a count : Nat) : State :=
  let banks := [false, true].filter fun b => (List.range count).any fun i => bankOf (runAddr ring (a + i)) == b
  if banks.any fun b => s.flash.programming b then
    s.modLife fun l => { l with readOwed := some (a, count), readRing := ring }
  else
    let r := flashRun ring a count
      (banks.foldl State.suspendErase (s.modLife fun l => { l with readOwed := none, readRing := false }))
    r.2.reply 0 r.1

/-- A debug read that waited for a program goes on (R491). -/
def State.retryDebugRead (s : State) : State :=
  match s.life.readOwed with
  | some r => if s.mailboxLive && decide (s.life.session = .opened) then s.debugRead s.life.readRing r.1 r.2 else s
  | none => s

/-- PARISH_READ: words of the ring, or of the archive from a line (R632). -/
def execParishRead (first count : Nat) (archive : Bool) (s : State) : Res :=
  mailbox (fun t =>
    if !t.life.has 5 then t.denyReply
    else if archive then t.debugRead true (archiveAddr first) count
    else t.reply 0 ((List.range count).map fun i => (aget 0 t.parish.ring ((first + i) % 16384)).toNat)) s

/-- FLASH_READ of any flash word. -/
def execFlashRead (address count : Nat) (s : State) : Res :=
  mailbox (fun t =>
    if !t.life.has 6 then t.denyReply else t.debugRead false address count) s

/-- POWER_HOLD on or off (R595). -/
def execPowerHold (on : Bool) (s : State) : Res :=
  mailbox (fun t =>
    if t.life.has 7 then (t.modLife fun l => { l with powerHold := on }).reply 0 [] else t.denyReply) s

/-- SCAN: the captured bits; the session's close will PURGE and reset (R591). -/
def execScan (chain bits : Nat) (data : List Bool) (s : State) : Res :=
  wakeWith (fun t => t.life.has 8)
    (fun t => (t.modLife fun l => { l with scanUsed := true }).reply 0 ((Config.scanCapture chain bits data).map b2n)) s

/-- RAW: raw samples of a noise source, as ENT_RAW (R465, R466). -/
def execRaw (source : Fin 4) (samples : List Bool) (s : State) : Res :=
  wakeWith (fun t => t.life.has 9)
    (fun t => (t.readRaw source samples).2.reply 0 ((t.readRaw source samples).1.map b2n)) s

end Sys2Proof.Machine
end

