-- ==== Sys2Proof/Machine/Watch.lean ====
section
/-!
DEFINITION. Sys2Proof/Machine/Watch.lean: the monitors, the response engine, the self-test, the RTC and
the Watch window's commands (file 18).
-/
namespace Sys2Proof.Machine

/-! ### Monitors and floors (R598, R608) -/

/-- The response a monitor's alarm calls for: RESP, 6 and 7 as 5, or the floor (R601, R608). -/
def State.monResp (s : State) (m : Nat) : Nat := max (min 5 (s.watch.mon m).resp) (s.life.floor m)

/-- A write of WT_MONm: once its lock is set only what makes it stronger takes effect (R621). -/
def State.writeMon (s : State) (m : Nat) (data : Word) : State :=
  let c := s.watch.mon m
  let en := data.getLsbD 35
  let resp := wfield data 14 12
  let n := wfield data 11 8
  let w := wfield data 7 0
  let locked := if m < 8 then s.watch.wlock else s.watch.mlock
  let d : MonitorCfg :=
    if locked then
      { en := c.en || en, resp := if s.monResp m < min 5 resp then resp else c.resp, n := min c.n n, w := max c.w w }
    else { en := en, resp := resp, n := n, w := w }
  s.modWatch fun k => { k with mons := aput k.mons m d }

/-! ### The Watch Log (R623) -/

/-- A new entry; a full log loses its oldest. -/
def Watch.addEntry (w : Watch) (mon resp : Nat) (main : Bool) : Watch :=
  let e : WatchEntry := { sec := w.rtcSec, mon := mon, resp := resp, main := main }
  if 16 ≤ w.log.length then { w with log := w.log.drop 1 ++ [e], lost := satInc w.lost 15 }
  else { w with log := w.log ++ [e] }

/-! ### Alarms (R600 to R613) -/

/-- The alarms that count as such: not of a monitor in self-test, a disabled loop or switch, a rail while
PFW_N is asserted or before the start-up self-test, or a monitor whose side is without power (R600, R611,
R617, WT_MON). -/
def State.liveAlarms (s : State) (alarms : List Nat) : List Nat :=
  alarms.filter fun m =>
    !(s.watch.testRun == some m)
      && (decide (6 ≤ m) || (s.watch.mon m).en)
      && !(decide (8 ≤ m) && decide (m ≤ 13) && (s.startup.pfw || !s.watch.railsLive))
      && (if m < 8 then !s.watch.noVbat
          else !s.watch.mainDark && decide (s.power.state ≠ .dormant) && !s.startup.inReset)

/-- The mask of a list of monitors. -/
def monMask (ms : List Nat) : BitVec 28 := BitVec.ofNat 28 (ms.foldl (fun a m => a ||| 2 ^ m) 0)

/-- Latch the members of a set with their responses; WATCH_OSC makes the RTC invalid (R601, R604, R610). -/
def Watch.latchSet (w : Watch) (set : List (Nat × Nat)) (top : Nat) : Watch :=
  { w with
    latch := w.latch ||| monMask (set.map (·.1))
    strongLatch := w.strongLatch ||| monMask ((set.filter fun p => decide (2 ≤ p.2)).map (·.1))
    strongest := max w.strongest top
    rtcValid := w.rtcValid && !set.any fun p => p.1 == 6 }

/-- ERASE in the Watch domain: BBKR zeroised, TAMPERED latched, WLOCK cleared (R601, R609, R621). -/
def Watch.erase (w : Watch) (mon : Nat) : Watch :=
  { w with bbkr := none, tampered := true, wlock := false, eraseOwed := some mon }

/-- The Watch Log entries of a set: one for each of monitors 0 to 7, and one for a PURGE or ERASE of
another (R623). -/
def Watch.logSet (w : Watch) (set : List (Nat × Nat)) (top strong : Nat) (main : Bool) : Watch :=
  let t := (set.filter fun p => decide (p.1 < 8)).foldl (fun u p => u.addEntry p.1 top main) w
  if 4 ≤ top ∧ 8 ≤ strong then t.addEntry strong top main else t

/-- The main side is unpowered: a loop or switch erases, whatever its RESP; 6 and 7 only latch (R609). -/
def State.batteryAlarm (s : State) (m : Nat) : State :=
  s.watchChange fun w =>
    if m < 6 then ((w.latchSet [(m, 5)] 5).addEntry m 5 false).erase m
    else (w.latchSet [(m, 0)] 0).addEntry m 0 false

/-- In Dormant the Watch domain latches, logs and erases; the rest of the response has nothing to act on
(R557, Power states table; log 58). -/
def State.dormantAlarm (s : State) (set : List (Nat × Nat)) (top strong : Nat) : State :=
  (s.watchChange fun w =>
    let u := (w.latchSet set top).logSet set top strong true
    let u := { u with halted := u.halted || decide (2 ≤ top) }
    if top = 5 then u.erase strong else u).signalPme

/-- The response engine acts on one set of alarms, each with its response: the strongest is taken, every
member is latched and recorded, and its effects follow in the order of the Responses table (R601 to R605). -/
def State.respond (s : State) (set : List (Nat × Nat)) : State :=
  let top := set.foldl (fun a p => max a p.2) 0
  let strong := ((set.filter fun p => p.2 == top).map (·.1)).foldl min 27
  if s.power.state = .dormant then s.dormantAlarm set top strong
  else
    let scan := decide (2 ≤ top) && s.life.scanOpen
    let t := if 2 ≤ top then s.endSession 3 else s
    let t := t.watchChange fun w => (w.latchSet set top).logSet set top strong true
    let t := set.foldl (fun u p => u.record 0xF9 (p.1 + top * 2 ^ 8)) t
    let t := if 1 ≤ top then t.notifyAlarm else t
    let t := if 2 ≤ top then t.haltAll strong else t
    let t := if 4 ≤ top ∨ scan then t.purge else t
    let t := if top = 5 then
        (t.watchChange fun w => w.erase strong).modVault fun v =>
          { v with mode := if v.mode = .opened ∨ v.mode = .trial then .hold else v.mode, ckek := none }
      else t
    let reset := top == 3 || top == 5 || set.any fun p => p.2 == 3
    if reset || scan then t.deviceReset ((if reset then 8#7 else 0#7) ||| (if scan then 0x20#7 else 0#7)) else t

/-- MONITOR_ALARM: the alarms decided in one sample period (R601, R604, R609). -/
def execMonitorAlarm (alarms : List (Fin 28)) (s : State) : Res :=
  let ms := s.liveAlarms (alarms.map (·.val)).eraseDups
  if ms.isEmpty then s.same
  else if s.watch.mainDark then .next (ms.foldl State.batteryAlarm s)
  else .next (s.respond (ms.map fun m => (m, s.monResp m)))

/-! ### Watch power (R609 to R611) -/

/-- What a loss of every content leaves; the RTC's count is open (R611; log 10). -/
def State.clearWatch (s : State) : State :=
  let a := s.freeValue
  let b := a.2.freeValue
  b.2.watchChange fun w => { w with
    tampered := false, bbkr := none, rtcValid := false, halted := false, wlock := false, mlock := false
    strongest := 0, lost := 0, log := [], latch := w.latch &&& 0xFFFFF00#28, strongLatch := w.strongLatch &&& 0xFFFFF00#28
    mons := w.mons.filter fun kv => decide (8 ≤ kv.1)
    rtcSec := a.1 % 2 ^ 48, rtcFrac := b.1 % 2 ^ 15, rtcRest := 0, eraseOwed := none }

/-- VBAT_LOSS: below 2.0 V the Watch domain may lose every content (R611; log 10). -/
def execVbatLoss (s : State) : Res :=
  if s.watch.noVbat then s.same
  else
    let v := s.freeValue
    let t := v.2.modWatch fun w => { w with noVbat := true }
    .next (if v.1 % 2 = 1 then t.clearWatch else t)

/-- The Watch domain draws a loop's seed from its own noise cell: free, and not zero (R599; log 101). -/
def State.drawLoop (s : State) (n : Nat) : State :=
  let v := s.freeValue
  v.2.modWatch fun w => { w with loops := aput w.loops n (1 + v.1 % 32767) }

/-- WATCH_POWER_ON_RESET: VBAT rises again, and every loop gets a new seed (R599, R611). -/
def execWatchPowerOnReset (s : State) : Res :=
  if s.watch.noVbat then
    .next ((List.range 4).foldl State.drawLoop (s.clearWatch.modWatch fun w => { w with noVbat := false, loopTicks := 0 }))
  else s.same

/-! ### WT_CTRL (R602, R621, R623) -/

/-- RESUME: HALTED clears while no latch of a HALT-or-stronger alarm remains. -/
def State.resumeHalted (s : State) : State :=
  if s.watch.strongLatch = 0 then s.watchChange fun w => { w with halted := false } else s

/-- LOGCLR: ignored while TAMPERED. -/
def State.clearLog (s : State) : State :=
  if s.watch.tampered then s else s.modWatch fun w => { w with log := [], lost := 0 }

/-- The effect of a write of WT_CTRL. -/
def State.writeWtCtrl (s : State) (data : Word) : State :=
  let t := if data.getLsbD 3 then s.clearLog else s
  let t := if data.getLsbD 2 then t.resumeHalted else t
  t.modWatch fun w => { w with wlock := w.wlock || data.getLsbD 1, mlock := w.mlock || data.getLsbD 0 }

/-- LOGCLR. -/
def execLogclr (h : HandId) (s : State) : Res := regWrite h 0xB002 3 (fun t => t.writeWtCtrl 8) s
/-- RESUME. -/
def execResume (h : HandId) (s : State) : Res := regWrite h 0xB002 3 (fun t => t.writeWtCtrl 4) s
/-- WLOCK. -/
def execWlock (h : HandId) (s : State) : Res := regWrite h 0xB002 3 (fun t => t.writeWtCtrl 2) s
/-- MLOCK. -/
def execMlock (h : HandId) (s : State) : Res := regWrite h 0xB002 3 (fun t => t.writeWtCtrl 1) s

/-- WT_MON. -/
def execWtMon (h : HandId) (monitor : Fin 28) (data : Word) (s : State) : Res :=
  regWrite h (0xB008 + monitor) 3 (fun t => t.writeMon monitor data) s

/-- A write of WT_LATCH: W1C; STRONGEST starts again when no latch is left. -/
def State.clearLatch (s : State) (data : Word) : State :=
  s.watchChange fun w =>
    let l := w.latch &&& ~~~(data.setWidth 28)
    { w with latch := l, strongLatch := w.strongLatch &&& l, strongest := if l = 0 then 0 else w.strongest }

/-! ### Self-test (R617 to R619) -/

/-- The effect of a write of WT_TEST: MON, and GO unless a test runs or MON names no monitor. -/
def State.writeWtTest (s : State) (data : Word) : State :=
  let m := wfield data 4 0
  s.modWatch fun w => { w with
    testMon := m
    testRun := if data.getLsbD 5 && w.testRun.isNone && decide (m < 28) then some m else w.testRun }

/-- MONITOR_SELFTEST: WT_TEST.GO. -/
def execMonitorSelftest (h : HandId) (monitor : BitVec 5) (s : State) : Res :=
  regWrite h 0xB003 3 (fun t => t.writeWtTest (wd (32 + monitor.toNat))) s

/-- A self-test's outcome: its record, and a failure as an alarm at NOTIFY, or LOG where RESP is LOG (R618). -/
def State.selftestDone (s : State) (m : Nat) (pass : Bool) : State :=
  let t := s.record 0xFB (m + (if pass then 1 else 2) * 2 ^ 8)
  if pass then t else t.respond [(m, min 1 (t.monResp m))]

/-- MONITOR_SELFTEST_END: the monitor's sample history is cleared (R618, R619). -/
def execMonitorSelftestEnd (pass : Bool) (s : State) : Res :=
  match s.watch.testRun with
  | none => s.same
  | some m =>
    .next ((s.modWatch fun w => { w with
      testRun := none, testResult := if pass then 1 else 2
      samples := aerase w.samples m, reported := w.reported &&& ~~~(1#28 <<< m) }).selftestDone m pass)

/-! ### The RTC (R615, R616) -/

/-- A write of WT_RTC_LO loads the RTC; the record names the old and the new seconds (R615; log 59). -/
def State.loadRtc (s : State) (data : Word) : State :=
  let old := s.watch.rtcSec
  let new := s.watch.rtcHi.toNat * 2 ^ 36 + data.toNat
  let t := s.watchChange fun w => { w with rtcSec := new, rtcFrac := 0, rtcRest := 0, rtcValid := true }
  t.recordBody 0 0xF9 31 t.devicePath [wd (old / 2 ^ 36), wd old, wd (new / 2 ^ 36), wd new]

/-- RTC_LOAD. -/
def execRtcLoad (h : HandId) (data : Word) (s : State) : Res := regWrite h 0xB005 3 (fun t => t.loadRtc data) s

/-- A read of WT_RTC_LO captures the other two. -/
def readRtcLo (s : State) : IoRes :=
  .done (wd s.watch.rtcSec) (s.modWatch fun w => { w with capture := (w.rtcSec / 2 ^ 36, w.rtcFrac) })

/-- RTC_CAPTURE. -/
def execRtcCapture (h : HandId) (s : State) : Res := regAccess h 0xB005 false 3 readRtcLo s

/-! ### The window's other registers (R622, R624) -/

/-- AL_LATCH, FSW_ALARM. -/
def Watch.alLatch (w : Watch) : Nat := w.summaryBits * 2 ^ 56 + w.latch.toNat

/-- AL_LOG n: an entry as one 64-bit word. -/
def WatchEntry.alLog (e : WatchEntry) : Nat :=
  2 ^ 63 + b2n e.main * 2 ^ 56 + e.resp * 2 ^ 53 + e.mon * 2 ^ 48 + e.sec % 2 ^ 48

/-- A write of the Watch window, by offset. -/
def watchWrite (off : Nat) (data : Word) (s : State) : State :=
  match off with
  | 1 => s.clearLatch data
  | 2 => s.writeWtCtrl data
  | 3 => s.writeWtTest data
  | 4 => s.modWatch fun w => { w with rtcHi := data.setWidth 12 }
  | 5 => s.loadRtc data
  | _ => if 8 ≤ off ∧ off < 36 then s.writeMon (off - 8) data else s

end Sys2Proof.Machine
end

