-- ==== Sys2Proof/Machine/Cards.lean ====
section
/-!
DEFINITION. Sys2Proof/Machine/Cards.lean: the card gates and Carrier cards (file 20).
-/
namespace Sys2Proof.Machine

/-! ### The gate's registers (R662) -/

/-- IO address of a gate's registers. -/
def gateBase (gate : Bool) : Nat := if gate then 0x9040 else 0x9000
/-- The gate's event: source 20 or 21 (R663). -/
def State.gateEvent (s : State) (gate : Bool) : State := s.interruptAll (if gate then 21 else 20)
/-- A reserved encoding of a field acts as 0 (R14). -/
def orZero (n max : Nat) : Nat := if n ≤ max then n else 0

/-- A write of CG_CTRL: MODE is kept while BUSY; a change of MODE deactivates every card (R662). -/
def State.writeGateCtrl (s : State) (b : Bool) (data : Word) : State :=
  let g := s.gate b
  let mode := if g.op.isSome then g.mode else orZero (wfield data 1 0) 2
  let t := s.modGate b fun k => { k with
    cstop := wfield data 26 15, clkdiv := wfield data 14 8, isoclk := orZero (wfield data 7 5) 3
    classmax := orZero (wfield data 4 3) 2, width4 := data.getLsbD 2, mode := mode }
  if mode = g.mode then t
  else
    let u := (t.dropCards b).modGate b Gate.drop
    if g.seats.any fun kv => kv.2.state != 0 then u.gateEvent b else u

/-- CG_CTRL. -/
def execCgCtrl (h : HandId) (gate : Bool) (data : Word) (s : State) : Res :=
  regWrite h (gateBase gate) 3 (fun t => t.writeGateCtrl gate data) s

/-- A write of CG_CLAIM (R642). -/
def State.writeClaim (s : State) (h : Nat) (b claim : Bool) : State :=
  s.modGate b fun g =>
    if claim then (if g.owner.isNone then { g with owner := some h } else g)
    else if g.owner = some h then { g with owner := none } else g

/-- CG_CLAIM. -/
def execCgClaim (h : HandId) (gate : Bool) (claim : Bool) (s : State) : Res :=
  regWrite h (gateBase gate + 2) 3 (fun t => t.writeClaim h.toNat gate claim) s

/-- An access only the claimant may make (R642). -/
def claimed (h addr : Nat) (gate : Bool) (k : State → IoRes) (s : State) : IoRes :=
  if (s.gate gate).owner = some h then k s else .fault s addr

/-- An access to CG_BDATA: LOOSE octets of the buffer word, then CG_BPTR advances (R662). -/
def bdataAccess (gate : Bool) (write : Option Word) (s : State) : IoRes :=
  let g := s.gate gate
  let v := aget 0 g.buf g.bptr
  .done v (s.modGate gate fun k => { k with
    bptr := (k.bptr + 1) % 72
    buf := match write with
      | some d => aset 0 k.buf k.bptr (d &&& 0xFFFFFFFF#36)
      | none => k.buf })

/-- CG_BDATA. -/
def execCgBdata (h : HandId) (gate : Bool) (write : Option Word) (s : State) : Res :=
  let addr := gateBase gate + 6
  regAccess h addr write.isSome 3 (claimed h.toNat addr gate (bdataAccess gate write)) s

/-! ### Commands (R644) -/

/-- Fields of CG_CMD. -/
def cgOp (w : Word) : Nat := wfield w 35 32
def cgTx (w : Word) : Nat := wfield w 28 20
def cgSeat (w : Word) : Nat := wfield w 10 8
def cgBlock (w : Word) : Nat := wfield w 6 0

/-- Reserved OPs and fields, and what the mode and state allow (R644, check 1). -/
def Gate.cmdAllowed (g : Gate) (w : Word) : Bool :=
  let op := cgOp w
  let tx := cgTx w
  wfield w 31 29 == 0 && wfield w 19 11 == 0 && wfield w 7 7 == 0
    && (if op = 3 then decide (4 ≤ tx) && decide (tx ≤ 261) else if op = 9 then tx == 8 else tx == 0)
    && (match op with
      | 1 => g.mode == 1
      | 2 => g.mode == 1 || g.mode == 2
      | 3 => g.mode == 1 && g.state == 3
      | 4 => g.mode == 2
      | 5 | 7 | 8 | 9 => g.mode == 2 && g.state == 3
      | 6 => g.mode == 2 && g.state == 3 && decide (1 ≤ cgBlock w)
      | _ => false)

/-- The check that ends a command (R644); none where it starts. -/
def State.cardRefusal (s : State) (b : Bool) (w : Word) : Option Nat :=
  let g := s.gate b
  let op := cgOp w
  let st := (g.seat (cgSeat w)).state
  if !g.cmdAllowed w then some 0xD4
  else if s.startup.pfw then some 0xD5
  else if (op = 5 ∨ op = 6 ∨ op = 7 ∨ op = 9) ∧ st ≠ 1 ∨ op = 8 ∧ st ≠ 2 then some 0xD6
  else if op = 6 ∧ (s.journal.tokens = 0 ∨ 64 ≤ s.journal.pending.length) then some 0xD7
  else none

/-- Octets of the first n buffer octets. -/
def Gate.octets (g : Gate) (n : Nat) : List Byte := (packOut .loose (agetRun 0 g.buf 0 ((n + 3) / 4)) n)
/-- The buffer with octets placed from its start. -/
def Gate.place (g : Gate) (os : List Byte) : Gate := { g with buf := asetRun 0 g.buf 0 (packIn .loose os) }

/-- The intent of a WRITE (R656). -/
def State.writeIntent (s : State) (b : Bool) (w : Word) : Intent :=
  let seat := (s.gate b).seat (cgSeat w)
  { gate := b, seat := cgSeat w, block := cgBlock w, serial := seat.serial, oldCount := seat.count
    crc := crc32c ((s.gate b).octets 64), jseq := s.journal.jseq }

/-- How many buffer octets an operation sends to the card: a command APDU, a block, a PIN (R648, R653, R654). -/
def cardSends (w : Word) : Nat :=
  match cgOp w with
  | 3 | 9 => cgTx w
  | 6 => 64
  | _ => 0

/-- The octets that an operation sends to the card. -/
def State.sendCard (s : State) (b : Bool) (w : Word) : State :=
  if cardSends w = 0 then s else s.emit (.cardOctets b ((s.gate b).octets (cardSends w)))

/-- ACTIVATE starts at class C and SEAT runs at 1.8 V: VSEL is low, then VCC_EN enables the supply (R641, R645). -/
def Gate.power (g : Gate) (op : Nat) : Gate :=
  if op = 1 ∨ op = 4 then { g with vccEn := true, vselPin := false } else g

/-- A command the checks let through starts; a WRITE takes its token (R659). -/
def State.cardStart (s : State) (b : Bool) (w : Word) : State :=
  let op := cgOp w
  let t := s.modGate b fun g => { g.power op with
    op := some w, state := if op = 1 ∨ op = 4 then 2 else 4, clkStopped := none
    intent := if op = 6 then some (s.writeIntent b w) else none }
  let t := if op = 6 then t.modJournal fun j => { j with tokens := j.tokens - 1 } else t
  (t.sendCard b w).emit (.gatePin b (match op with
    | 1 => "ACTIVATE"
    | 2 => "DEACTIVATE"
    | 3 => "APDU"
    | 4 => "SEAT"
    | 5 => "READ"
    | 6 => "WRITE"
    | 7 => "SLEEP"
    | 8 => "WAKE"
    | _ => "UNLOCK"))

/-- A write of CG_CMD by the claimant: discarded while BUSY (R644). -/
def State.cardCmd (s : State) (b : Bool) (w : Word) : State :=
  if (s.gate b).op.isSome then s
  else match s.cardRefusal b w with
    | some c => s.modGate b fun g => { g with status := BitVec.ofNat 8 c }
    | none => s.cardStart b w

/-- A CG_CMD access. -/
def cmdAccess (h : Nat) (gate : Bool) (w : Word) (s : State) : IoRes :=
  claimed h (gateBase gate + 3) gate (fun t => .done 0 (t.cardCmd gate w)) s

/-- A CG_CMD row. -/
def cardRow (h : HandId) (gate : Bool) (w : Word) (s : State) : Res :=
  regAccess h (gateBase gate + 3) true 3 (cmdAccess h.toNat gate w) s

/-- The CG_CMD word of an operation. -/
def cardWord (op tx seat block : Nat) : Word := wd (op * 2 ^ 32 + tx * 2 ^ 20 + seat * 2 ^ 8 + block)

/-- ACTIVATE (R645). -/
def execActivate (h : HandId) (gate : Bool) (s : State) : Res := cardRow h gate (cardWord 1 0 0 0) s
/-- DEACTIVATE (R650). -/
def execDeactivate (h : HandId) (gate : Bool) (s : State) : Res := cardRow h gate (cardWord 2 0 0 0) s
/-- APDU (R648). -/
def execApdu (h : HandId) (gate : Bool) (txlen : BitVec 9) (s : State) : Res := cardRow h gate (cardWord 3 txlen.toNat 0 0) s
/-- SEAT (R651). -/
def execSeat (h : HandId) (gate : Bool) (s : State) : Res := cardRow h gate (cardWord 4 0 0 0) s
/-- CARD_READ (R654). -/
def execCardRead (h : HandId) (gate : Bool) (seat : BitVec 3) (block : BitVec 7) (s : State) : Res :=
  cardRow h gate (cardWord 5 0 seat.toNat block.toNat) s
/-- CARD_WRITE (R653). -/
def execCardWrite (h : HandId) (gate : Bool) (seat : BitVec 3) (block : BitVec 7) (s : State) : Res :=
  cardRow h gate (cardWord 6 0 seat.toNat block.toNat) s
/-- SLEEP (R654). -/
def execSleep (h : HandId) (gate : Bool) (seat : BitVec 3) (s : State) : Res := cardRow h gate (cardWord 7 0 seat.toNat 0) s
/-- CARD_WAKE (R654). -/
def execCardWake (h : HandId) (gate : Bool) (seat : BitVec 3) (s : State) : Res := cardRow h gate (cardWord 8 0 seat.toNat 0) s
/-- CARD_UNLOCK (R654). -/
def execCardUnlock (h : HandId) (gate : Bool) (seat : BitVec 3) (s : State) : Res :=
  cardRow h gate (cardWord 9 8 seat.toNat 0) s

/-! ### Ends of operations (R645 to R660) -/

/-- The operation ends with a status: BUSY clears, a claim kept for it is freed, source 20 or 21 (R643, R663). -/
def State.cardEnd (s : State) (b : Bool) (status : Nat) (state rxlen : Nat) (sw : BitVec 16) (replay : Bool) : State :=
  (s.modGate b fun g => { g with
    op := none, intent := none, status := BitVec.ofNat 8 status, state := state, rxlen := rxlen, sw := sw, replay := replay
    owner := if g.freeOwed then none else g.owner, freeOwed := false }).gateEvent b

/-- Every card is deactivated and the operation ends with a status. -/
def State.cardFail (s : State) (b : Bool) (status : Nat) : State :=
  (((s.modGate b Gate.drop).emit (.gatePin b "DEACTIVATE")).cardEnd b status 1 0 0 false)

/-- A seat whose card left: GONE while an intent for its serial is pending, else EMPTY (R655). -/
def State.leaveSeat (s : State) (b : Bool) (n : Nat) : State :=
  s.modGate b fun g =>
    let x := g.seat n
    if x.state = 0 then g
    else if s.journal.pending.any fun i => i.serial == x.serial then { g with seats := aput g.seats n { x with state := 3 } }
    else { g with seats := aerase g.seats n }

/-- The replay of one pending intent for a seated card (R657). -/
def State.replay (s : State) (b : Bool) (n : Nat) (count : BitVec 32) (i : Intent) : State :=
  let new := count == i.oldCount + 1
  let t := s.modGate b fun g =>
    { g with seats := amod {} g.seats n fun x => { x with count := if new then i.oldCount + 1 else i.oldCount } }
  let t := t.journalSettle (if new then 5 else 4) i
  t.replayRecord b n new

/-- Insert a card into its place by ascending serial. -/
def seatInsert (c : CardFound) : List CardFound → List CardFound
  | [] => [c]
  | d :: ds => if c.serial < d.serial then c :: d :: ds else d :: seatInsert c ds

/-- Cards by ascending serial (R651). -/
def seatOrder (cs : List CardFound) : List CardFound := cs.foldl (fun l c => seatInsert c l) []

/-- SEAT ends: seat s holds the card with the (s + 1)-th lowest serial, the bus takes what all allow, and
the journal is replayed (R651, R652, R657). -/
def State.seatCards (s : State) (b : Bool) (cards : List CardFound) (width4 : Bool) (clkdiv : Nat) (ninth : Bool) : State :=
  let cs := (seatOrder cards).take 8
  let t := s.modGate b fun g => { g with
    seats := (List.range cs.length).map fun n =>
      let c := cs.getD n { serial := 0, count := 0 }
      (n, { serial := c.serial, state := 1, count := c.count })
    width := width4 && g.width4, divUsed := max clkdiv g.clkdiv }
  let t := (List.range cs.length).foldl (fun u n =>
    let c := cs.getD n { serial := 0, count := 0 }
    (u.journal.pending.filter fun i => i.serial == c.serial).foldl (fun v i => v.replay b n c.count i) u) t
  t.cardEnd b 0 3 0 (BitVec.ofNat 16 (b2n ninth * 2 ^ 15 + cs.length)) false

/-- An ISO operation ends (R645 to R648). -/
def State.isoEnd (s : State) (b : Bool) (op : Nat) (a : CardAnswer) : State :=
  match a with
  | .atr cls t1 stop _ =>
    if op = 1 ∧ cls.toNat ≤ (s.gate b).classmax then
      (s.modGate b fun g => { g with
        cls := cls.toNat, vselPin := decide (1 ≤ cls.toNat), prot := t1, clockStop := stop }).cardEnd b 0 3 0 0 false
    else s.cardFail b 0xD2
  | .ok os =>
    if op = 3 then
      let n := min os.length 288
      (s.modGate b fun g => g.place (os.take 288)).cardEnd b 0 3 n (BitVec.ofNat 16 (beNat (os.drop (os.length - 2)))) false
    else s.cardFail b 0xD3
  | .noAnswer => s.cardFail b (if op = 1 then 0xD2 else 0xD3)
  | .removedEarly | .removed => s.cardFail b 0xD0
  | _ => s.cardFail b 0xD3

/-- A Carrier WRITE ends: INTENT and its outcome line (R653, R656, R660). -/
def State.writeEnd (s : State) (b : Bool) (w : Word) (a : CardAnswer) : State :=
  let n := cgSeat w
  match (s.gate b).intent with
  | none => s.cardEnd b 0xD3 3 0 0 false
  | some i => match a with
    | .removedEarly => (s.leaveSeat b n).cardEnd b 0xD0 3 0 0 false
    | .removed | .noAnswer => ((s.journalIntent i).leaveSeat b n).cardEnd b 0xD0 3 0 0 true
    | .committed c =>
      let t := (s.journalIntent i).journalSettle 2 i
      (t.modGate b fun g => { g with seats := amod {} g.seats n fun x => { x with count := c } }).cardEnd b 0 3 0
        (c.setWidth 16) false
    | _ => ((s.journalIntent i).journalSettle 3 i).cardEnd b 0xD3 3 0 0 false

/-- A READ, SLEEP, WAKE or UNLOCK ends (R654). -/
def State.carrierEnd (s : State) (b : Bool) (w : Word) (a : CardAnswer) : State :=
  let n := cgSeat w
  let seatTo (k : Nat) : State := s.modGate b fun g => { g with seats := amod {} g.seats n fun x => { x with state := k } }
  match a with
  | .ok os =>
    match cgOp w with
    | 5 => (s.modGate b fun g => g.place (padTo 64 (os.take 64))).cardEnd b 0 3 64 0 false
    | 7 => (seatTo 2).cardEnd b 0 3 0 0 false
    | 8 => (seatTo 1).cardEnd b 0 3 0 0 false
    | _ => s.cardEnd b 0 3 0 0 false
  | .denied => s.cardEnd b (if cgOp w = 5 ∨ cgOp w = 9 then 0xD8 else 0xD3) 3 0 0 false
  | .noAnswer | .removedEarly | .removed => (s.leaveSeat b n).cardEnd b 0xD0 3 0 0 false
  | _ => s.cardEnd b 0xD3 3 0 0 false

/-- The operation of a gate ends as the card answered. -/
def State.cardAnswer (s : State) (b : Bool) (w : Word) (a : CardAnswer) : State :=
  match cgOp w with
  | 2 => (s.modGate b Gate.drop).cardEnd b 0 1 0 0 false
  | 4 => match a with
    | .seated cards width4 clkdiv ninth =>
      if cards.isEmpty then s.cardFail b 0xD2 else s.seatCards b cards width4 clkdiv.toNat ninth
    | .noAnswer | .removedEarly | .removed => s.cardFail b 0xD2
    | _ => s.cardFail b 0xD3
  | 6 => s.writeEnd b w a
  | 5 | 7 | 8 | 9 => s.carrierEnd b w a
  | op => s.isoEnd b op a

/-- CARD_OP_END. -/
def execCardOpEnd (gate : Bool) (answer : CardAnswer) (s : State) : Res :=
  match (s.gate gate).op with
  | none => s.same
  | some w => .next (s.cardAnswer gate w answer)

/-! ### The pins (R641, R649, R650, R655) -/

/-- PRES_CHANGE: an ISO card that leaves is deactivated and its operation ends with CARD_REMOVED; a Carrier
bus pings its seats, and the silent ones leave; the seat of a running operation leaves with that operation's
end. -/
def execPresChange (gate : Bool) (level : Bool) (silent : List (Fin 8)) (s : State) : Res :=
  if (s.gate gate).pres = level then s.same
  else
    let t := s.modGate gate fun g => { g with pres := level }
    let g := t.gate gate
    if g.mode = 1 ∧ level then
      if g.op.isSome then .next (t.cardFail gate 0xD0)
      else .next (((t.dropCards gate).modGate gate Gate.drop).gateEvent gate)
    else if g.mode = 2 then
      let stays (n : Nat) : Bool := match g.op with
        | some w => decide (5 ≤ cgOp w) && cgSeat w == n
        | none => false
      .next (((silent.map (·.val)).foldl (fun u n => if stays n then u else u.leaveSeat gate n) t).gateEvent gate)
    else .next (t.gateEvent gate)

/-- CARD_SUPPLY_FAIL: every card is deactivated, a running operation ends with CARD_POWER (R641). -/
def execCardSupplyFail (gate : Bool) (s : State) : Res :=
  let g := s.gate gate
  if g.state < 2 then s.same
  else
    let t := (s.cutWrite gate).record 0xD5 0
    let left := decide (s.journal.pending.length < t.journal.pending.length)
    if g.op.isSome then .next ((t.cardFail gate 0xD5).modGate gate fun x => { x with replay := left })
    else .next (((t.dropCards gate).modGate gate Gate.drop).gateEvent gate)

/-- CARD_CLOCK_STOP: CLK stops at the level the ATR's indicator names, when it allows a stop (R649). -/
def execCardClockStop (gate : Bool) (s : State) : Res :=
  let g := s.gate gate
  match g.clockStop with
  | some level =>
    if g.mode = 1 ∧ g.state = 3 ∧ g.clkStopped.isNone then
      .next ((s.modGate gate fun k => { k with clkStopped := some level }).emit (.gatePin gate (if level then "CLK HIGH" else "CLK LOW")))
    else s.same
  | none => s.same

/-! ### The window by offset -/

/-- A write of the card window, by offset. -/
def cardWrite (h off : Nat) (data : Word) (s : State) : IoRes :=
  let b := decide (64 ≤ off)
  let r := off % 64
  let addr := 0x9000 + off
  if 128 ≤ off then .done 0 s
  else match r with
    | 0 => .done 0 (s.writeGateCtrl b data)
    | 2 => .done 0 (s.writeClaim h b (data.getLsbD 0))
    | 3 => cmdAccess h b data s
    | 5 => claimed h addr b (fun t => .done 0 (t.modGate b fun g => { g with bptr := wfield data 6 0 % 72 })) s
    | 6 => claimed h addr b (bdataAccess b (some data)) s
    | 7 => .done 0 (s.modGate b fun g => { g with vsel := wfield data 2 0 })
    | _ => .done 0 s

/-- A stalling or claimant's read of the card window (R132, R642). -/
def cardRead (h off : Nat) (s : State) : Option IoRes :=
  let b := decide (64 ≤ off)
  let addr := 0x9000 + off
  if 128 ≤ off then none
  else match off % 64 with
    | 3 => some (claimed h addr b (fun t => .done 0 t) s)
    | 5 => some (claimed h addr b (fun t => .done (wd (t.gate b).bptr) t) s)
    | 6 => some (claimed h addr b (bdataAccess b none) s)
    | 11 => some (if (s.gate b).op.isSome then .stall s else .done (s.gate b).resultWord s)
    | _ => none

end Sys2Proof.Machine
end

