-- ==== Sys2Proof/Machine/Control.lean ====
section
/-!
DEFINITION. Sys2Proof/Machine/Control.lean: control transfer and the return stack (R87 to R91,
R133 to R135).
-/
namespace Sys2Proof.Machine

/-- The return stack bank of the world in ST (R87). -/
def Hand.bank (x : Hand) : RetStack := if x.st.getLsbD 35 then x.rsW else x.rsC
/-- Replace the bank of the world in ST. -/
def Hand.setBank (x : Hand) (r : RetStack) : Hand := if x.st.getLsbD 35 then { x with rsW := r } else { x with rsC := r }
/-- ST.RSW: TRAP (R90). -/
def Hand.trapStack (x : Hand) : Bool := x.st.getLsbD 31

/-- The push of a CALL; at DEPTH 16 the oldest entry goes and DEPTH stays 16 (R88, R89). -/
def RetStack.push (r : RetStack) (addr : BitVec 16) : RetStack :=
  { entries := aset 0 r.entries (r.top + 1).toNat addr, top := r.top + 1, depth := min 16 (r.depth + 1) }

/-- The entry at TOP. -/
def RetStack.peek (r : RetStack) : BitVec 16 := aget 0 r.entries r.top.toNat

/-- The pop of a RET: TOP falls by one; DEPTH too, but not below 0 (R88, R89). -/
def RetStack.pop (r : RetStack) : RetStack := { r with top := r.top - 1, depth := r.depth - 1 }

/-- A call to an address: RSTACK_OVER under TRAP at DEPTH 16 (R88, R90). -/
def callAct (h : Nat) (target : BitVec 16) (s : State) (x : Hand) : Act :=
  if x.trapStack && decide (16 ≤ x.bank.depth) then .raise s 6 (wd (x.pc + 1).toNat) false
  else .goto (s.setHand h (x.setBank (x.bank.push (x.pc + 1)))) target

/-- A branch taken when the comparison holds. -/
def branchAct (taken : Hand → Bool) (target : BitVec 16) (s : State) (x : Hand) : Act :=
  if taken x then .goto s target else .step s x

/-- JMP (R134). -/
def execJmp (h : HandId) (target : BitVec 16) (s : State) : Res :=
  issueOn h false (fun s _ => .goto s target) s
/-- CALL (R134). -/
def execCall (h : HandId) (target : BitVec 16) (s : State) : Res := issueOn h false (callAct h target) s
/-- BEQ (R134). -/
def execBeq (h : HandId) (a b : Reg) (target : BitVec 16) (s : State) : Res :=
  issueOn h false (branchAct (fun x => x.reg a == x.reg b) target) s
/-- BNE (R134). -/
def execBne (h : HandId) (a b : Reg) (target : BitVec 16) (s : State) : Res :=
  issueOn h false (branchAct (fun x => x.reg a != x.reg b) target) s
/-- BLT (R134). -/
def execBlt (h : HandId) (a b : Reg) (target : BitVec 16) (s : State) : Res :=
  issueOn h false (branchAct (fun x => (x.reg a).slt (x.reg b)) target) s
/-- BGE (R134). -/
def execBge (h : HandId) (a b : Reg) (target : BitVec 16) (s : State) : Res :=
  issueOn h false (branchAct (fun x => !(x.reg a).slt (x.reg b)) target) s
/-- BLTU (R134). -/
def execBltu (h : HandId) (a b : Reg) (target : BitVec 16) (s : State) : Res :=
  issueOn h false (branchAct (fun x => (x.reg a).ult (x.reg b)) target) s
/-- BGEU (R134). -/
def execBgeu (h : HandId) (a b : Reg) (target : BitVec 16) (s : State) : Res :=
  issueOn h false (branchAct (fun x => !(x.reg a).ult (x.reg b)) target) s
/-- JR ignores bits 35:16 of b (R135). -/
def execJr (h : HandId) (b : Reg) (s : State) : Res :=
  issueOn h false (fun s x => .goto s ((x.reg b).setWidth 16)) s
/-- CALLR (R134, R135). -/
def execCallr (h : HandId) (b : Reg) (s : State) : Res :=
  issueOn h false (fun s x => callAct h ((x.reg b).setWidth 16) s x) s
/-- RET: RSTACK_UNDER under TRAP at DEPTH 0 (R88 to R90). -/
def execRet (h : HandId) (s : State) : Res :=
  issueOn h false (fun s x =>
    if x.trapStack && x.bank.depth == 0 then .raise s 7 0 false
    else .goto (s.setHand h (x.setBank x.bank.pop)) x.bank.peek) s

end Sys2Proof.Machine
end

