-- ==== Sys2Proof/Machine/Measure.lean ====
section
/-!
DEFINITION. Sys2Proof/Machine/Measure.lean: the SPDM measurement blocks (R214, R408).
-/
namespace Sys2Proof.Machine

/-- Lower of two octet strings, as numbers of equal length. -/
def hashLe (a b : List Byte) : Bool := decide (beNat a ≤ beNat b)

/-- Hashes in ascending order. -/
def sortHashes (l : List (List Byte)) : List (List Byte) :=
  l.foldr (fun x acc => acc.takeWhile (fun y => !hashLe x y) ++ x :: acc.dropWhile (fun y => !hashLe x y)) []

/-- The content of measurement blocks 1 to 6; the layout of blocks 2, 4 and 5 is the model's (log 109). -/
def State.measurement (s : State) (block : Nat) : List Byte :=
  match block with
  | 1 => Config.romHash
  | 2 => s.startup.fwHash ++ beOctets 4 s.startup.fwVersion.toNat
  | 3 => sha384 (words40 s.ucode.image)
  | 4 => BitVec.ofNat 8 s.life.effective :: Config.securityFuses
  | 5 => [BitVec.ofNat 8 (b2n s.watch.tampered + 2 * b2n s.watch.bbkr.isSome)]
  | 6 => sha384 (sortHashes (s.steward.almanacs.map fun kv => sha384 kv.2.image)).flatten
  | _ => []

end Sys2Proof.Machine
end

