-- ==== Sys2Proof/Machine/TagOps.lean ====
section
/-!
DEFINITION. Sys2Proof/Machine/TagOps.lean: the Custody Tag's field side and wired side (file 21).
-/
namespace Sys2Proof.Machine

/-! ### Field states (R666, R668, R682) -/

/-- The wired side works: domain 101 is on (R667). -/
def State.tagWired (s : State) : Bool := s.domainOn 101 && !s.watch.mainDark && !s.startup.inReset

/-- An event of R686: source 22 while IEN is 1. -/
def State.tagEvent (s : State) : State := if s.tag.ien && s.tagWired then s.interruptAll 22 else s

/-- What the device reports of the tag: each page of the field-write map, and counts that rose (R687). -/
def State.tagReport (s : State) : State :=
  if !s.tagWired then s
  else
    let map := s.tag.fieldMap
    let t := ((List.range 64).filter fun p => map.testBit p).foldl (fun u p => u.record 0xDF p) s
    let t := if map = 0 then t else t.modTag fun g => g.setMap 0
    let pwd := s.tag.pwdFails
    let aes := s.tag.aesFails
    let t := if s.tag.reported.1 < pwd ∨ s.tag.reported.2 < aes then t.record 0xDE (pwd + aes * 2 ^ 16) else t
    t.modTag fun g => { g with reported := (pwd, aes) }

/-- An answer of the field side. -/
def State.answer (s : State) (os : List Byte) : State := s.emit (.tagAnswer os)

/-- FIELD_ENTRY: a new UID of 08h and three noise octets (R666). -/
def execFieldEntry (noise : BitVec 24) (s : State) : Res :=
  if s.tag.field ≠ .none then s.same
  else .next ((s.modTag fun g => { g with
    field := .idle, uid := BitVec.ofNat 32 (0x08000000 + noise.toNat), fd := true, rndT := none, sk := none, cnt := 0
    delay := false, rates := (0, 0) }).tagEvent)

/-- The session ends: its challenge and keys go. -/
def Tag.endSession (g : Tag) (to_ : FieldState) : Tag := { g with field := to_, rndT := none, sk := none, cnt := 0 }

/-- A field write that loses the power it ran on: how far it came is open; a page it changed is in the map (R678, R687;
log 10). -/
def State.cutFieldWrite (s : State) : State :=
  match s.tag.fieldWrite with
  | none => s
  | some (p, d) =>
    let v := s.freeValue
    let t := v.2.modTag fun g => { (g.writePage p d (v.1 % 2 == 1)) with fieldWrite := none }
    if v.1 % 2 = 1 then t.modTag fun g => g.setMap (g.fieldMap ||| 2 ^ p) else t

/-- FIELD_LOSS: the session and UID are discarded; a write runs on while VDD_GUARD is there (R667, R668, R678). -/
def execFieldLoss (s : State) : Res :=
  if s.tag.field = .none then s.same
  else
    let t := s.modTag fun g => { (g.endSession .none) with uid := 0, delay := false, fieldWait := none }
    .next ((if s.watch.mainDark then t.cutFieldWrite else t).tagEvent)

/-- FD_HOLD_EXPIRY (R682). -/
def execFdHoldExpiry (s : State) : Res :=
  if s.tag.field = .none then .next (s.modTag fun g => { g with fd := false }) else s.same

/-- Move between field states with an answer. -/
def State.fieldTo (s : State) (to_ : FieldState) (os : List Byte) : State :=
  let t := s.modTag fun g => g.endSession to_
  if os.isEmpty then t else t.answer os

/-- ATQA 0004h, low octet first. -/
def atqa : List Byte := [0x04, 0x00]

/-- REQA. -/
def execReqa (s : State) : Res := if s.tag.field = .idle then .next (s.fieldTo .ready atqa) else s.same
/-- WUPA. -/
def execWupa (s : State) : Res :=
  if s.tag.field = .idle ∨ s.tag.field = .halt then .next (s.fieldTo .ready atqa) else s.same

/-- The 40 bits of cascade level 1: UID and BCC, each octet low bit first. -/
def Tag.cascadeBits (g : Tag) : List Bool :=
  let os := beOctets 4 g.uid.toNat
  (os ++ [os.foldl (· ^^^ ·) 0]).flatMap fun (o : Byte) => (List.range 8).map fun i => o.getLsbD i

/-- Bits packed low bit first. -/
def packBits (bs : List Bool) : List Byte :=
  (chunks 8 bs).map fun c => BitVec.ofNat 8 ((List.range 8).foldl (fun a i => a + b2n (c.getD i false) * 2 ^ i) 0)

/-- ANTICOLLISION: a READY tag whose UID begins with the known bits answers the rest (R665, R668). -/
def execAnticollision (known : List Bool) (s : State) : Res :=
  let bits := s.tag.cascadeBits
  if s.tag.field = .ready ∧ bits.take known.length = known then
    .next (s.answer (packBits (bits.drop known.length)))
  else s.same

/-- SELECT of the UID: SAK 20h. -/
def execSelect (uid : BitVec 32) (s : State) : Res :=
  if s.tag.field = .ready ∧ s.tag.uid = uid then .next (s.fieldTo .active [0x20]) else s.same

/-- ACTIVE, OPEN or SECURED. -/
def FieldState.held (x : FieldState) : Bool :=
  match x with
  | .active | .opened | .securedPwd | .securedAes => true
  | _ => false

/-- HLTA, which has no answer. -/
def execHlta (s : State) : Res := if s.tag.field.held then .next (s.fieldTo .halt []) else s.same
/-- DESELECT. -/
def execDeselect (s : State) : Res := if s.tag.field.held then .next (s.fieldTo .halt [0xC2]) else s.same
/-- RATS: the ATS (R666). -/
def execRats (s : State) : Res :=
  if s.tag.field = .active then .next (s.fieldTo .opened [0x05, 0x78, 0x33, 0x80, 0x00]) else s.same

/-- PPS: 106, 212 and 424 kbit/s; 848 kbit/s is not supported (R665). -/
def execPps (dri dsi : BitVec 2) (s : State) : Res :=
  if s.tag.field = .opened ∧ dri ≠ 3 ∧ dsi ≠ 3 then
    .next ((s.modTag fun g => { g with rates := (dri.toNat, dsi.toNat) }).answer [0xD0])
  else s.same

/-! ### Commands and their MAC (R669, R670, R674) -/

/-- The level of a session: 1 OPEN, 2 SECURED_PWD, 3 SECURED_AES. -/
def FieldState.level (x : FieldState) : Nat :=
  match x with
  | .opened => 1
  | .securedPwd => 2
  | .securedAes => 3
  | _ => 0

/-- A MAC of a direction, CNT and a frame (R674). -/
def tagMac (sk : List Byte) (dir cnt : Nat) (frame : List Byte) : List Byte :=
  (aesCmac sk (beOctets 1 dir ++ beOctets 4 cnt ++ frame)).take 8

/-- A response: STATUS, then its data when it is 00h, then MAC where the command came in SECURED_AES. -/
def tagResponse (sk : Option (List Byte)) (cnt status : Nat) (data : List Byte) : List Byte :=
  let f := BitVec.ofNat 8 status :: (if status = 0 then data else [])
  match sk with
  | some k => f ++ tagMac k 2 cnt f
  | none => f

/-- What a command does: its status and data, and the state; none where its response comes later. -/
abbrev TagRes := State × Option (Nat × List Byte)

/-- The frame of a command is taken in a session: MAC and CNT are checked, an AUTH1's challenge serves the
next command only (R670, R672, R674; log 61). -/
def tagCommand (frame mac : List Byte) (f : State → TagRes) (s : State) : Res :=
  let g := s.tag
  if g.field.level = 0 || g.fieldWrite.isSome || g.fieldWait.isSome then s.same
  else if g.field = .securedAes then
    let sk := g.sk.getD []
    if mac ≠ tagMac sk 1 g.cnt frame then .next ((s.modTag fun x => x.endSession .opened).answer [0x07])
    else if 2 ^ 32 ≤ g.cnt + 1 then .next ((s.modTag fun x => x.endSession .opened).answer [0x03])
    else
      let r := f (s.modTag fun x => { x with cnt := x.cnt + 1 })
      match r.2 with
      | some (st, data) => .next (r.1.answer (tagResponse (some sk) g.cnt st data))
      | none => .next r.1
  else if mac ≠ [] then .next ((s.modTag fun x => { x with rndT := none }).answer [0x03])
  else
    let r := f s
    match r.2 with
    | some (st, data) => .next (r.1.answer (tagResponse none 0 st data))
    | none => .next r.1

/-- Any command but AUTH2 spends a challenge. -/
def State.dropRnd (s : State) : State := s.modTag fun g => { g with rndT := none }

/-- VDD_GUARD is present. -/
def State.mainPresent (s : State) : Bool := !s.watch.mainDark

/-- GET_INFO. -/
def execGetInfo (mac : List Byte) (s : State) : Res :=
  tagCommand [0x01] mac (fun t =>
    (t.dropRnd, some (0, [0x01, BitVec.ofNat 8 t.tag.field.code, BitVec.ofNat 8 (b2n t.mainPresent), 64,
      BitVec.ofNat 8 (b2n t.tag.pwdSet + 2 * b2n t.tag.keySet)]))) s

/-- The live status of READ_LIVE. -/
def State.liveStatus (s : State) : List Byte :=
  if s.watch.noVbat then BitVec.ofNat 8 8 :: List.replicate 16 0
  else
    let w := s.watch
    [BitVec.ofNat 8 (b2n w.tampered * 128 + b2n w.bbkr.isSome * 64 + b2n w.rtcValid * 32 + b2n s.mainPresent * 16)]
      ++ beOctets 6 w.rtcSec ++ beOctets 1 w.log.length ++ beOctets 1 w.lost
      ++ beOctets 8 (match w.log.getLast? with
        | some e => e.alLog
        | none => 0)

/-- READ_LIVE. -/
def execReadLive (mac : List Byte) (s : State) : Res :=
  tagCommand [0x02] mac (fun t => (t.dropRnd, some (0, t.liveStatus))) s

/-- A session meets a level, 0 never (R679). -/
def meets (level need : Nat) : Bool := need != 0 && decide (need ≤ level)

/-- READ_PAGE (R676). -/
def execReadPage (page : Byte) (mac : List Byte) (s : State) : Res :=
  tagCommand [0x10, page] mac (fun t =>
    let p := page.toNat
    let st := if 64 ≤ p then 4 else if 60 ≤ p ∨ !meets t.tag.field.level (t.tag.rd p) then 1 else 0
    (t.dropRnd, some (st, t.tag.readPage p))) s

/-- The wired side owns a page: a command still writes it (R681). -/
def Tag.wiredOwns (g : Tag) (page : Nat) : Bool := g.writes.any fun w => w.1 == page

/-- WRITE_PAGE: checked, then the field side owns the page, or waits for the wired side (R677, R681). -/
def execWritePage (page : Byte) (data mac : List Byte) (strong : Bool) (s : State) : Res :=
  tagCommand ([0x11, page] ++ data) mac (fun t =>
    let p := page.toNat
    let u := t.dropRnd
    if data.length ≠ 120 then (u, some (3, []))
    else if 64 ≤ p then (u, some (4, []))
    else if 60 ≤ p ∨ p < 2 ∨ !meets t.tag.field.level (t.tag.wr p) then (u, some (1, []))
    else if !strong then (u, some (5, []))
    else if t.tag.wiredOwns p then (u.modTag fun g => { g with fieldWait := some (p, data) }, none)
    else (u.modTag fun g => { g with fieldWrite := some (p, data) }, none)) s

/-- The response a field write owes, when its reader is still there; CNT is that of the WRITE_PAGE. -/
def State.writeAnswer (s : State) (status : Nat) : State :=
  if s.tag.field.level = 0 then s
  else s.answer (tagResponse s.tag.sk (s.tag.cnt - 1) status [])

/-- FIELD_WRITE_END (R677, R678, R686, R687). -/
def execFieldWriteEnd (stage : WriteStage) (s : State) : Res :=
  match s.tag.fieldWrite with
  | none => s.same
  | some (p, d) =>
    let t := s.modTag fun g => { (g.writePage p d (decide (stage = .complete))) with fieldWrite := none }
    match stage with
    | .complete =>
      let t := t.modTag fun g => g.setMap (g.fieldMap ||| 2 ^ p)
      .next ((t.writeAnswer 0).tagEvent.tagReport)
    | .checkFailed => .next ((t.writeAnswer 5).tagEvent)
    | _ => .next t.tagEvent

/-! ### Authentication (R671 to R673) -/

/-- A failed authentication: back to OPEN. -/
def State.authFailed (s : State) : State := (s.modTag fun g => g.endSession .opened).tagReport

/-- AUTH_PWD: the count rises before the comparison (R671). -/
def execAuthPwd (password mac : List Byte) (s : State) : Res :=
  tagCommand ([0x20] ++ password) mac (fun t =>
    let u := t.dropRnd
    let n := t.tag.pwdFails
    if password.length ≠ 8 ∨ t.tag.field ≠ .opened then (u, some (3, []))
    else if 8 ≤ n then (u, some (6, []))
    else if t.tag.pwd? = some password then
      (u.modTag fun g => { (g.setFails 0 g.aesFails) with field := .securedPwd, reported := (0, g.reported.2) }, some (0, []))
    else ((u.modTag fun g => g.setFails (n + 1) g.aesFails).authFailed, some (2, []))) s

/-- AUTH1: a fresh challenge, refused during the delay (R672, R673). -/
def execAuth1 (noise : BitVec 128) (mac : List Byte) (s : State) : Res :=
  tagCommand [0x21] mac (fun t =>
    let r := beOctets 16 noise.toNat
    if t.tag.field = .securedAes then (t.dropRnd, some (3, []))
    else if t.tag.delay then (t.dropRnd, some (6, []))
    else (t.modTag fun g => { g with rndT := some r }, some (0, r))) s

/-- CMAC under K of a purpose code, two challenges and the UID (R672). -/
def Tag.proof (g : Tag) (code : Byte) (a b : List Byte) : List Byte :=
  aesCmac g.key (code :: a ++ b ++ beOctets 4 g.uid.toNat)

/-- AUTH2: the reader proof is checked, the tag proof returned, SK taken (R672, R673). -/
def execAuth2 (rndR proof mac : List Byte) (s : State) : Res :=
  tagCommand ([0x22] ++ rndR ++ proof) mac (fun t =>
    match t.tag.rndT with
    | none => (t, some (3, []))
    | some rndT =>
      let u := t.dropRnd
      let g := t.tag
      if rndR.length ≠ 16 ∨ proof.length ≠ 16 then (u, some (3, []))
      else if g.keySet ∧ proof = g.proof 0x52 rndT rndR then
        (u.modTag fun x => { x with field := .securedAes, sk := some (g.proof 0x53 rndT rndR), cnt := 0 },
          some (0, g.proof 0x54 rndR rndT))
      else ((u.modTag fun x => { (x.setFails x.pwdFails (x.aesFails + 1)) with delay := true }).authFailed, some (2, []))) s

/-- AUTH_DELAY_EXPIRY (R673). -/
def execAuthDelayExpiry (s : State) : Res := .next (s.modTag fun g => { g with delay := false })

/-- LOGOUT. -/
def execLogout (mac : List Byte) (s : State) : Res :=
  tagCommand [0x30] mac (fun t =>
    if t.tag.field = .opened then (t.dropRnd, some (3, [])) else (t.modTag fun g => g.endSession .opened, some (0, []))) s

/-! ### The wired side (R680, R681, R684) -/

/-- The attestation summary (Summary table). -/
def State.summary (s : State) : List Byte :=
  beOctets 4 0x43535447 ++ [0x01, BitVec.ofNat 8 s.life.effective, s.life.fuse, BitVec.ofNat 8 s.link.mode.toNat]
    ++ beOctets 8 Config.serial.toNat ++ beOctets 6 s.watch.rtcSec ++ [BitVec.ofNat 8 s.vault.mode.code, 0]
    ++ beOctets 8 s.watch.alLatch ++ (padTo 48 (s.measurement 1)).take 48 ++ (padTo 48 (s.measurement 2)).take 48
    ++ beOctets 4 s.startup.fwVersion.toNat ++ beOctets 4 s.store.ckDone ++ List.replicate 104 0

/-- TG_BUF as octets. -/
def Tag.bufOctets (g : Tag) : List Byte := packOut .loose (agetRun 0 g.buf 0 30) 120

/-- The pages a wired command writes, with their octets. -/
def State.wiredPages (s : State) (op page : Nat) : List (Nat × List Byte) :=
  let g := s.tag
  match op with
  | 2 => [(page, g.bufOctets)]
  | 3 => [(0, s.summary.take 120), (1, s.summary.drop 120)]
  | 4 => [(60, tagSecrets (some (g.bufOctets.take 8)) g.key?)]
  | 5 => [(60, tagSecrets g.pwd? ((s.vault.lookup g.keyh).map fun k => k.2.material))]
  | 6 => [(60, tagSecrets none none)]
  | 7 => [(62, (List.range 8).flatMap fun k => beOctets 4 (aget 0 g.acl k).toNat)]
  | _ => []

/-- TG_KEYH names a key K may come from (R684). -/
def State.tagKeyOk (s : State) : Bool :=
  match s.vault.lookup s.tag.keyh with
  | some (_, k) => attrWorld k.attr == 1 && attrType k.attr == 0x10 && attrPurpose k.attr == 0
  | none => false

/-- The check of R684 that ends a wired command. -/
def State.wiredRefusal (s : State) (w : Word) : Option Nat :=
  let op := wfield w 35 32
  let page := wfield w 5 0
  if op = 0 ∨ 8 ≤ op ∨ wfield w 31 6 ≠ 0 ∨ (op = 2 ∧ (page < 2 ∨ 60 ≤ page)) ∨ (op = 1 ∧ 60 ≤ page) then some 0xDA
  else if s.startup.pfw ∧ op ≠ 1 then some 0xDD
  else if op = 5 ∧ !s.tagKeyOk then some 0xDB
  else match s.tag.fieldWrite with
    | some (p, _) => if (s.wiredPages op page).any fun x => x.1 == p then some 0xD9 else none
    | none => none

/-- A write of TG_CMD: discarded while BUSY (R684). -/
def State.tagCmd (s : State) (w : Word) : State :=
  if s.tag.cmd.isSome || !s.tagWired then s
  else match s.wiredRefusal w with
    | some c => s.modTag fun g => { g with status := BitVec.ofNat 8 c }
    | none => s.modTag fun g => { g with cmd := some w, writes := s.wiredPages (wfield w 35 32) (wfield w 5 0) }

/-- A TG_CMD row. -/
def tagRow (h : HandId) (op page : Nat) (s : State) : Res :=
  regWrite h 0xA002 3 (fun t => t.tagCmd (wd (op * 2 ^ 32 + page))) s

/-- TAG_READ. -/
def execTagRead (h : HandId) (page : BitVec 6) (s : State) : Res := tagRow h 1 page.toNat s
/-- TAG_WRITE. -/
def execTagWrite (h : HandId) (page : BitVec 6) (s : State) : Res := tagRow h 2 page.toNat s
/-- SUMMARY. -/
def execSummary (h : HandId) (s : State) : Res := tagRow h 3 0 s
/-- SETPWD. -/
def execSetpwd (h : HandId) (s : State) : Res := tagRow h 4 0 s
/-- SETKEY. -/
def execSetkey (h : HandId) (s : State) : Res := tagRow h 5 0 s
/-- CLEARAUTH. -/
def execClearauth (h : HandId) (s : State) : Res := tagRow h 6 0 s
/-- SETACL. -/
def execSetacl (h : HandId) (s : State) : Res := tagRow h 7 0 s

/-- A wired command ends with a status: source 22, and a waiting field write takes its page (R681, R686). -/
def State.wiredEnd (s : State) (status : Nat) : State :=
  (s.modTag fun g => { g with
    cmd := none, writes := [], status := BitVec.ofNat 8 status, fieldWrite := g.fieldWrite.or g.fieldWait, fieldWait := none }).tagEvent

/-- What a completed command does beyond its pages: READ fills TG_BUF, SETPWD zeroes PWD_FAILS. -/
def State.wiredDone (s : State) (w : Word) : State :=
  let t := match wfield w 35 32 with
    | 1 => s.modTag fun g => { g with buf := asetRun 0 [] 0 (packIn .loose (g.readPage (wfield w 5 0))) }
    | 4 => s.modTag fun g => { (g.setFails 0 g.aesFails) with reported := (0, g.reported.2) }
    | _ => s
  t.wiredEnd 0

/-- TAG_CMD_END: one page of the command is written, the last one ends it (R677, R680, R685). -/
def execTagCmdEnd (stage : WriteStage) (s : State) : Res :=
  match s.tag.cmd, s.tag.writes with
  | none, _ => s.same
  | some w, [] => .next (s.wiredDone w)
  | some w, (p, d) :: rest =>
    let t := s.modTag fun g => { (g.writePage p d (decide (stage = .complete))) with writes := rest }
    if stage ≠ .complete then .next ((t.record 0xDC p).wiredEnd 0xDC)
    else if rest.isEmpty then .next (t.wiredDone w)
    else .next t

/-- SUMMARY_AUTO: within 10 ms of a change the device issues SUMMARY itself, when no wired command runs (R680). -/
def execSummaryAuto (s : State) : Res :=
  if s.tag.summaryOwed && s.tagWired && s.tag.cmd.isNone && !s.startup.pfw then
    .next (s.modTag fun g => { g with cmd := some (wd (3 * 2 ^ 32)), writes := s.wiredPages 3 0, summaryOwed := false })
  else s.same

/-- UNLOCK: PWD_FAILS becomes 0. -/
def Tag.unlock (g : Tag) : Tag := { (g.setFails 0 g.aesFails) with reported := (0, g.reported.2) }

/-- A write of TG_CTRL. -/
def State.writeTagCtrl (s : State) (data : Word) : State :=
  s.modTag fun g => { (if data.getLsbD 1 then g.unlock else g) with ien := data.getLsbD 0 }

/-- TAG_UNLOCK. -/
def execTagUnlock (h : HandId) (s : State) : Res :=
  regWrite h 0xA001 3 (fun t => t.writeTagCtrl (wd (2 + b2n t.tag.ien))) s

/-! ### The window (R683) -/

/-- Writable bits of TG_ACLk. -/
def aclMask (k : Nat) : Word :=
  if k = 0 then 0xFFFFFF33#36 else if k = 7 then 0x0000FFFF#36 else 0xFFFFFFFF#36

/-- A write of the tag window, by offset. -/
def tagWrite (off : Nat) (data : Word) (s : State) : State :=
  if off = 1 then s.writeTagCtrl data
  else if off = 2 then s.tagCmd data
  else if off = 5 then s.modTag fun g => { g with keyh := data }
  else if 8 ≤ off ∧ off < 38 then s.modTag fun g => { g with buf := aset 0 g.buf (off - 8) (data &&& 0xFFFFFFFF#36) }
  else if 40 ≤ off ∧ off < 48 then s.modTag fun g => { g with acl := aset 0 g.acl (off - 40) (data &&& aclMask (off - 40)) }
  else s

end Sys2Proof.Machine
end

