-- ==== Sys2Proof/Machine/Startup.lean ====
section
/-!
DEFINITION. Sys2Proof/Machine/Startup.lean: resets, the start-up ladder, the firmware slots, Recovery and
the global control commands (file 22), with the PCIe link's resets and power states (file 05).
-/
namespace Sys2Proof.Machine

/-! ### The start-up ladder (R695 to R702) -/

/-- Hand 0 of the Reeve core runs the boot ROM at WS. -/
def bootHand : Hand := { state := .running, boot := true, st := wd (2 ^ 35 + 2 ^ 34 + 2 ^ 31) }

/-- Hand 0 as Warden firmware is entered (R701); its Workspace partition is one granule (log 48). -/
def wardenHand (entry : Nat) : Hand :=
  { state := .running, housekeeping := true, pc := BitVec.ofNat 16 entry, st := wd (2 ^ 35 + 2 ^ 34 + 2 ^ 31)
    wsBase := 0, wsSize := 1024, vault := { dspec := 0x120C00000#36 } }

/-- Start-up stops with MODE FAILED. -/
def State.bootFails (s : State) : State := s.setMode 4

/-- Stage 10: the resident image goes to every core and is entered; `f` is the array as the check of the slots
found it (R701; log 111: no Common handler image is placed). -/
def State.enterFirmware (s : State) (f : Flash) (slot fallback : Bool) : State :=
  let w0 := f.slotWord slot 4
  let resident := wfield w0 15 0
  let n := wfield (f.slotWord slot 2) 19 0
  let base := slotBase slot
  let image := agetRun erasedWord f.words (base + 5) resident
  let iram : Memory := asetRun 0 [] 0 image
  let s : State := { s with
    cores := (List.range 128).map fun c => (c, { s.core c with
      iram := iram, regions := [{ base := 0, size := resident, kind := .wardenResident }] })
    hands := aput s.hands 0 (wardenHand (wfield w0 31 16)) }
  let s := s.modStartup fun x => { x with
    slot := slot, fallback := fallback, attempts := if fallback then 0 else x.attempts
    fwVersion := BitVec.ofNat 32 (f.slotVersion slot)
    fwHash := sha384 (words40 (agetRun erasedWord f.words base (n + 4))) }
  let s := if s.link.mode = 0 then s.setMode 1 else s
  s.setStage 0x0A

/-- Steps 9 and 10: a slot is chosen and started, or Recovery, or failure on a member (R696). -/
def State.startFirmware (s : State) : State :=
  let r := (s.setStage 9).seeFlash
  let f := r.1
  let t := r.2.noteReads f f.slotReads
  match if t.startup.bootSel && t.cascade.master then none else f.chooseSlot t.startup.attempts with
  | some (slot, fallback) => t.enterFirmware f slot fallback
  | none => if t.cascade.master then t.setMode 3 else (t.setMode 4).modCascade fun c => { c with portEn := 0 }

/-- Steps 5 to 10 with what the tests find; a failed known-answer test is recorded and leaves every source OFF (R468,
R600, R618, R696; log 62). -/
def State.runTests (s : State) (tests : BootTests) : State :=
  let t := (s.setStage 5).modEntropy fun e => { e with katOk := tests.katOk }
  if !tests.katOk then
    ((List.range 4).foldl (fun u i => u.modSource i fun x => { x with state := .off }) (t.record 0xB2 0)).bootFails
  else if !t.anyHealthy then t.bootFails
  else
    let t := (t.modStartup fun x => { x with
      badLanes := tests.badLanes.map (·.val), badSlices := tests.badSlices.map (·.val) }).setStage 6
    let bad := tests.badMonitors.map (·.val)
    let t := (List.range 28).foldl (fun u m => u.selftestDone m (!bad.contains m)) (t.setStage 7)
    let t := t.modWatch fun w => { w with railsLive := !bad.any fun m => decide (8 ≤ m) && decide (m ≤ 13) }
    ((t.formKeys).setStage 8).startFirmware

/-- The Watch handshake; its records in ascending CODE order (R612, R628, status codes of file 18). -/
def State.watchHandshake (s : State) : State :=
  let s := match s.watch.eraseOwed with
    | some m => (s.record 0xFA m).modWatch fun w => { w with eraseOwed := none }
    | none => s
  if !s.watch.tampered && s.watch.bbkr.isSome then s
  else
    let t := if s.watch.bbkr.isNone then s.record 0xFC 0 else s
    let t := t.record 0xFD t.watch.strongest
    if t.life.effective = 0 then t else t.setMode 2

/-- Steps 2 to 4 of the ladder, held while PFW_N is asserted; in BLANK and TERMINATED the Vault forms no key (R418, R573,
R578, R612, R696, R697). -/
def State.continueBoot (s : State) : State :=
  if s.startup.pfw then s
  else
    let t := (s.lifeChange LifeCycle.vote).setStage 2
    let t := if t.life.effective = 0 ∨ t.life.effective = 5 then t.modVault fun v => { v with mode := .none } else t
    if t.life.effective = 5 then t.bootFails
    else (t.watchHandshake.setStage 3 |>.modLife fun l => { l with window := true }).setStage 4

/-- DEVICE_RESET_END: the end of the reset with PERST_N deasserted; the straps are sampled and the boot ROM
runs (R508, R695, R718). -/
def execDeviceResetEnd (cascRoot bootSel : Bool) (s : State) : Res :=
  if !s.startup.inReset || !s.startup.rails || s.watch.mainDark then s.same
  else
    let t := (s.modStartup fun x => { x with inReset := false, bootSel := bootSel }).modLink fun l =>
      { l with perst := false, d3cold := false }
    let t := t.modCascade fun c => { c with master := cascRoot, portEn := if cascRoot then 0xFE else 0xFF }
    let t : State := { t with hands := aput t.hands 0 bootHand }
    let t := t.modParish fun p => let q := p.recheck; { q with seq := q.nextSeq }
    let t := { t with flash := t.flash.decay t.free, free := t.free + 1 }
    .next ((t.setStage 1).findJournal.replayAtStart.tagReport.continueBoot)

/-- PFW_N high for 10 ms with every rail in range: write-back, the erases put off and the boot ROM go on (R341,
R343, R500, R697). -/
def execPfwNResume (s : State) : Res :=
  if s.startup.pfw && s.startup.rails then
    let t := ((s.modStore fun t => { t with powerFail := false }).modStartup fun x => { x with pfw := false }).restartCheckpoint
    let t := t.modFlash fun f => { f with bank0 := { f.bank0 with susp := false }, bank1 := { f.bank1 with susp := false } }
    if t.link.bootStage = 1 ∧ !t.startup.inReset then .next t.continueBoot else .next t
  else s.same

/-- DEBUG_WINDOW_CLOSE: the window ends; in BLANK it stays open, and while PFW_N is asserted the boot ROM
holds (R578, R696, R697). -/
def execDebugWindowClose (tests : BootTests) (s : State) : Res :=
  if !s.life.window || s.startup.pfw || s.life.effective == 0 then s.same
  else .next ((s.modLife fun l => { l with window := false }).runTests tests)

/-! ### Resets (R689 to R694, R208) -/

/-- DEVICE_RESET: a device reset of no cause that GC_CAUSE names. -/
def execDeviceReset (s : State) : Res := if s.watch.mainDark then s.same else .next (s.deviceReset 0)

/-- GUARD_POWER_ON_RESET: the Trial register, the Parish ring and GC_CAUSE are cleared as well (R581, R630, R689). -/
def execGuardPowerOnReset (s : State) : Res :=
  let t := s.cutAdvance.deviceReset 1
  let t := t.lifeChange fun l => { l with trial := none }
  let t := t.modParish fun p =>
    let q := { p with ring := [], oldest := p.next, used := 0, ringSeq := 0 }
    { q with seq := q.nextSeq }
  .next ((t.modStartup fun x => { x with attempts := 0, slot := false, fallback := false, cause := 1 }).modWatch fun w =>
    { w with mainDark := false })

/-- RAILS_GOOD: every main rail has been in range for 1 ms (R718). -/
def execRailsGood (s : State) : Res :=
  if s.watch.mainDark then s.same else .next (s.modStartup fun x => { x with rails := true })

/-- MAIN_SIDE_UNPOWERED: the main side stops and holds nothing; the tag goes over to field power and the
Watch domain guards alone (R609, R667, R678). -/
def execMainSideUnpowered (s : State) : Res :=
  if s.watch.mainDark then s.same
  else
    let t := ((((s.cutAdvance.cutFlash true).cutFlash false).cutRecovery).cutWrite false).cutWrite true
    let t := if t.tag.field = .none then t.cutFieldWrite else t
    let t := (t.resetMain 1).modStartup fun x => { x with rails := false, pfw := false }
    let t := t.modLink fun l => { l with d3cold := false, pmeEn := false }
    .next (t.modWatch fun w => { w with mainDark := true, testRun := none, railsLive := false })

/-- PERST_N asserted on the master (R208, R689). -/
def State.assertPerst (s : State) : State := (s.deviceReset 2).modLink fun l => { l with perst := true }

/-- PERST_N. -/
def execPerstN (s : State) : Res := if s.cascade.master && !s.watch.mainDark then .next s.assertPerst else s.same
/-- HOT_RESET (R208). -/
def execHotReset (s : State) : Res := if s.cascade.master && s.link.dlUp then .next s.assertPerst else s.same
/-- DL_DOWN (R208). -/
def execDlDown (s : State) : Res := if s.cascade.master && s.link.dlUp then .next s.assertPerst else s.same
/-- D3COLD: acts as PERST_N, and PME_En goes on to allow PE_WAKE_N (R207, R208). -/
def execD3cold (s : State) : Res :=
  if s.cascade.master && s.link.d3hot then .next (s.modLink fun l => { l with d3cold := true }).assertPerst else s.same

/-- D3hot with errands in flight is UNPREDICTABLE: each errand of a ring goes on, or is lost without a completion,
as a free choice has it (R10, R205; log 66). -/
def State.loseInFlight (s : State) : State :=
  s.steward.errands.foldl (fun t kv => match kv.2.src with
    | .ring _ =>
      let f := t.freeValue
      if f.1 % 2 = 1 then f.2.modErrand kv.1 fun x => { x with dropped := true } else f.2
    | _ => t) s

/-- D3HOT: no DMA and no message follow, and Nap; the request is a wake event, so that Nap follows from Slumber too
(R205, R206, R552, R559). -/
def execD3hot (s : State) : Res :=
  if !s.linkAwake || s.link.d3hot || !(s.link.fwReady || s.link.retryEnded) then s.same
  else .next (s.loseInFlight.owesWake.modLink fun l => { l with d3hot := true })

/-- DEVICE_WATCHDOG_EXPIRY: COUNT reaches 0 (R693). -/
def execDeviceWatchdogExpiry (s : State) : Res :=
  if s.startup.inReset || s.watch.mainDark || s.power.state = .dormant then s.same else .next (s.deviceReset 4)

/-! ### Global control (R694, R700, R702, R706) -/

/-- FW_READY written as 1: ignored until STEWARD_GO (R211, R700, R702). -/
def State.writeFwReady (s : State) : State :=
  if !s.steward.started then s
  else
    let t := s.modStartup fun x => { x with fwWritten := true, attempts := 0 }
    if t.link.fwReady then t else (t.modLink fun l => { l with fwReady := true }).hostEvent 8

/-- The effect of a write of GC_CTRL; writes of 0 are ignored. -/
def State.writeGcCtrl (s : State) (data : Word) : State :=
  let t := if data.getLsbD 3 then s.modSteward fun w => { w with started := true } else s
  let t := if data.getLsbD 2 then t.modStartup fun x => { x with wdLock := true } else t
  let t := if data.getLsbD 1 then t.writeFwReady else t
  if data.getLsbD 0 then t.deviceReset 0x10 else t

/-- STEWARD_GO. -/
def execStewardGo (h : HandId) (s : State) : Res := regWrite h 0xE041 3 (fun t => t.writeGcCtrl 8) s
/-- WD_LOCK. -/
def execWdLock (h : HandId) (s : State) : Res := regWrite h 0xE041 3 (fun t => t.writeGcCtrl 4) s
/-- What Warden firmware has set up before it signals readiness: IDE_REQUIRED and certificate slot 1, for which
the spec names no register (HL_STATUS, R214; log 93). -/
def State.setUp (s : State) (setup : FirmwareSetup) : State :=
  s.modLink fun l => { l with ideRequired := setup.ideRequired, certSlot1 := setup.certSlot1.or l.certSlot1 }

/-- FW_READY. -/
def execFwReady (h : HandId) (setup : FirmwareSetup) (s : State) : Res :=
  regWrite h 0xE041 3 (fun t => (t.setUp setup).writeGcCtrl 2) s
/-- GC_CTRL_RESET. -/
def execGcCtrlReset (h : HandId) (s : State) : Res := regWrite h 0xE041 3 (fun t => t.writeGcCtrl 1) s

/-- A write of GC_WDOG: PERIOD unless locked, below 100 acting as 100 at the next service; SERVICE reloads
COUNT (R694). -/
def State.writeWdog (s : State) (data : Word) : State :=
  s.modStartup fun x =>
    let period := if x.wdLock then x.wdPeriod else wfield data 31 16
    { x with
      wdPeriod := period
      wdCount := if data.getLsbD 32 then max 100 period else x.wdCount
      wdRest := if data.getLsbD 32 then 0 else x.wdRest }

/-- SERVICE: PERIOD as it stands. -/
def execService (h : HandId) (s : State) : Res :=
  regWrite h 0xE042 3 (fun t => t.writeWdog (wd (2 ^ 32 + t.startup.wdPeriod * 2 ^ 16))) s

/-- A write of GC_STAGE. -/
def State.writeStage (s : State) (n : Nat) : State := if 0x80 ≤ n ∧ n ≤ 0xFE then s.setStage n else s

/-- GC_STAGE. -/
def execGcStage (h : HandId) (stage : Byte) (s : State) : Res := regWrite h 0xE043 3 (fun t => t.writeStage stage.toNat) s

/-! ### Recovery (R704, R705) -/

/-- HL_RCV_STATUS.STATE. -/
def State.rcvState (s : State) (n : Nat) : State := s.modStartup fun x => { x with rcvState := n }

/-- GO in RECOVERY with STATE not BUSY: the image is read from host memory; ignored otherwise (log 64). -/
def State.recoveryStart (s : State) (words : Nat) : State :=
  if s.link.mode ≠ 3 ∨ s.startup.rcvState = 1 then s
  else if words < 53 ∨ 1048560 < words then s.rcvState 3
  else if !s.link.dmaOk then s.rcvState 4
  else ((s.modStartup fun x => { x with rcvState := 1, rcvWords := words }).emit (.hostRead s.startup.rcvAddr (words * 8)))

/-- RECOVERY_GO: a write of HL_RCV_CMD with GO. -/
def execRecoveryGo (words : BitVec 20) (s : State) : Res := hostWrite 0 0 (fun t => .next (t.recoveryStart words.toNat)) s

/-- An erase by the boot ROM with its two records (R497). -/
def State.bootErase (s : State) (i : Nat) : State :=
  ((s.record 0xC6 i).modFlash fun f => f.eraseSector i).record 0xC7 i

/-- Lines programmed in a run of words. -/
def Flash.programRun (f : Flash) (a : Nat) (ws : List Word) : Flash :=
  let lines := (List.range ((ws.length + 15) / 16)).map fun i => a / 16 + i
  { f with
    words := asetRun erasedWord f.words a ws
    undef := cutRuns a (a + 16 * lines.length) f.undef
    programmed := lines ++ f.programmed.filter fun l => !lines.contains l }

/-- The image goes to a slot in the order of R506; a flash failure leaves it without COMMIT, and the sector
after it with undefined content (R495; log 107: which operation failed is open). -/
def State.writeSlot (s : State) (b : Bool) (ws : List Word) (ok : Bool) : State :=
  let base := slotBase b
  let commit := sectorOf (base + 0o3777760)
  let last := sectorOf (base + ws.length - 1)
  let first := sectorOf base
  let t := s.bootErase commit
  if !ok then
    ((t.record 0xC6 first).verifyFails (sectorBase first) (sectorSize first) (sectorBase first)).record 0xC7
      (first + 0xC4 * 2 ^ 16)
  else
    let t := ((List.range (last + 1 - first)).filter fun i => first + i != commit).foldl (fun u i => u.bootErase (first + i)) t
    let t := t.modFlash fun f => f.programRun base ws
    t.modFlash fun f => f.programRun (base + 0o3777760) [wd 0o143157155155, wd (wfield (ws.getD 1 0) 31 0)]

/-- RECOVERY_WRITE_END: the read image is checked and written, or the STATE that says why not; while PFW_N is asserted
the boot ROM holds (R500, R697, R705). -/
def execRecoveryWriteEnd (image : Option (List Byte)) (flashOk : Bool) (s : State) : Res :=
  if s.startup.rcvState ≠ 1 ∨ s.startup.pfw then s.same
  else match image with
    | none => .next (s.rcvState 4).poisonedRead
    | some os =>
      let ws := packIn .raw36 (os.take (s.startup.rcvWords * 8))
      if ws.length ≠ s.startup.rcvWords ∨ wfield (ws.getD 2 0) 19 0 + 52 ≠ ws.length ∨ !imageOk ws then .next (s.rcvState 3)
      else
        let r := s.seeFlash
        let b := r.1.recoveryTarget
        let t := ((r.2.noteReads r.1 r.1.slotReads).writeSlot b ws flashOk).modStartup fun x => { x with rcvTarget := b }
        .next (t.rcvState (if flashOk then 2 else 5))

/-- RECOVERY_RESET: 10 ms after DONE (R705). -/
def execRecoveryReset (s : State) : Res :=
  if s.startup.rcvState = 2 then .next (s.deviceReset 0) else s.same

/-! ### The link's leftovers (R194, R202, R217, R221) -/

/-- The keys IDE_KM has put into a key set: transmit and receive for PR, NPR and CPL (R215). -/
def IdeStream.program (i : IdeStream) (keySet : Bool) (keys : List (List Byte × List Byte)) : IdeStream :=
  { i with keySet := keySet, keys := (List.range 3).foldl (fun a j => aput a (b2n keySet * 3 + j) (keys.getD j ([], []))) i.keys }

/-- IDE_SECURE: in FLIT mode the stream becomes Secure under a key set, DMA goes on and contracts are tested again;
a Secure stream takes the other key set into use (R215, R217, R290). -/
def execIdeSecure (keySet : Bool) (keys : List (List Byte × List Byte)) (s : State) : Res :=
  if !s.linkAwake || !s.link.flitMode then s.same
  else
    let t := s.modLink fun l => { l with ideSecure := true, ide := l.ide.program keySet keys }
    if s.link.ideSecure then .next t
    else .next (if t.link.ideRequired then t.flushMsix.retest 4 false else t.flushMsix)

/-- Devices of the Holding in service and absent (FSW_HEALTH). -/
def State.healthWord (s : State) : Nat :=
  let count (p : ContractState) : Nat := (s.steward.contracts.filter fun kv => decide (kv.2.state = p)).length
  let absent := (s.cascade.entries.filter fun kv => decide (kv.2.state = .absent)).length
  let present := (s.cascade.entries.filter fun kv => decide (kv.2.state = .present)).length + 1
  count .broken * 2 ^ 48 + count .atRisk * 2 ^ 32 + absent * 2 ^ 16 + present

/-- A ring that is not created reads zero (Fast Status Window table; log 112: each half while it is DISABLED). -/
def Ring.fsw (r : Ring) : Nat :=
  (if r.cqState = .disabled then 0 else r.cqTail * 2 ^ 48 + r.cqHead * 2 ^ 32)
    + (if r.sqState = .disabled then 0 else r.sqHead * 2 ^ 16 + r.sqTail)

/-- The aligned 8-byte part i of the Fast Status Window. -/
def State.fswWord (s : State) (i : Nat) : Nat :=
  match i with
  | 0 => s.link.tally % 2 ^ 64
  | 1 => govNat s.power.gov % 4 * 16 + s.power.state.code
  | 2 => s.watch.alLatch
  | 3 => s.healthWord
  | 4 => s.link.mode.toNat * 2 ^ 8 + b2n s.link.fwReady
  | _ => if 256 ≤ i then (s.ring (i - 256)).fsw else 0

/-- Octets of the Fast Status Window. -/
def State.fswOctets (s : State) (offset len : Nat) : List Byte :=
  ((((List.range ((offset + len + 7) / 8 - offset / 8)).flatMap fun k => leOctets 8 (s.fswWord (offset / 8 + k))).drop
    (offset % 8)).take len)

/-- FAST_STATUS_READ: a BAR2 read of 4 bytes to 4 KiB on a 4-byte boundary; any other gives zeros and sets
ACCESS_SIZE (R194, R216). -/
def execFastStatusRead (offset len : Nat) (s : State) : Res :=
  if !s.hostReach then s.same
  else if 4 ≤ len ∧ offset % 4 = 0 ∧ offset + len ≤ 4096 then .next (s.emit (.barData (s.fswOctets offset len)))
  else .next ((s.modLink fun l => { l with accessSize := true }).emit (.barData (List.replicate len 0)))

/-- What its owner makes of a read whose data is not received (R201, R202). -/
def readLost (read : DmaRead) (s : State) : Res :=
  match read with
  | .descriptors n r => execDescriptorArrival n r none s
  | .buffer0 h => execErrandStart h none s
  | .page p => execPageInComplete p none [] s
  | .laneSource l => execLaneOpEnd l [] false true s
  | .image e => execLoad e none none s
  | .levels i => execShareOpenComplete i (.own none) s
  | .recovery => execRecoveryWriteEnd none true s

/-- COMPLETION_TIMEOUT: the read's data is not received, and AER logs the timeout in place of a poisoned
completion (R200 to R202). -/
def execCompletionTimeout (read : DmaRead) (s : State) : Res :=
  if s.link.cplTimeout = .disabled ∨ !s.cascade.master then s.same
  else andThen (readLost read s) fun t => .next ((t.modLink fun l => { l with aer := s.link.aer }).aerLog 14 true)

end Sys2Proof.Machine
end

