-- ==== Sys2Proof/Machine/Steward.lean ====
section
/-!
DEFINITION. Sys2Proof/Machine/Steward.lean: budgets, stops, slice modes, core service and the core
watchdog (R35, R279, R280, R295, R296, R384).
-/
namespace Sys2Proof.Machine

/-- CORE_NS_OVERRUN: the running errand is stopped with OVERRUN, DETAIL 1 (R279). -/
def execCoreNsOverrun (h : HandId) (s : State) : Res :=
  match (s.hand h).errand with
  | some e => if (s.hand h).state = .running then .next (s.stopErrand e 0x20 1) else s.same
  | none => s.same

/-- The errand SW_STOP names: the one that holds the device tag on this device, else the forwarded one whose host
tag ends in it, for the master gives forwarded errands no device tag (R241, R532; log 72). -/
def State.stopNamed (s : State) (dtag : Nat) : Option Nat :=
  ((s.steward.errands.find? fun kv => decide (kv.2.dtag = some dtag)).orElse fun _ =>
    s.steward.errands.find? fun kv => kv.1 % 4096 == dtag && (match kv.2.phase with
      | .forwarded _ _ => true
      | _ => false)).map (·.1)

/-- SW_STOP: the errand it names stops; no effect when unused. -/
def State.stopTag (s : State) (dtag code : Nat) : State :=
  match s.stopNamed dtag with
  | some e => s.stopErrand e 0x10 code
  | none => s

/-- SW_STOP written at WS. -/
def execSwStop (h : HandId) (dtag : BitVec 12) (code : Byte) (s : State) : Res :=
  regWrite h 0x1008 3 (fun t => t.stopTag dtag.toNat code.toNat) s

/-- SW_SLICE_MODE written at WS. -/
def execSwSliceMode (h : HandId) (seq : BitVec 16) (s : State) : Res :=
  regWrite h 0x1009 3 (fun t => t.modSteward fun w => { w with sliceMode := seq }) s

/-- SLICE_MODE_CHANGE: a slice held by no errand is zero-filled and serves its new mode (R384, R411). -/
def execSliceModeChange (slice : Fin 16) (s : State) : Res :=
  let k := s.slice slice
  let want := s.steward.sliceMode.getLsbD slice
  if k.holder.isNone && k.regs.op.isNone && k.seqMode != want then
    .next (s.setSlice slice { k with seqMode := want, regs := {} })
  else s.same

/-- A core returns to service with a re-test (R290, SW_CORE). -/
def State.returnCore (s : State) (c : Nat) : State :=
  if (s.core c).outOfService then
    (s.modCore c fun k => { k with outOfService := false }).retest 4 false
  else s

/-- A write of IN_SERVICE (SW_CORE, R296). -/
def State.writeInService (s : State) (c : Nat) (on : Bool) : State :=
  if on then s.returnCore c
  else if (s.core c).outOfService then s
  else s.takeCoreOut c

/-- A write of SW_CORE: PERIOD and IN_SERVICE (SW_CORE). -/
def State.writeSwCore (s : State) (c : Nat) (data : Word) : State :=
  (s.modCore c fun k => { k with period := data.setWidth 32 }).writeInService c (data.getLsbD 33)

/-- CORE_OUT_OF_SERVICE. -/
def execCoreOutOfService (h : HandId) (core : Fin 128) (s : State) : Res :=
  regWrite h (0x1080 + core) 3 (fun t => t.writeInService core false) s
/-- CORE_RETURN. -/
def execCoreReturn (h : HandId) (core : Fin 128) (s : State) : Res :=
  regWrite h (0x1080 + core) 3 (fun t => t.writeInService core true) s

/-- The core watchdog counts: enabled, in service, with a READY or RUNNING Hand (R296). -/
def State.watchdogCounts (s : State) (c : Nat) : Bool :=
  (s.core c).period != 0 && s.inService c
    && decide (s.power.state = .run)
    && (handsOf c).any fun h =>
      !(s.hand h).halted && (decide ((s.hand h).state = .ready) || decide ((s.hand h).state = .running))

/-- Expiry: the core's errands complete with CORE_RESET, the core goes out of service, EXPIRED sets and
source 27 becomes pending (R35, R297). -/
def State.watchdogExpire (s : State) (c : Nat) : State :=
  ((s.takeCoreOut c).modCore c fun k => { k with expired := true }).stewardEventBut c

/-- CORE_WATCHDOG_EXPIRY. -/
def execCoreWatchdogExpiry (core : Fin 128) (s : State) : Res :=
  if s.watchdogCounts core then .next (s.watchdogExpire core) else s.same

/-- WDOG_WARN: half the period has run, source 8 on that core (Interrupt sources table). -/
def execWdogWarn (core : Fin 128) (s : State) : Res :=
  if s.watchdogCounts core then .next (s.assertOn core 8).settle else s.same

end Sys2Proof.Machine
end

