-- ==== Sys2Proof/Machine/IoMap.lean ====
section
/-!
DEFINITION. Sys2Proof/Machine/IoMap.lean: the IO space as a whole: what an IN reads and an OUT writes at
each address, and the fabric addresses of Baton and debug accesses (R66, R130, R131, R471, R543).
-/
namespace Sys2Proof.Machine

/-! ### Writes -/

/-- A write of SW_REQUEST; a reserved KIND is refused like any other bad request. -/
def State.writeRequest (s : State) (h : Nat) (data : Word) : State := s.requestGrant h (wfield data 3 0) (wfield data 27 16)

/-- A write of the Steward window, by offset (R295). -/
def stewardWrite (h off : Nat) (data : Word) (s : State) : State :=
  match off with
  | 0 => s.writeRequest h data
  | 1 => s.releaseGrant h (wfield data 3 0)
  | 8 => s.stopTag (wfield data 11 0) (wfield data 23 16)
  | 9 => s.modSteward fun w => { w with sliceMode := data.setWidth 16 }
  | 80 => s.submitInternal h (wfield data 31 0)
  | _ =>
    if 64 ≤ off ∧ off < 80 then s.modHand h fun x => { x with idesc := aset 0 x.idesc (off - 64) data }
    else if 128 ≤ off ∧ off < 256 then s.writeSwCore (off - 128) data
    else s

/-- A write of the entropy window, by offset (R464). -/
def entropyWrite (off : Nat) (data : Word) (s : State) : State :=
  match off with
  | 9 => s.writeEntCtrl data
  | 25 => s.writeEntTest data
  | _ => s

/-- A write of the Granary window, by offset (R321). -/
def granaryWrite (h off : Nat) (data : Word) (s : State) : State :=
  match off with
  | 0 => s.sopen h (data.getLsbD 8) (wfield data 7 6) (wfield data 5 0)
  | 1 => s.closeSlot h (wfield data 5 0)
  | 2 => s.modHand h fun x => { x with grPage := wfield data 29 0 }
  | 8 => s.pin h (wfield data 29 0)
  | 9 => s.modStore fun st => st.unpin (wfield data 29 0)
  | 16 => s.modStore fun st => { st with newOk := data.getLsbD 0 }
  | _ => s

/-- A write of the power window, by offset (R569). -/
def powerWrite (off : Nat) (data : Word) (s : State) : State :=
  if off = 1 then s.modPower fun p => { p with wardenSprint := data.getLsbD 0 } else s

/-- A write of CS_JQ_DEC (R523). -/
def State.writeDecision (s : State) (data : Word) : State :=
  match wfield data 1 0 with
  | 1 => s.rejectJoin
  | 2 => s.acceptJoin
  | _ => s

/-- A write of the life-cycle window, by offset (R596, R706). -/
def lifeWrite (off : Nat) (data : Word) (s : State) : State :=
  match off with
  | 1 => s.writeLcAdvance (wfield data 15 8) (wfield data 7 0)
  | 8 => if data.getLsbD 33 then s.modLife fun l => { l with denied := false } else s
  | 9 => if data.getLsbD 0 then s.setDeny else s
  | 65 => s.writeGcCtrl data
  | 66 => s.writeWdog data
  | 67 => s.writeStage (wfield data 7 0)
  | _ => s

/-! ### Fabric addresses (file 13) -/

/-- A remote access goes to the device at CS_RPATH: HOLDING_ABSENT when that is not PRESENT (R543). The
access of this device's own words is `runRemote`. -/
def State.sendRemote (s : State) (op : Nat) : State :=
  if s.memberPresent s.cascade.rpath then
    s.sendFlit (s.portTo s.cascade.rpath) 7 0
      [0, s.cascade.rpath.toNat, s.cascade.raddr.toNat, b2n (op == 2), if op = 2 then s.cascade.rdata.toNat else 0] []
  else s.endRemote 0xE0 0

/-- A write of CS_RCMD.OP on the master while not BUSY: the access starts; one of this device's own words
waits in `rwait` until the fabric has it (R543). -/
def State.startRemote (s : State) (op : Nat) : State :=
  if !s.cascade.master || s.cascade.rop.isSome || op == 0 || decide (2 < op) then s
  else
    let t := s.modCascade fun c => { c with rop := some op }
    if t.ownDevice t.cascade.rpath then
      t.modCascade fun c => { c with rwait := some (c.raddr, if op = 2 then some c.rdata else none) }
    else t.sendRemote op

/-- A write of the cascade window, by offset (R542). -/
def cascadeWrite (off : Nat) (data : Word) (s : State) : State :=
  match off with
  | 2 => s.writeCsCtrl data
  | 32 => s.writeDecision data
  | 40 => s.modCascade fun c => { c with rpath := data }
  | 41 => s.modCascade fun c => { c with raddr := data &&& 0x3FFFFFFF#36 }
  | 42 => s.modCascade fun c => { c with rdata := data }
  | 43 => s.startRemote (wfield data 1 0)
  | _ => s

/-! ### The whole space -/

/-- What an OUT does at an address the checks of R131 have passed. -/
def ioWrite (h addr : Nat) (data : Word) (s : State) : IoRes :=
  let off := addr % 4096
  match addr / 4096 with
  | 0 => .done 0 (coreWindowWrite h addr data s)
  | 1 => .done 0 (stewardWrite h off data s)
  | 2 => onLane h (fun l t => .done 0 (laneWrite h l off data t)) s
  | 3 => onSlice h (fun l t => sliceWrite h l off data t) s
  | 4 => vaultWrite h off data s
  | 5 => .done 0 (entropyWrite off data s)
  | 6 => .done 0 (granaryWrite h off data s)
  | 7 => .done 0 (parishWrite h off data s)
  | 8 => .done 0 (flashWrite off data s)
  | 9 => cardWrite h off data s
  | 10 => .done 0 (tagWrite off data s)
  | 11 => .done 0 (watchWrite off data s)
  | 12 => .done 0 (powerWrite off data s)
  | 13 => .done 0 (cascadeWrite off data s)
  | _ => .done 0 (lifeWrite off data s)

/-- A read that stalls while a Vault command of the Hand runs (R427). -/
def vaultRead (h : Nat) (v : Word) (s : State) : IoRes :=
  if (s.hand h).vault.running.isSome then .stall s else .done v s

/-- A read of TG_WAIT (R683). -/
def tagWait (s : State) : IoRes := if s.tag.cmd.isSome then .stall s else .done s.tag.resultWord s

/-- A read with a side effect, or one that stalls (R131, R132); none where a read only shows the register. -/
def activeRead (h addr : Nat) (s : State) : Option IoRes :=
  match addr with
  | 0x105F => some (.done ((s.steward.icpl.headD []).getD 7 0) s.popIcpl)
  | 0x3007 => some (onSlice h (fun l t => opdataRead l t) s)
  | 0x4004 => some (vaultRead h (s.hand h).vault.blob s)
  | 0x400D => some (vaultRead h (s.hand h).vault.result s)
  | 0x5000 => some (drOutRead h s)
  | 0x5018 => some (entRawRead s)
  | 0x7003 => some (readPrData s)
  | 0x8001 => some (readFlData s)
  | 0xA004 => some (tagWait s)
  | 0xB005 => some (readRtcLo s)
  | _ => if addr / 4096 = 9 then cardRead h (addr % 4096) s else none

/-- What the register at an address shows. -/
def shownRead (h addr : Nat) (s : State) : IoRes := .done (((ioReg s h addr).map (·.value)).getD 0) s

/-- What an IN does at an address the checks of R131 have passed. -/
def ioRead (h addr : Nat) (s : State) : IoRes :=
  match activeRead h addr s with
  | some r => r
  | none =>
    if addr / 4096 = 2 then onLane h (fun _ t => shownRead h addr t) s
    else if addr / 4096 = 3 then onSlice h (fun _ t => shownRead h addr t) s
    else shownRead h addr s

/-- The level an access needs, none where the address names no register (R131, R357, R387). -/
def ioNeed (s : State) (h addr : Nat) (write : Bool) : Option Nat :=
  if addr / 4096 = 2 then (if addr % 4096 < 16 then some 0 else none)
  else if addr / 4096 = 3 then (if addr % 4096 < 10 then some 0 else if addr % 4096 = 10 then some 3 else none)
  else (ioReg s h addr).map fun r => if write then r.writeLv else r.readLv

/-! ### The fabric (file 13; log 65) -/

/-- A word of a core's or Hamlet's memory. -/
def memAccess (l : Loc) (write : Option Word) (s : State) : IoRes :=
  match write with
  | some d => .done 0 (s.storeLoc l d none)
  | none => .done (s.readLoc l) s

/-- A register reached over the fabric; per-Hand registers name Hand h. -/
def fabricReg (h addr : Nat) (write : Option Word) (s : State) : IoRes :=
  match ioReg s h addr, write with
  | none, _ => .reserved s
  | some _, some d => ioWrite h addr d s
  | some _, none => ioRead h addr s

/-- A word by its fabric address (Fabric addresses table). -/
def fabricAccess (a : Nat) (write : Option Word) (s : State) : IoRes :=
  let c := a / 2 ^ 20 % 128
  let off := a % 2 ^ 20
  match a / 2 ^ 27 with
  | 0 => if 65536 ≤ off then .reserved s else match write with
    | some d => .done 0 (s.modCore c fun k => { k with iram := aset 0 k.iram off d })
    | none => .done (aget 0 (s.core c).iram off) s
  | 1 => if 32768 ≤ off then .reserved s else memAccess (.workspace c off) write s
  | 2 => if 131072 ≤ off ∨ c % 16 ≠ 0 then .reserved s else memAccess (.commons (c / 16) off) write s
  | 3 => if 4096 ≤ off then .reserved s else fabricReg (4 * c) off write s
  | 4 =>
    if off < 4096 ∨ 0xF000 ≤ off ∨ c ≠ 0 ∨ off / 4096 = 2 ∨ off / 4096 = 3 then .reserved s else fabricReg 0 off write s
  | _ => .reserved s

/-- What a fabric access reads, and the state it leaves; none while it waits for a stalling register. -/
def fabricDone (r : IoRes) : Option Word × State :=
  match r with
  | .done v t => (some v, t)
  | .stall t => (none, t)
  | .fault t _ => (some 0, t)
  | .reserved t => (some 0, t)
  | .block t => (some 0, t)

/-- The rules the device ACU decides one access with (R480). -/
def State.deviceView (s : State) : AcuRules × State :=
  (s.devAcu.pick s.free, if s.devAcu.writers.isEmpty then s else { s with free := s.free + 1 })

/-- The answer to a remote access: CS_RCMD on the master, a REMOTE flit from a member (R543). -/
def State.answerRemote (s : State) (status : Nat) (v : Word) : State :=
  if s.cascade.master then s.endRemote status v else s.sendFlit 0 7 0 [1, status, v.toNat] []

/-- The waiting remote access is tried; a stalling register keeps it waiting (R543). -/
def State.retryRemote (s : State) : State :=
  match s.cascade.rwait with
  | none => s
  | some (a, w) => match fabricDone (fabricAccess a.toNat w s) with
    | (some v, t) => (t.modCascade fun c => { c with rwait := none }).answerRemote 0 v
    | (none, t) => t

/-- A Baton request at this device: the device ACU at WS with MKIND 2 and MASTER 0, then the access (R482,
R543). -/
def State.runRemote (s : State) (a : Word) (w : Option Word) : State :=
  let v := s.deviceView
  let who : Accessor := { mkind := 2, master := 0, level := 3 }
  let p : Probe := { addr := a.toNat, start := a.toNat, write := w.isSome }
  if v.1.allows .device who p then (v.2.modCascade fun c => { c with rwait := some (a, w) }).retryRemote
  else ((v.2.modCascade fun c => { c with rwait := none }).devAcuRefuse v.1 who p 0xE1).answerRemote 0xE1 0

/-- A remote access of the master's own words runs at once. -/
def State.runOwn (s : State) : State :=
  match s.cascade.master, s.cascade.rop, s.cascade.rwait with
  | true, some _, some (a, w) => s.runRemote a w
  | _, _, _ => s

/-- What follows a write: a remote access of the master's own words. -/
def IoRes.thenOwn (r : IoRes) : IoRes :=
  match r with
  | .done v t => .done v t.runOwn
  | r => r

/-! ### IN and OUT at an address -/

/-- An access of a Hand to the IO space: RESERVED_ADDR, then the core ACU and the level, then the register
(R131, R112, R474). -/
def ioAccess (h addr : Nat) (write : Option Word) (s : State) : IoRes :=
  if 0xF000 ≤ addr then .reserved s
  else match ioNeed s h addr write.isSome with
    | none => .reserved s
    | some need => ioChecks h addr write.isSome need (fun t => match write with
      | some d => (ioWrite h addr d t).thenOwn
      | none => ioRead h addr t) s

end Sys2Proof.Machine
end

