-- ==== Sys2Proof/Machine/Debug.lean ====
section
/-!
DEFINITION. Sys2Proof/Machine/Debug.lean: READ and WRITE of the debug mailbox: the Memory rights table, the
device ACU and what a refusal leaves (R483, R588, R593).
-/
namespace Sys2Proof.Machine

/-- The Hand whose partition holds a granule of a core's Workspace runs a Common errand. -/
def State.commonGranule (s : State) (c off : Nat) : Bool :=
  (handsOf c).any fun h =>
    let x := s.hand h
    decide (x.state ≠ .free) && decide (0 < x.wsSize) && decide (x.wsBase ≤ off / 1024 * 1024)
      && decide (off / 1024 * 1024 < x.wsBase + x.wsSize) && x.errand.isSome && !s.errandWarden h

/-- The I-RAM word lies in the image of a Common Almanac or of the Common handler. -/
def State.commonImage (s : State) (c off : Nat) : Bool :=
  (s.core c).regions.any fun r =>
    decide (r.base ≤ off) && decide (off < r.base + r.size) && match r.kind with
      | .wardenResident => false
      | .commonHandler => true
      | .almanac i => match afind s.steward.almanacs i with
        | some a => !a.warden
        | none => false

/-- The right a word needs: 2 MEM_COMMON or 3 MEM_WARDEN (Memory rights table). -/
def State.memRight (s : State) (a : Nat) : Nat :=
  let c := a / 2 ^ 20 % 128
  let off := a % 2 ^ 20
  match a / 2 ^ 27 with
  | 0 => if s.commonImage c off then 2 else 3
  | 1 => if s.commonGranule c off then 2 else 3
  | 2 => 2
  | _ => 3

/-- A debug master as the device ACU sees it. -/
def debugAccessor : Accessor := { mkind := 3, master := 0, level := 4 }

/-- The first word of a run that the device ACU or the rights refuse, with the RULE to record: 17 when the
ACU allowed it (R593). -/
def State.debugRefusal (s : State) (r : AcuRules) (start n : Nat) (write : Bool) : Option (Nat × Nat) :=
  (List.range n).findSome? fun i =>
    let p : Probe := { addr := start + i, start := start, write := write }
    if !r.allows .device debugAccessor p then some (start + i, (r.decide .device debugAccessor p).1)
    else if !s.life.has (s.memRight (start + i)) then some (start + i, 17)
    else none

/-- The debug effects of a refusal: DENIED, the device ACU's record and, for a new one, DEBUG_DENIED (R482,
R593). -/
def State.debugDenied (s : State) (start addr rule : Nat) (write : Bool) : State :=
  let u := s.devAcu
  let p : Probe := { addr := addr, start := start, write := write }
  let t := ({ s with devAcu := u.refuse debugAccessor p rule }).modLife fun l => { l with denied := true }
  if u.recordsNew then t.record 0xF6 addr else t

/-- Read a run; a register that would stall, or none, reads zero (log 65). -/
def debugRead : Nat → Nat → State → List Nat × State
  | 0, _, s => ([], s)
  | n + 1, a, s =>
    let r := fabricDone (fabricAccess a none s)
    let t := debugRead n (a + 1) r.2
    ((r.1.getD 0).toNat :: t.1, t.2)

/-- Write a run. -/
def debugWrite : Nat → List Word → State → State
  | _, [], s => s
  | a, w :: ws, s => debugWrite (a + 1) ws (fabricDone (fabricAccess a (some w) s)).2

/-- One READ or WRITE of n words: refused whole, or carried out and answered. -/
def debugRun (start n : Nat) (write : Bool) (ok : State → State) (s : State) : State :=
  let v := s.deviceView
  match v.2.debugRefusal v.1 start n write with
  | some (a, rule) => (v.2.debugDenied start a rule write).reply 0xF6 (if write then [] else List.replicate n 0)
  | none => ok v.2

/-- DBG_READ: READ of an open session. -/
def execDbgRead (address count : Nat) (s : State) : Res :=
  wakeWith (fun t => decide (t.life.session = .opened))
    (debugRun address count false fun t =>
      let r := debugRead count address t
      r.2.reply 0 r.1) s

/-- DBG_WRITE: WRITE of an open session. -/
def execDbgWrite (address : Nat) (words : List Word) (s : State) : Res :=
  wakeWith (fun t => decide (t.life.session = .opened))
    (debugRun address words.length true fun t => (debugWrite address words t).reply 0 []) s

end Sys2Proof.Machine
end

