-- ==== Sys2Proof/Machine/FlashEnd.lean ====
section
/-!
DEFINITION. Sys2Proof/Machine/FlashEnd.lean: the end of a flash operation and what waited for it (R491, R492, R495 to
R500).
-/
namespace Sys2Proof.Machine

/-- What the end of an internal requester's program brings its owner. -/
def State.innerEnded (s : State) (o : FlashOp) (ok : Bool) : State :=
  if o.op = 1 ∧ 8 ≤ sectorOf o.addr ∧ sectorOf o.addr < 16 then s.recordEnded o ok else s

/-- FLASH_OP_END: the operation that a bank runs ends, and what waited for it goes on. -/
def execFlashOpEnd (bank : Fin 2) (verifyOk : Bool) (s : State) : Res :=
  let b := bank.val == 1
  let t := s.flashEnds b verifyOk
  let t := match s.flash.turn b with
    | some (true, o) => t.innerEnded o verifyOk
    | _ => t
  .next t.retryDebugRead

end Sys2Proof.Machine
end

