-- ==== Sys2Proof/Machine/BarView.lean ====
section
/-!
DEFINITION. Sys2Proof/Machine/BarView.lean: what the registers of BAR0 and BAR4 read as, by the tables of
their owning chapters, and what such a read changes (R14, R18, R191 to R193).
-/
namespace Sys2Proof.Machine

/-! ### Identification, control, Recovery (files 05, 22) -/

/-- HL_ID: FAMILY 01h, PART 3616h, the stepping, ROM_REV, IF_REV 01h. -/
def hlId : Nat :=
  0x01 * 2 ^ 40 + 0x3616 * 2 ^ 24 + Config.stepMajor.toNat * 2 ^ 20 + Config.stepMinor.toNat * 2 ^ 16
    + Config.romRev.toNat * 2 ^ 8 + 0x01

/-- HL_STATUS. -/
def HostLink.statusBits (l : HostLink) : Nat :=
  l.bootStage.toNat * 2 ^ 16 + l.mode.toNat * 2 ^ 8 + b2n l.ideRequired * 2 ^ 7 + b2n l.ideSecure * 2 ^ 6
    + b2n l.ptmLock * 2 ^ 5 + b2n l.accessSize * 2 ^ 4 + b2n l.ideDrop * 2 ^ 3 + b2n l.fwReady

/-- 0000h to 0FFFh. -/
def State.hlRead (s : State) (off : Nat) : Nat :=
  match off with
  | 0x00 => hlId
  | 0x08 => Config.serial.toNat
  | 0x10 => s.link.statusBits
  | 0x18 => s.link.ctrlBits
  | 0x20 => s.link.evt.toNat
  | 0x28 => s.link.ptmInterval.toNat * 2 ^ 32 + s.link.ptmOffset.toNat
  | 0x40 => s.startup.rcvAddr.toNat
  | 0x50 => b2n s.startup.rcvTarget * 2 ^ 8 + s.startup.rcvState
  | _ => 0

/-! ### Power (file 16) -/

/-- PW_LT_RING n. -/
def Power.ltWord (p : Power) (n : Nat) : Word64 :=
  match afind p.ltRing n with
  | some v => BitVec.ofNat 64 (2 ^ 63 + v)
  | none => BitVec.ofNat 64 (aget 0 p.ltIdle n)

/-- PW_GOV. -/
def Power.govWord (p : Power) : Nat := p.rest * 2 ^ 16 + b2n p.hostSprint

/-- 1000h to 1FFFh. -/
def State.pwRead (s : State) (off : Nat) : Nat :=
  match off with
  | 0x1000 => s.power.ltGlobal
  | 0x1008 => s.pwStatus
  | 0x1010 => s.power.govWord
  | _ => if 0x1800 ≤ off then (s.power.ltWord ((off - 0x1800) / 8)).toNat else 0

/-! ### Rings and doorbells (file 06) -/

/-- A ring state's code (RG_STATUS table). -/
def RingState.code (x : RingState) : Nat :=
  match x with
  | .disabled => 0
  | .active => 1
  | .error => 2
  | .resetting => 3

/-- RG_CTRL as its fields stand. -/
def Ring.ctrlWord (r : Ring) : Word64 :=
  BitVec.ofNat 64 (r.cqSel * 2 ^ 8 + b2n r.irqEn * 4 + b2n r.cqEn * 2 + b2n r.sqEn)

/-- RG_STATUS. -/
def Ring.statusWord (r : Ring) : Nat :=
  r.inFlight * 2 ^ 32 + r.errIndex * 2 ^ 16 + r.err * 2 ^ 8 + r.cqState.code * 4 + r.sqState.code

/-- A register whose low half was written alone shows that half (R193). -/
def HostLink.withHalf (l : HostLink) (key : Nat) (v : Word64) : Word64 :=
  match afind l.halves key with
  | some x => (v &&& 0xFFFFFFFF00000000#64) ||| x.zeroExtend 64
  | none => v

/-- 2000h to 5FFFh. -/
def State.rgRead (s : State) (off : Nat) : Nat :=
  let r := s.ring ((off - 0x2000) / 64)
  match off % 64 with
  | 0x00 => r.sqBase.toNat
  | 0x08 => r.cqBase.toNat
  | 0x10 => r.cqDepth * 2 ^ 32 + r.sqDepth
  | 0x18 => (s.link.withHalf off r.ctrlWord).toNat
  | 0x20 => r.statusWord
  | _ => 0

/-- Doorbell n. -/
def Ring.doorbellWord (r : Ring) : Nat := r.dbHead * 2 ^ 16 + r.dbTail

/-! ### Contracts (file 07) -/

/-- A contract state's code, and the status code it shows (CT_STATE table). -/
def ContractState.codes (x : ContractState) : Nat × Nat :=
  match x with
  | .none => (0, 0)
  | .admitted => (1, 0)
  | .atRisk => (2, 0x22)
  | .broken => (3, 0x23)

/-- CT_STATE n. -/
def Contract.stateWord (c : Contract) : Nat :=
  c.excess * 2 ^ 32 + c.misses * 2 ^ 16 + c.state.codes.2 * 2 ^ 8 + c.cause * 2 ^ 4 + c.state.codes.1

/-- 6000h to 6FFFh. -/
def State.ctRead (s : State) (off : Nat) : Nat :=
  let w := s.steward
  match off with
  | 0x6000 => w.ctTarget.toNat
  | 0x6008 => w.ctShape.toNat
  | 0x6010 => w.ctDeadline.toNat
  | 0x6018 => w.ctMemlat
  | 0x6028 => w.ctResultRead.toNat
  | _ =>
    if 0x6040 ≤ off ∧ off < 0x60C0 then (aget 0 w.ctVerb ((off - 0x6040) / 8)).toNat
    else if 0x6800 ≤ off then (s.contract ((off - 0x6800) / 8)).stateWord
    else 0

/-! ### Holding and cascade status (file 15) -/

/-- An entry state's code (HC_ENTRY table). -/
def EntryState.code (x : EntryState) : Nat :=
  match x with
  | .empty => 0
  | .joining => 1
  | .present => 2
  | .absent => 3
  | .refused => 4

/-- HC_SUMMARY; its bits 31:0 are FSW_HEALTH's (R545). -/
def State.hcSummary (s : State) : Nat :=
  let depth := (s.cascade.entries.filterMap fun kv =>
    if kv.2.state = .present then some (hopsOf kv.2.path) else none).foldl max 0
  s.cascade.gen * 2 ^ 48 + depth * 2 ^ 40 + s.healthWord % 2 ^ 32

/-- HC_ENTRY. -/
def HcEntry.word (e : HcEntry) : Nat :=
  e.state.code * 2 ^ 61 + b2n e.wait * 2 ^ 60 + e.code.toNat * 2 ^ 48 + e.path.toNat

/-- HC_CAP. -/
def HcEntry.capWord (e : HcEntry) : Nat :=
  e.gov * 2 ^ 62 + e.cores * 2 ^ 48 + e.lanes * 2 ^ 40 + e.seqSlices * 2 ^ 32 + e.macSlices * 2 ^ 24 + e.frames

/-- 7000h to 7FFFh, on the master. -/
def State.hcRead (s : State) (off : Nat) : Nat :=
  if !s.cascade.master then 0
  else match off with
    | 0x7000 => s.hcSummary
    | 0x7008 => s.cascade.index
    | 0x7010 => s.hcShown.word
    | 0x7018 => s.hcShown.serial.toNat
    | 0x7020 => s.hcShown.capWord
    | 0x7028 => s.hcShown.seq
    | _ => if 0x7040 ≤ off ∧ off < 0x7080 then (s.port ((off - 0x7040) / 8)).word.toNat else 0

/-! ### The Store Window, checkpoints and epochs (file 08) -/

/-- A Store state's code (ST_STATUS table). -/
def StoreState.code (x : StoreState) : Nat :=
  match x with
  | .closed => 0
  | .opening => 1
  | .opened => 2
  | .closing => 3

/-- ST_SIZE. -/
def Store.sizeWord (t : Store) : Nat := t.tree * 2 ^ 32 + t.pages

/-- ST_MAP_RANGE. -/
def Share.rangeWord (e : Share) : Word64 := BitVec.ofNat 64 (b2n e.valid * 2 ^ 63 + e.count * 2 ^ 30 + e.first)

/-- CK_CTRL. -/
def Store.ckCtrlWord (t : Store) : Nat := t.ckTimeout * 2 ^ 32 + t.ckInterval

/-- Present owners whose newest commit is older than CK_DONE.SEQ (CK_DONE.LAGGING). -/
def State.lagging (s : State) : Nat :=
  (s.cascade.entries.filter fun kv => decide (kv.2.state = .present) && decide (kv.2.seq < s.store.ckDone)
    && s.store.map.any fun sh => sh.2.valid && pathDevice sh.2.path == pathDevice kv.2.path).length

/-- CK_DONE. -/
def State.ckDoneWord (s : State) : Nat :=
  b2n s.store.ckFinal * 2 ^ 63 + b2n s.store.ckAbandoned * 2 ^ 62 + s.lagging * 2 ^ 32 + s.store.ckDone

/-- EP_STATUS: pages left over the owners that are present, saturating. -/
def State.epStatus (s : State) : Nat :=
  let left := (s.cascade.entries.filter fun kv => decide (kv.2.state = .present)).foldl (fun a kv => a + kv.2.left) s.sweepLeft
  b2n s.sweeping * 2 ^ 63 + min left (2 ^ 30 - 1) * 2 ^ 32 + s.store.epoch

/-- 8000h to 8FFFh. -/
def State.stRead (s : State) (off : Nat) : Nat :=
  let t := s.store
  match off with
  | 0x8000 => t.base.toNat
  | 0x8008 => t.sizeWord
  | 0x8018 => t.code.toNat * 2 ^ 8 + t.state.code
  | 0x8020 => t.mapIndex
  | 0x8028 => t.entry.rangeWord.toNat
  | 0x8030 => t.ownerWord.toNat
  | 0x8040 => t.ckCtrlWord
  | 0x8048 => b2n (decide (t.ckPhase = .ready)) * 2 ^ 63 + t.ckSeq
  | 0x8058 => s.ckDoneWord
  | 0x8060 => t.epShare
  | 0x8068 => s.epStatus
  | _ => 0

/-! ### Parish, alarm and life-cycle status, MSI-X (files 05, 18, 19) -/

/-- 9000h to 9FFFh. -/
def State.phRead (s : State) (off : Nat) : Nat :=
  match off with
  | 0x9000 => s.parish.status.toNat
  | 0x9008 => s.parish.hptr
  | 0x9010 => (aget 0 s.parish.ring s.parish.hptr).toNat
  | _ => 0

/-- A000h to AFFFh (R624). -/
def State.alRead (s : State) (off : Nat) : Nat :=
  match off with
  | 0xA000 => s.watch.alLatch
  | 0xA008 => b2n s.life.pending.isSome * 2 ^ 24 + s.life.effective * 2 ^ 16 + s.life.fuse.toNat * 2 ^ 8
  | 0xA010 => s.watch.rtcSec
  | _ => if 0xA100 ≤ off ∧ off < 0xA180 then (s.watch.log[(off - 0xA100) / 8]?.map WatchEntry.alLog).getD 0 else 0

/-- An MSI-X table entry: message address, then data and vector control (R196). -/
def MsixEntry.words (e : MsixEntry) : Nat × Nat := (e.addr.toNat, b2n e.masked * 2 ^ 32 + e.data.toNat)

/-- C000h to DFFFh: the MSI-X table, and the Pending Bit Array (R196). -/
def HostLink.msixRead (l : HostLink) (off : Nat) : Nat :=
  if off < 0xD010 then
    let e := (aget {} l.msix ((off - 0xC000) / 16)).words
    if off % 16 = 0 then e.1 else e.2
  else if 0xD800 ≤ off ∧ off < 0xD828 then
    (List.range 64).foldl (fun a i => a + b2n (aget {} l.msix ((off - 0xD800) * 8 + i)).pending * 2 ^ i) 0
  else 0

/-! ### The whole BARs -/

/-- The 64-bit register at an 8-octet aligned offset of BAR0; zero where none is defined (BAR0 map, R192). -/
def State.bar0Read (s : State) (off : Nat) : Nat :=
  match off / 0x1000 with
  | 0 => s.hlRead off
  | 1 => s.pwRead off
  | 6 => s.ctRead off
  | 7 => s.hcRead off
  | 8 => s.stRead off
  | 9 => s.phRead off
  | 10 => s.alRead off
  | 12 => s.link.msixRead off
  | 13 => s.link.msixRead off
  | n => if n < 6 then s.rgRead off else 0

/-- The register at an offset of BAR4. -/
def State.bar4Read (s : State) (off : Nat) : Nat := if off < 0x800 then (s.ring (off / 8)).doorbellWord else 0

/-- What a read that includes bits 63:32 changes: HC_INDEX, ST_MAP_INDEX and PH_RPTR step (R304, R545, R639). -/
def State.afterRead (s : State) (off : Nat) : State :=
  match off with
  | 0x7028 => if s.cascade.master then s.hcAdvance else s
  | 0x8030 => s.modStore Store.advance
  | 0x9010 => s.modParish fun p => { p with hptr := (p.hptr + 1) % 16384 }
  | _ => s

end Sys2Proof.Machine
end

