-- ==== Sys2Proof/Machine/Bars.lean ====
section
/-!
DEFINITION. Sys2Proof/Machine/Bars.lean: host accesses of BAR0, BAR2 and BAR4: what a write of each register
does, and the sizes and offsets a read or write may have (R15, R191 to R194, R216).
-/
namespace Sys2Proof.Machine

/-- The addressed half changes, the other keeps its value (R193). -/
def merge64 (mask old new : Word64) : Word64 := (old &&& ~~~mask) ||| (new &&& mask)

/-- The write includes bits 63:32. -/
def hasHigh (mask : Word64) : Bool := mask.getLsbD 63

/-- A register whose write has an effect: a low half alone waits for the high half (R193). -/
def staged (key : Nat) (cur mask v : Word64) (f : Word64 → State → State) (s : State) : State :=
  let low : Word64 := match afind s.link.halves key with
    | some x => x.zeroExtend 64
    | none => cur &&& 0xFFFFFFFF#64
  if hasHigh mask then
    f (merge64 mask low v) (s.modLink fun l => { l with halves := aerase l.halves key })
  else s.modLink fun l => { l with halves := aput l.halves key (v.setWidth 32) }

/-- Bits of an optional effect. -/
def onHigh (mask : Word64) (f : State → State) (s : State) : State := if hasHigh mask then f s else s

/-- RESERVED bits of 0000h to 1FFFh (R15). -/
def reservedLow (off : Nat) : Word64 :=
  match off with
  | 0x00 => 0xFFFF000000000000#64
  | 0x10 => 0xFFFFFFFFFF00F006#64
  | 0x18 => 0xFFFFFFFFFFFFFFF8#64
  | 0x20 => 0xFFFFFFFFFFFFFE00#64
  | 0x28 => 0xFFFF000000000000#64
  | 0x48 => 0xFFF00000FFFFFFFE#64
  | 0x50 => 0xFFFFFFFFFFFFFEF0#64
  | 0x1000 => 0xFFFFFFFF00000000#64
  | 0x1008 => 0xFFFFFFF700FF0000#64
  | 0x1010 => 0xFFFFFFFFFF00FFFE#64
  | _ => if 0x1800 ≤ off ∧ off < 0x2000 then 0x7FFFFFFF00000000#64 else 0

/-- RESERVED bits of a ring register set. -/
def reservedRing (off : Nat) : Word64 :=
  match off % 64 with
  | 0x10 => 0xFFFE0000FFFE0000#64
  | 0x18 => 0xFFFFFFFFFFFF00F8#64
  | 0x20 => 0xFFFF0000000000F0#64
  | 0x28 => 0xFFFFFFFFFFFFFFFC#64
  | _ => 0

/-- RESERVED bits of 6000h to 7FFFh. -/
def reservedMid (off : Nat) : Word64 :=
  match off with
  | 0x6000 => 0xFFFFFFF000000000#64
  | 0x6008 => 0xFF00000000000000#64
  | 0x6010 => 0xFFFFFFFF00000000#64
  | 0x6018 => 0xFFFFFFFF00000000#64
  | 0x6020 => 0xFFFFFFFFFFFFF800#64
  | 0x6028 => 0x7F0000C800000000#64
  | 0x7000 => 0x0000F8FF00000000#64
  | 0x7008 => 0xFFFFFFFFFFFFF000#64
  | 0x7010 => 0x0F00FFF000000000#64
  | 0x7020 => 0x3F00E0E0E0FF8000#64
  | 0x7030 => 0xFFFFFFFFFFFFF000#64
  | _ =>
    if 0x6040 ≤ off ∧ off < 0x60C0 then 0x7FFFFFFF0000FF00#64
    else if 0x6800 ≤ off ∧ off < 0x7000 then 0xFFFF00000000000C#64
    else if 0x7040 ≤ off ∧ off < 0x7080 then 0x3F000000#64
    else 0

/-- RESERVED bits of 8000h to 9FFFh. -/
def reservedHigh (off : Nat) : Word64 :=
  match off with
  | 0x8008 => 0xC000000080000000#64
  | 0x8010 => 0xFFFFFFFFFFFFFFF8#64
  | 0x8018 => 0xFFFFFFFFFFFF00FC#64
  | 0x8020 => 0xFFFFFFFFFFFFF000#64
  | 0x8028 => 0x6000000000000000#64
  | 0x8030 => 0xFFFFFF1000000000#64
  | 0x8040 => 0xFFFF0000FFFF0000#64
  | 0x8048 => 0x7FFFFFFF00000000#64
  | 0x8050 => 0xFFFFFFFF00000000#64
  | 0x8058 => 0x3FFF000000000000#64
  | 0x8060 => 0xFFFFFFFFFFFFFE00#64
  | 0x8068 => 0x4000000000000000#64
  | 0x9008 => 0xFFFFFFFFFFFFC000#64
  | _ => 0

/-- RESERVED bits of a BAR0 register, read-only ones among them (R15; log 66); none where no register is
defined, or a rule says that writes are discarded (R192, R624, R639). -/
def bar0Reserved (off : Nat) : Word64 :=
  if off < 0x2000 then reservedLow off
  else if off < 0x6000 then reservedRing off
  else if off < 0x8000 then reservedMid off
  else if off < 0xA000 then reservedHigh off
  else 0

/-- 0000h to 0FFFh: identification and global control, and Recovery. -/
def writeHl (off : Nat) (mask v : Word64) (s : State) : State :=
  match off with
  | 0x10 => s.modLink fun l => { l with
      accessSize := l.accessSize && !v.getLsbD 4, ideDrop := l.ideDrop && !v.getLsbD 3 }
  | 0x18 =>
    let d := merge64 mask (BitVec.ofNat 64 s.link.ctrlBits) v
    onHigh mask (fun t => t.interruptAll 26) (s.modLink fun l => { l with
      evtEn := d.getLsbD 2, ptmAlign := d.getLsbD 1, quiesce := d.getLsbD 0 })
  | 0x20 => s.modLink fun l => { l with evt := l.evt &&& ~~~(v.setWidth 9) }
  | 0x28 => onHigh mask (fun t => t.modLink fun l => { l with ptmInterval := BitVec.ofNat 16 (bitsOf v.toNat 47 32) }) s
  | 0x40 => s.modStartup fun x => { x with rcvAddr := merge64 mask x.rcvAddr v }
  | 0x48 => staged off 0 mask v (fun d t => if d.getLsbD 0 then t.recoveryStart (bitsOf d.toNat 51 32) else t) s
  | _ => s

/-- 1000h to 1FFFh: power. -/
def writePw (off : Nat) (mask v : Word64) (s : State) : State :=
  if off = 0x1000 then
    onHigh mask (fun t => ((t.modPower Power.forceGlobal).retest 4 false).announceTolerance) (s.modPower fun p => { p with
      ltGlobal := bitsOf (merge64 mask (BitVec.ofNat 64 p.ltGlobal) v).toNat 31 0 })
  else if off = 0x1010 then
    s.writePwGov (merge64 mask (BitVec.ofNat 64 s.power.govWord) v)
  else if 0x1800 ≤ off then
    let n := (off - 0x1800) / 8
    onHigh mask (fun t => ((t.modPower fun p => p.forceRing n).retest 4 false).announceTolerance)
      (s.setLtRing n (merge64 mask (s.power.ltWord n) v))
  else s

/-- RG_RESET. -/
def State.writeRingReset (s : State) (n : Nat) (data : Word64) : State :=
  let t := if data.getLsbD 1 then s.resetCq n else s
  if data.getLsbD 0 then t.resetSq n else t

/-- 2000h to 5FFFh: the ring register sets. -/
def writeRg (off : Nat) (mask v : Word64) (s : State) : State :=
  let n := (off - 0x2000) / 64
  let r := s.ring n
  match off % 64 with
  | 0x00 => s.writeSqBase n (merge64 mask r.sqBase v)
  | 0x08 => s.writeCqBase n (merge64 mask r.cqBase v)
  | 0x10 => s.writeRingSize n (merge64 mask (BitVec.ofNat 64 (r.cqDepth * 2 ^ 32 + r.sqDepth)) v)
  | 0x18 => staged off r.ctrlWord mask v (fun d t => (t.writeRingCtrl n d).announceTolerance) s
  | 0x28 => staged off 0 mask v (fun d t => t.writeRingReset n d) s
  | _ => s

/-- A CT_CMD that starts (R281, R282). -/
def ctCommand (d : Word64) (s : State) : State := s.ctStart (bitsOf d.toNat 10 8) (bitsOf d.toNat 7 0)

/-- The staging registers and CT_CMD, discarded while a command runs (R281). -/
def writeStaging (off : Nat) (mask v : Word64) (s : State) : State :=
  if s.steward.ctBusy.isSome then s
  else match off with
    | 0x6000 => s.modSteward fun w => { w with ctTarget := merge64 mask w.ctTarget v }
    | 0x6008 => s.modSteward fun w => { w with ctShape := merge64 mask w.ctShape v }
    | 0x6010 => s.modSteward fun w => { w with ctDeadline := merge64 mask w.ctDeadline v }
    | 0x6020 => staged off 0 mask v ctCommand s
    | _ =>
      if 0x6040 ≤ off ∧ off < 0x60C0 then
        let i := (off - 0x6040) / 8
        s.modSteward fun w => { w with ctVerb := aset 0 w.ctVerb i (merge64 mask (aget 0 w.ctVerb i) v) }
      else s

/-- 6000h to 6FFFh: contracts; CT_MEMLAT is not staged, and its re-test starts with the high half (R193). -/
def writeCt (off : Nat) (mask v : Word64) (s : State) : State :=
  if off = 0x6018 then
    let m := bitsOf (merge64 mask (BitVec.ofNat 64 s.steward.ctMemlat) v).toNat 31 0
    if hasHigh mask then s.writeMemlat m else s.modSteward fun w => { w with ctMemlat := m }
  else writeStaging off mask v s

/-- 7000h to 7FFFh: cascade status, on the master; a write of HC_SEQ is an access of it (R545). -/
def writeHc (off : Nat) (mask v : Word64) (s : State) : State :=
  if !s.cascade.master then s
  else match off with
    | 0x7008 => s.modCascade fun c => { c with index := bitsOf (merge64 mask (BitVec.ofNat 64 c.index) v).toNat 11 0 }
    | 0x7028 => onHigh mask State.hcAdvance s
    | 0x7030 => staged off 0 mask v (fun d t => t.reopen (bitsOf d.toNat 11 0)) s
    | _ => s

/-- The Store window registers the host writes only while CLOSED (R304). -/
def Store.whenClosed (t : Store) (f : Store → Store) : Store := if t.state = .closed then f t else t

/-- 8000h to 803Fh: the Store Window. -/
def writeSt (off : Nat) (mask v : Word64) (s : State) : State :=
  match off with
  | 0x8000 => s.modStore fun t => t.whenClosed fun u => { u with base := merge64 mask u.base v }
  | 0x8008 => s.modStore fun t => t.whenClosed fun u => { u with
      pages := bitsOf (merge64 mask (BitVec.ofNat 64 u.pages) v).toNat 30 0 }
  | 0x8010 => staged off 0 mask v (fun d t => t.storeCommand (bitsOf d.toNat 2 0)) s
  | 0x8020 => s.modStore fun t => { t with mapIndex := bitsOf (merge64 mask (BitVec.ofNat 64 t.mapIndex) v).toNat 11 0 }
  | 0x8028 => s.modStore fun t => t.writeEntry fun e =>
      let d := merge64 mask e.rangeWord v
      { e with valid := d.getLsbD 63, count := bitsOf d.toNat 60 30, first := bitsOf d.toNat 29 0 }
  | 0x8030 => onHigh mask (fun t => t.modStore Store.advance) (s.modStore fun t => t.writeEntry fun e =>
      { e with path := BitVec.ofNat 36 (merge64 mask (e.path.zeroExtend 64) v).toNat })
  | _ => s

/-- 8040h to 806Fh: checkpoints and epochs. -/
def writeCk (off : Nat) (mask v : Word64) (s : State) : State :=
  match off with
  | 0x8040 => s.writeCkCtrl (merge64 mask (BitVec.ofNat 64 s.store.ckCtrlWord) v)
  | 0x8050 => staged off 0 mask v (fun d t => t.ackCheckpoint (d.toNat % 2 ^ 32)) s
  | 0x8058 => s.modStore fun t => { t with ckAbandoned := t.ckAbandoned && !v.getLsbD 62 }
  | 0x8060 => staged off (BitVec.ofNat 64 s.store.epShare) mask v (fun d t =>
      if d.getLsbD 8 then t.rotateEpoch else t) (s.modStore fun t => { t with
        epShare := bitsOf (merge64 mask (BitVec.ofNat 64 t.epShare) v).toNat 7 0 })
  | _ => s

/-- C000h to D00Fh: the MSI-X table; an unmasked vector with its pending bit set sends its message (R196, R199). -/
def writeMsix (off : Nat) (mask v : Word64) (s : State) : State :=
  let n := (off - 0xC000) / 16
  let e := aget {} s.link.msix n
  if off % 16 = 0 then
    s.modLink fun l => { l with msix := aput l.msix n { e with addr := merge64 mask e.addr v } }
  else
    let d := merge64 mask (BitVec.ofNat 64 (b2n e.masked * 2 ^ 32 + e.data.toNat)) v
    (s.modLink fun l => { l with
      msix := aput l.msix n { e with data := d.setWidth 32, masked := d.getLsbD 32 } }).flushMsix

/-- A write of a BAR0 register (BAR0 map table; R192: a write elsewhere is discarded). -/
def writeBar0 (off : Nat) (mask v : Word64) (s : State) : State :=
  if off < 0x1000 then writeHl off mask v s
  else if off < 0x2000 then writePw off mask v s
  else if off < 0x6000 then writeRg off mask v s
  else if off < 0x7000 then writeCt off mask v s
  else if off < 0x8000 then writeHc off mask v s
  else if off < 0x8040 then writeSt off mask v s
  else if off < 0x9000 then writeCk off mask v s
  else if off = 0x9008 then
    s.modParish fun p => { p with hptr := bitsOf (merge64 mask (BitVec.ofNat 64 p.hptr) v).toNat 13 0 }
  else if 0xC000 ≤ off ∧ off < 0xD010 then writeMsix off mask v s
  else s

/-- A write of BAR4: bits 31:0 keep what is written, and the write that includes bits 63:32 acts (R193, R232). -/
def writeBar4 (off : Nat) (mask v : Word64) (s : State) : State :=
  if off < 0x800 then
    let n := off / 8
    let d := merge64 mask (BitVec.ofNat 64 (s.ring n).doorbellWord) v
    onHigh mask (fun t => t.ringDoorbell n (d.getLsbD 33) (d.getLsbD 32))
      (s.writeDbLow n (bitsOf d.toNat 31 16) (bitsOf d.toNat 15 0))
  else s

/-! ### Accesses -/

/-- An access of BAR0 or BAR4 that R191 allows: 4 or 8 octets, naturally aligned. -/
def barSizeOk (offset size : Nat) : Bool := (size == 4 || size == 8) && offset % size == 0

/-- ACCESS_SIZE sets (R191, R194). -/
def State.badAccess (s : State) : State := s.modLink fun l => { l with accessSize := true }

/-- The bits a write of 4 or 8 octets addresses in its 64-bit register. -/
def barMask (offset size : Nat) : Word64 :=
  if size = 8 then 0xFFFFFFFFFFFFFFFF#64
  else if offset % 8 = 0 then 0x00000000FFFFFFFF#64
  else 0xFFFFFFFF00000000#64

/-- A host write of a register: RESERVED bits that the free choice of `hostWriteIn` lets through act as zero. -/
def registerWrite (reserved : Nat → Word64) (f : Nat → Word64 → Word64 → State → State) (offset size : Nat)
    (data : Word64) (inStream : Bool) (s : State) : Res :=
  if barSizeOk offset size then
    let off := offset / 8 * 8
    let mask := barMask offset size
    let v := if size = 4 ∧ offset % 8 = 4 then data <<< 32 else data &&& mask
    hostWriteIn inStream (reserved off) v (fun t => .next (f off mask (v &&& ~~~(reserved off)) t)) s
  else hostWriteIn inStream 0 0 (fun t => .next t.badAccess) s

/-- RESERVED bits of a doorbell. -/
def bar4Reserved (off : Nat) : Word64 := if off < 0x800 then 0xFFFFFFFC00000000#64 else 0

/-- A host write of a BAR; one of BAR2 is discarded (R191, R194). -/
def barWrite (bar : Bar) (offset size : Nat) (data : Word64) (inStream : Bool) (s : State) : Res :=
  match bar with
  | .bar0 => registerWrite bar0Reserved writeBar0 (offset % 0x10000) size data inStream s
  | .bar2 => s.same
  | .bar4 => registerWrite bar4Reserved writeBar4 (offset % 0x1000) size data inStream s

/-- A host read of a register: the addressed octets of its 64 bits, and zeros for a bad access (R191, R192). -/
def registerRead (word : State → Nat → Nat) (after : State → Nat → State) (offset size : Nat) (inStream : Bool)
    (s : State) : Res :=
  hostReadIn inStream (fun t =>
    if barSizeOk offset size then
      let off := offset / 8 * 8
      let shown := t.emit (.barData (((leOctets 8 (word t off)).drop (offset % 8)).take size))
      .next (if hasHigh (barMask offset size) then after shown off else shown)
    else .next (t.badAccess.emit (.barData (List.replicate size 0)))) s

/-- A host read of a BAR (R191 to R194, R216). -/
def barRead (bar : Bar) (offset size : Nat) (inStream : Bool) (s : State) : Res :=
  match bar with
  | .bar0 => registerRead State.bar0Read State.afterRead (offset % 0x10000) size inStream s
  | .bar2 => execFastStatusRead offset size s
  | .bar4 => registerRead State.bar4Read (fun t _ => t) (offset % 0x1000) size inStream s

end Sys2Proof.Machine
end

