-- ==== Sys2Proof/Machine/Io.lean ====
section
/-!
DEFINITION. Sys2Proof/Machine/Io.lean: IN and OUT (R130 to R132), a plain register access (R18) through the
IO space or a BAR, and remote register accesses (R543).
-/
namespace Sys2Proof.Machine

/-! ### IN and OUT -/

/-- IN: a register read with the load delay; a stalling register holds the Hand (R130, R132). -/
def inAct (ea : Word) (h : Nat) (a : Reg) (s : State) (x : Hand) : Act :=
  match ioAccess h ea.toNat none s with
  | .done v t => .delayed t x a v
  | .stall t => .hold t
  | .block t => .hold t
  | .fault t faa => .raise t 5 (wd faa) false
  | .reserved t => .raise t 4 ea false

/-- IN (R130). -/
def execInp (h : HandId) (a b : Reg) (io : Imm18) (s : State) : Res :=
  issueOn h false (fun s x => inAct (effIo (x.reg b) io) h a s x) s

/-- The state a write leaves. -/
def IoRes.after (r : IoRes) (s : State) : State :=
  match r with
  | .done _ t => t
  | _ => s

/-- OUT: the instruction completes, then the write takes effect (R130). -/
def outAct (ea : Word) (h : Nat) (d : Word) (s : State) (x : Hand) : Act :=
  match ioAccess h ea.toNat (some d) s with
  | .done _ _ => .ok s none none (x.pc + 1) fun t => (ioAccess h ea.toNat (some d) t).after t
  | .stall t => .hold t
  | .block t => .hold t
  | .fault t faa => .raise t 5 (wd faa) false
  | .reserved t => .raise t 4 ea false

/-- OUT (R130). -/
def execOut (h : HandId) (a b : Reg) (io : Imm18) (s : State) : Res :=
  issueOn h true (fun s x => outAct (effIo (x.reg b) io) h (x.reg a) s x) s

/-! ### A write through the IO space, for the row of R18 (log 31) -/

/-- A write of any register of the IO space by a RUNNING Hand. -/
def ioRegisterWrite (h addr : Nat) (data : Word) (s : State) : Res := accessOn h addr true (ioAccess h addr (some data)) s

/-- REGISTER_WRITE (R18): an access through the IO space, or of a BAR by the host. -/
def execRegisterWrite (w : RegWrite) (s : State) : Res :=
  match w with
  | .io h address data => ioRegisterWrite h address.toNat data s
  | .write bar offset size data inStream => barWrite bar offset size data inStream s
  | .read bar offset size inStream => barRead bar offset size inStream s

/-! ### Remote register accesses (R543) -/

/-- CS_RCMD written with an OP. -/
def remoteRow (h op : Nat) (s : State) : Res := regWrite h 0xD02B 3 (fun t => (t.startRemote op).runOwn) s
/-- REMOTE_READ. -/
def execRemoteRead (h : HandId) (s : State) : Res := remoteRow h 1 s
/-- REMOTE_WRITE. -/
def execRemoteWrite (h : HandId) (s : State) : Res := remoteRow h 2 s

/-- A remote request comes down: this device's own access, or relayed. -/
def State.remoteDown (s : State) (target address : Word) (write : Option Word) : State :=
  if s.ownDevice target then s.runRemote address write
  else s.sendFlit (s.portTo target) 7 0
    [0, target.toNat, address.toNat, b2n write.isSome, (write.getD 0).toNat] []

/-- A status a remote access may report: OK, HOLDING_ABSENT or BATON_REFUSED; any other reads as refused (R16,
R543; log 99). -/
def remoteStatus (n : Nat) : Nat := if n = 0 ∨ n = 0xE0 then n else 0xE1

/-- A remote answer comes up: the master's access ends, a member relays it. -/
def State.remoteUp (s : State) (status : Nat) (v : Word) : State :=
  if !s.cascade.master then s.sendFlit 0 7 0 [1, status, v.toNat] []
  else if s.cascade.rop.isSome then s.endRemote (remoteStatus status) v
  else s

/-- REMOTE: a request at a member's upstream port, an answer at a downstream port. -/
def execRemote (port : Fin 8) (f : FlitHead) (m : RemoteMsg) (s : State) : Res :=
  receiveFlit port f false (fun t => .next (match m with
    | .request target address write =>
      if t.cascade.master || port.val != 0 then t else t.remoteDown target address write
    | .answer status data =>
      if !t.cascade.master && port.val == 0 then t else t.remoteUp status.toNat data)) s

end Sys2Proof.Machine
end

