-- ==== Sys2Proof/Machine/MulDiv.lean ====
section
/-!
DEFINITION. Sys2Proof/Machine/MulDiv.lean: the MULDIV, DEC and FIELD groups (R119 to R126).
-/
namespace Sys2Proof.Machine

/-- A product in whole words. -/
def mulWord (b c : Word) : Word := b * c
def mulhWord (b c : Word) : Word := BitVec.ofInt 36 (b.toInt * c.toInt / 2 ^ 36)
def mulhuWord (b c : Word) : Word := wd (b.toNat * c.toNat / 2 ^ 36)

/-- A multiply or divide that only writes a register. -/
def mulAct (r : BitVec 5) (f : Hand → Word) (s : State) (x : Hand) : Act := .set s x r (f x)

/-- A multiply or divide that raises: precise with nothing written, or imprecise with the result of
R121 written (R121, R164, R165). -/
def trapAct (r : BitVec 5) (cause : Nat) (bad : Hand → Bool) (instead good : Hand → Word) (s : State) (x : Hand) : Act :=
  if !bad x then .set s x r (good x)
  else if preciseOf x.st then .raise s cause (wd x.pc.toNat) false
  else .imprecise s (some (r, instead x)) cause

/-- Signed quotient and remainder, truncated toward zero, wrapping as R120 gives. -/
def quotWord (b c : Word) : Word := BitVec.ofInt 36 (b.toInt.tdiv c.toInt)
def remWord (b c : Word) : Word := BitVec.ofInt 36 (b.toInt.tmod c.toInt)

/-- MUL (R119). -/
def execMul (h : HandId) (a b c : Reg) (s : State) : Res :=
  issueOn h false (mulAct a fun x => mulWord (x.reg b) (x.reg c)) s

/-- MULH (R119). -/
def execMulh (h : HandId) (a b c : Reg) (s : State) : Res :=
  issueOn h false (mulAct a fun x => mulhWord (x.reg b) (x.reg c)) s

/-- MULHU (R119). -/
def execMulhu (h : HandId) (a b c : Reg) (s : State) : Res :=
  issueOn h false (mulAct a fun x => mulhuWord (x.reg b) (x.reg c)) s

/-- MULV (R119, R121). -/
def execMulv (h : HandId) (a b c : Reg) (s : State) : Res :=
  issueOn h false (trapAct a 8 (fun x => mulOverflows (x.reg b) (x.reg c))
    (fun x => mulWord (x.reg b) (x.reg c)) (fun x => mulWord (x.reg b) (x.reg c))) s

/-- DIV (R119 to R121). -/
def execDiv (h : HandId) (a b c : Reg) (s : State) : Res :=
  issueOn h false (trapAct a 9 (fun x => x.reg c == 0) (fun _ => 0xFFFFFFFFF#36)
    (fun x => quotWord (x.reg b) (x.reg c))) s

/-- DIVU (R119 to R121). -/
def execDivu (h : HandId) (a b c : Reg) (s : State) : Res :=
  issueOn h false (trapAct a 9 (fun x => x.reg c == 0) (fun _ => 0xFFFFFFFFF#36)
    (fun x => x.reg b / x.reg c)) s

/-- REM (R119 to R121). -/
def execRem (h : HandId) (a b c : Reg) (s : State) : Res :=
  issueOn h false (trapAct a 9 (fun x => x.reg c == 0) (fun x => x.reg b)
    (fun x => remWord (x.reg b) (x.reg c))) s

/-- REMU (R119 to R121). -/
def execRemu (h : HandId) (a b c : Reg) (s : State) : Res :=
  issueOn h false (trapAct a 9 (fun x => x.reg c == 0) (fun x => x.reg b)
    (fun x => x.reg b % x.reg c)) s

/-- A decimal add or subtract: the result, CY and a sticky BDI (R122, R124). -/
def decAct (h : Nat) (a b c : BitVec 5) (sub carry : Bool) (s : State) (x : Hand) : Act :=
  let r := bcdArith sub (x.reg b) (x.reg c) (carry && cyOf x.st)
  .setSt s h x a r.1 (setCy (orBdi x.st (bcdInvalid (x.reg b) || bcdInvalid (x.reg c))) r.2)

/-- DADD (R122). -/
def execDadd (h : HandId) (a b c : Reg) (s : State) : Res :=
  issueOn h false (decAct h a b c false false) s

/-- DSUB (R122). -/
def execDsub (h : HandId) (a b c : Reg) (s : State) : Res :=
  issueOn h false (decAct h a b c true false) s

/-- DADC (R122). -/
def execDadc (h : HandId) (a b c : Reg) (s : State) : Res :=
  issueOn h false (decAct h a b c false true) s

/-- DSBC (R122). -/
def execDsbc (h : HandId) (a b c : Reg) (s : State) : Res :=
  issueOn h false (decAct h a b c true true) s

/-- DCVT.BD (R123). -/
def execDcvtBd (h : HandId) (a b : Reg) (s : State) : Res :=
  issueOn h false (fun s x => .setSt s h x a (toBcd ((x.reg b).toNat % 10 ^ 9))
    (setCy x.st (decide (10 ^ 9 ≤ (x.reg b).toNat)))) s

/-- DCVT.DB (R123). -/
def execDcvtDb (h : HandId) (a b : Reg) (s : State) : Res :=
  issueOn h false (fun s x => .setSt s h x a (fromBcd (x.reg b)) (orBdi x.st (bcdInvalid (x.reg b)))) s

/-- EXT's field, zero-extended (R125). -/
def extField (w : Word) (pos width : Nat) : Word := wd (w.toNat / 2 ^ pos % 2 ^ width)
/-- INS's word: the field replaced, every other bit kept (R125). -/
def insField (old new : Word) (pos width : Nat) : Word :=
  let mask := wd ((2 ^ width - 1) * 2 ^ pos)
  wmask mask old (new <<< pos)

/-- EXT; a field past bit 35 is an illegal instruction (R125, R126). -/
def execExt (h : HandId) (a b : Reg) (pos widthM1 : BitVec 6) (s : State) : Res :=
  issueOn h false (fun s x =>
    if 36 < pos.toNat + (widthM1.toNat + 1) then .illegal s (encW 4 a b 0 (pos.toNat * 64 + widthM1.toNat))
    else .set s x a (extField (x.reg b) pos.toNat (widthM1.toNat + 1))) s

/-- INS; a field past bit 35 is an illegal instruction (R125, R126). -/
def execIns (h : HandId) (a b : Reg) (pos widthM1 : BitVec 6) (s : State) : Res :=
  issueOn h false (fun s x =>
    if 36 < pos.toNat + (widthM1.toNat + 1) then .illegal s (encW 4 a b 0 (4096 + pos.toNat * 64 + widthM1.toNat))
    else .set s x a (insField (x.reg a) (x.reg b) pos.toNat (widthM1.toNat + 1))) s

end Sys2Proof.Machine
end

