-- ==== Sys2Proof/Machine/Dispatch.lean ====
section
/-!
DEFINITION. Sys2Proof/Machine/Dispatch.lean: one arm for each command, each a direct call of its
meaning.
-/
namespace Sys2Proof.Machine

/-- The effect of a command on everything but the queue. -/
def exec (i : Instr) (s : State) : Host.Outcome State Fault Refusal :=
  match i with
  -- Ramua instructions: (hand, fields a b c in the encoding's order) (file 03).
  | .nop h => Sys2Proof.Machine.execNop h s
  | .mfence h => Sys2Proof.Machine.execMfence h s
  | .iofence h => Sys2Proof.Machine.execIofence h s
  | .pfence h => Sys2Proof.Machine.execPfence h s
  | .eret h => Sys2Proof.Machine.execEret h s
  | .ret h => Sys2Proof.Machine.execRet h s
  | .jr h b => Sys2Proof.Machine.execJr h b s
  | .callr h b => Sys2Proof.Machine.execCallr h b s
  | .mfs h a c => Sys2Proof.Machine.execMfs h a c s
  | .mts h b c => Sys2Proof.Machine.execMts h b c s
  | .done h a b => Sys2Proof.Machine.execDone h a b s
  | .yield h => Sys2Proof.Machine.execYield h s
  | .wait h a b => Sys2Proof.Machine.execWait h a b s
  | .syscall h b => Sys2Proof.Machine.execSyscall h b s
  | .brk h => Sys2Proof.Machine.execBrk h s
  | .pkclr h => Sys2Proof.Machine.execPkclr h s
  | .add h a b c => Sys2Proof.Machine.execAdd h a b c s
  | .addv h a b c => Sys2Proof.Machine.execAddv h a b c s
  | .sub h a b c => Sys2Proof.Machine.execSub h a b c s
  | .subv h a b c => Sys2Proof.Machine.execSubv h a b c s
  | .adc h a b c => Sys2Proof.Machine.execAdc h a b c s
  | .sbc h a b c => Sys2Proof.Machine.execSbc h a b c s
  | .and h a b c => Sys2Proof.Machine.execAnd h a b c s
  | .or h a b c => Sys2Proof.Machine.execOr h a b c s
  | .xor h a b c => Sys2Proof.Machine.execXor h a b c s
  | .andn h a b c => Sys2Proof.Machine.execAndn h a b c s
  | .sll h a b c => Sys2Proof.Machine.execSll h a b c s
  | .srl h a b c => Sys2Proof.Machine.execSrl h a b c s
  | .sra h a b c => Sys2Proof.Machine.execSra h a b c s
  | .ror h a b c => Sys2Proof.Machine.execRor h a b c s
  | .slt h a b c => Sys2Proof.Machine.execSlt h a b c s
  | .sltu h a b c => Sys2Proof.Machine.execSltu h a b c s
  | .seq h a b c => Sys2Proof.Machine.execSeq h a b c s
  | .clz h a b => Sys2Proof.Machine.execClz h a b s
  | .mul h a b c => Sys2Proof.Machine.execMul h a b c s
  | .mulh h a b c => Sys2Proof.Machine.execMulh h a b c s
  | .mulhu h a b c => Sys2Proof.Machine.execMulhu h a b c s
  | .mulv h a b c => Sys2Proof.Machine.execMulv h a b c s
  | .div h a b c => Sys2Proof.Machine.execDiv h a b c s
  | .divu h a b c => Sys2Proof.Machine.execDivu h a b c s
  | .rem h a b c => Sys2Proof.Machine.execRem h a b c s
  | .remu h a b c => Sys2Proof.Machine.execRemu h a b c s
  | .dadd h a b c => Sys2Proof.Machine.execDadd h a b c s
  | .dsub h a b c => Sys2Proof.Machine.execDsub h a b c s
  | .dadc h a b c => Sys2Proof.Machine.execDadc h a b c s
  | .dsbc h a b c => Sys2Proof.Machine.execDsbc h a b c s
  | .dcvtBd h a b => Sys2Proof.Machine.execDcvtBd h a b s
  | .dcvtDb h a b => Sys2Proof.Machine.execDcvtDb h a b s
  | .ext h a b pos widthM1 => Sys2Proof.Machine.execExt h a b pos widthM1 s
  | .ins h a b pos widthM1 => Sys2Proof.Machine.execIns h a b pos widthM1 s
  | .addi h a b imm => Sys2Proof.Machine.execAddi h a b imm s
  | .addiv h a b imm => Sys2Proof.Machine.execAddiv h a b imm s
  | .andi h a b imm => Sys2Proof.Machine.execAndi h a b imm s
  | .ori h a b imm => Sys2Proof.Machine.execOri h a b imm s
  | .xori h a b imm => Sys2Proof.Machine.execXori h a b imm s
  | .lui h a imm => Sys2Proof.Machine.execLui h a imm s
  | .slti h a b imm => Sys2Proof.Machine.execSlti h a b imm s
  | .sltiu h a b imm => Sys2Proof.Machine.execSltiu h a b imm s
  | .slli h a b imm => Sys2Proof.Machine.execSlli h a b imm s
  | .srli h a b imm => Sys2Proof.Machine.execSrli h a b imm s
  | .srai h a b imm => Sys2Proof.Machine.execSrai h a b imm s
  | .rori h a b imm => Sys2Proof.Machine.execRori h a b imm s
  | .ld h a b imm => Sys2Proof.Machine.execLd h a b imm s
  | .st h a b imm => Sys2Proof.Machine.execSt h a b imm s
  | .lwr h a b imm => Sys2Proof.Machine.execLwr h a b imm s
  | .swc h a b imm => Sys2Proof.Machine.execSwc h a b imm s
  | .ild h a b imm => Sys2Proof.Machine.execIld h a b imm s
  | .inp h a b io => Sys2Proof.Machine.execInp h a b io s
  | .out h a b io => Sys2Proof.Machine.execOut h a b io s
  | .jmp h target => Sys2Proof.Machine.execJmp h target s
  | .call h target => Sys2Proof.Machine.execCall h target s
  | .beq h a b target => Sys2Proof.Machine.execBeq h a b target s
  | .bne h a b target => Sys2Proof.Machine.execBne h a b target s
  | .blt h a b target => Sys2Proof.Machine.execBlt h a b target s
  | .bge h a b target => Sys2Proof.Machine.execBge h a b target s
  | .bltu h a b target => Sys2Proof.Machine.execBltu h a b target s
  | .bgeu h a b target => Sys2Proof.Machine.execBgeu h a b target s
  | .wmov h a b c cut => Sys2Proof.Machine.execWmov h a b c cut s
  | .wfill h a b c cut => Sys2Proof.Machine.execWfill h a b c cut s
  | .wsumCrc h a b c cut => Sys2Proof.Machine.execWsumCrc h a b c cut s
  | .wsumAdd h a b c cut => Sys2Proof.Machine.execWsumAdd h a b c cut s
  | .macn h a b c cut => Sys2Proof.Machine.execMacn h a b c cut s
  | .reservedOpcode h word => Sys2Proof.Machine.execReservedOpcode h word s
  -- Traps, interrupts and timers (file 04).
  | .interrupt h => Sys2Proof.Machine.execInterrupt h s
  | .impreciseException h => Sys2Proof.Machine.execImpreciseException h s
  | .handTimerExpiry h => Sys2Proof.Machine.execHandTimerExpiry h s
  | .icSwi h set => Sys2Proof.Machine.execIcSwi h set s
  -- The host link (file 05).
  | .perstN => Sys2Proof.Machine.execPerstN s
  | .hotReset => Sys2Proof.Machine.execHotReset s
  | .dlDown => Sys2Proof.Machine.execDlDown s
  | .d3cold => Sys2Proof.Machine.execD3cold s
  | .d3hot => Sys2Proof.Machine.execD3hot s
  | .d0 => Sys2Proof.Machine.execD0 s
  | .linkUp rates widths flit => Sys2Proof.Machine.execLinkUp rates widths flit s
  | .configRequest req => Sys2Proof.Machine.execConfigRequest req s
  | .readinessTimeout => Sys2Proof.Machine.execReadinessTimeout s
  | .fastStatusRead offset len => Sys2Proof.Machine.execFastStatusRead offset len s
  | .hlCtrl data => Sys2Proof.Machine.execHlCtrl data s
  | .msixUnmask vector => Sys2Proof.Machine.execMsixUnmask vector s
  | .doeRequest object => Sys2Proof.Machine.execDoeRequest object s
  | .ideInsecure => Sys2Proof.Machine.execIdeInsecure s
  | .ideSecure keySet keys => Sys2Proof.Machine.execIdeSecure keySet keys s
  | .ptmInterval => Sys2Proof.Machine.execPtmInterval s
  | .ptmResponse masterNs => Sys2Proof.Machine.execPtmResponse masterNs s
  | .completionTimeout read => Sys2Proof.Machine.execCompletionTimeout read s
  -- Rings and errands (file 06).
  | .rgSqBase n data => Sys2Proof.Machine.execRgSqBase n data s
  | .rgCqBase n data => Sys2Proof.Machine.execRgCqBase n data s
  | .rgSize n data => Sys2Proof.Machine.execRgSize n data s
  | .rgCtrl n data => Sys2Proof.Machine.execRgCtrl n data s
  | .rgResetSq n => Sys2Proof.Machine.execRgResetSq n s
  | .sqResetDone n => Sys2Proof.Machine.execSqResetDone n s
  | .rgResetCq n => Sys2Proof.Machine.execRgResetCq n s
  | .cqResetDone n => Sys2Proof.Machine.execCqResetDone n s
  | .doorbellSqTail n tail => Sys2Proof.Machine.execDoorbellSqTail n tail s
  | .doorbellCqHead n head => Sys2Proof.Machine.execDoorbellCqHead n head s
  | .descriptorFetch => Sys2Proof.Machine.execDescriptorFetch s
  | .descriptorArrival n read data => Sys2Proof.Machine.execDescriptorArrival n read data s
  | .handAllocate => Sys2Proof.Machine.execHandAllocate s
  | .errandStart h buf0 => Sys2Proof.Machine.execErrandStart h buf0 s
  | .completionWrite e bufferOk cqOk => Sys2Proof.Machine.execCompletionWrite e bufferOk cqOk s
  | .load e image room => Sys2Proof.Machine.execLoad e image room s
  | .unload e => Sys2Proof.Machine.execUnload e s
  | .unloadComplete e => Sys2Proof.Machine.execUnloadComplete e s
  | .checkpoint e => Sys2Proof.Machine.execCheckpoint e s
  | .swIsubmit h reldl => Sys2Proof.Machine.execSwIsubmit h reldl s
  | .swIcpl7Read h => Sys2Proof.Machine.execSwIcpl7Read h s
  -- The Steward (file 07).
  | .grantLane h => Sys2Proof.Machine.execGrantLane h s
  | .grantSliceSeq h => Sys2Proof.Machine.execGrantSliceSeq h s
  | .grantSliceMac h => Sys2Proof.Machine.execGrantSliceMac h s
  | .grantRb h kib => Sys2Proof.Machine.execGrantRb h kib s
  | .grantDrbg h => Sys2Proof.Machine.execGrantDrbg h s
  | .releaseLane h => Sys2Proof.Machine.execReleaseLane h s
  | .releaseSlice h => Sys2Proof.Machine.execReleaseSlice h s
  | .releaseRb h => Sys2Proof.Machine.execReleaseRb h s
  | .releaseDrbg h => Sys2Proof.Machine.execReleaseDrbg h s
  | .grantDeliver cls => Sys2Proof.Machine.execGrantDeliver cls s
  | .handback cls unit => Sys2Proof.Machine.execHandback cls unit s
  | .handbackRestore h cls => Sys2Proof.Machine.execHandbackRestore h cls s
  | .coreNsOverrun h => Sys2Proof.Machine.execCoreNsOverrun h s
  | .swStop h dtag code => Sys2Proof.Machine.execSwStop h dtag code s
  | .swSliceMode h seq => Sys2Proof.Machine.execSwSliceMode h seq s
  | .sliceModeChange slice => Sys2Proof.Machine.execSliceModeChange slice s
  | .coreOutOfService h core => Sys2Proof.Machine.execCoreOutOfService h core s
  | .coreReturn h core => Sys2Proof.Machine.execCoreReturn h core s
  | .coreWatchdogExpiry core => Sys2Proof.Machine.execCoreWatchdogExpiry core s
  | .set ring => Sys2Proof.Machine.execSet ring s
  | .remove ring => Sys2Proof.Machine.execRemove ring s
  | .ctMemlat memlat => Sys2Proof.Machine.execCtMemlat memlat s
  | .deadlinePassed e => Sys2Proof.Machine.execDeadlinePassed e s
  | .memlatExceeded member => Sys2Proof.Machine.execMemlatExceeded member s
  | .memlatCauseClear => Sys2Proof.Machine.execMemlatCauseClear s
  -- The Sealed Store (file 08).
  | .storeOpen => Sys2Proof.Machine.execStoreOpen s
  | .storeOpenNew => Sys2Proof.Machine.execStoreOpenNew s
  | .storeClose => Sys2Proof.Machine.execStoreClose s
  | .shareOpenComplete share report => Sys2Proof.Machine.execShareOpenComplete share report s
  | .stMapOwner write => Sys2Proof.Machine.execStMapOwner write s
  | .sopen h rdonly src slot => Sys2Proof.Machine.execSopen h rdonly src slot s
  | .sclose h slot => Sys2Proof.Machine.execSclose h slot s
  | .pin h page => Sys2Proof.Machine.execPin h page s
  | .unpin h page => Sys2Proof.Machine.execUnpin h page s
  | .pageInStart nodes => Sys2Proof.Machine.execPageInStart nodes s
  | .pageInComplete page data nodes => Sys2Proof.Machine.execPageInComplete page data nodes s
  | .writeBack target nodes => Sys2Proof.Machine.execWriteBack target nodes s
  | .ckCtrl data => Sys2Proof.Machine.execCkCtrl data s
  | .checkpointInterval => Sys2Proof.Machine.execCheckpointInterval s
  | .checkpointStart => Sys2Proof.Machine.execCheckpointStart s
  | .checkpointReady => Sys2Proof.Machine.execCheckpointReady s
  | .ckAck data => Sys2Proof.Machine.execCkAck data s
  | .checkpointDone => Sys2Proof.Machine.execCheckpointDone s
  | .checkpointAbandoned => Sys2Proof.Machine.execCheckpointAbandoned s
  | .pfwNFall => Sys2Proof.Machine.execPfwNFall s
  | .pfwNResume => Sys2Proof.Machine.execPfwNResume s
  | .rotate => Sys2Proof.Machine.execRotate s
  | .sweepPage data nodes => Sys2Proof.Machine.execSweepPage data nodes s
  -- Cipher lanes (file 09).
  | .ecbEncrypt h go => Sys2Proof.Machine.execEcbEncrypt h go s
  | .ecbDecrypt h go => Sys2Proof.Machine.execEcbDecrypt h go s
  | .cbcEncrypt h go => Sys2Proof.Machine.execCbcEncrypt h go s
  | .cbcDecrypt h go => Sys2Proof.Machine.execCbcDecrypt h go s
  | .ctrEncrypt h go => Sys2Proof.Machine.execCtrEncrypt h go s
  | .ctrDecrypt h go => Sys2Proof.Machine.execCtrDecrypt h go s
  | .gcmEncrypt h go => Sys2Proof.Machine.execGcmEncrypt h go s
  | .gcmDecrypt h go => Sys2Proof.Machine.execGcmDecrypt h go s
  | .ccmEncrypt h go => Sys2Proof.Machine.execCcmEncrypt h go s
  | .ccmDecrypt h go => Sys2Proof.Machine.execCcmDecrypt h go s
  | .cmacGenerate h go => Sys2Proof.Machine.execCmacGenerate h go s
  | .cmacVerify h go => Sys2Proof.Machine.execCmacVerify h go s
  | .xtsEncrypt h go => Sys2Proof.Machine.execXtsEncrypt h go s
  | .xtsDecrypt h go => Sys2Proof.Machine.execXtsDecrypt h go s
  | .kwWrap h go => Sys2Proof.Machine.execKwWrap h go s
  | .kwUnwrap h go => Sys2Proof.Machine.execKwUnwrap h go s
  | .kwpWrap h go => Sys2Proof.Machine.execKwpWrap h go s
  | .kwpUnwrap h go => Sys2Proof.Machine.execKwpUnwrap h go s
  | .laneOpEnd lane source readOk writeOk => Sys2Proof.Machine.execLaneOpEnd lane source readOk writeOk s
  | .lnFlush h => Sys2Proof.Machine.execLnFlush h s
  -- Public-key slices (file 10).
  | .keygen h cmd => Sys2Proof.Machine.execKeygen h cmd s
  | .sign h cmd => Sys2Proof.Machine.execSign h cmd s
  | .verify h cmd => Sys2Proof.Machine.execVerify h cmd s
  | .agree h cmd => Sys2Proof.Machine.execAgree h cmd s
  | .encaps h cmd => Sys2Proof.Machine.execEncaps h cmd s
  | .decaps h cmd => Sys2Proof.Machine.execDecaps h cmd s
  | .pkMctl h data => Sys2Proof.Machine.execPkMctl h data s
  | .run h len idx => Sys2Proof.Machine.execRun h len idx s
  | .accout h len idx => Sys2Proof.Machine.execAccout h len idx s
  | .accadd h len idx => Sys2Proof.Machine.execAccadd h len idx s
  | .accclr h => Sys2Proof.Machine.execAccclr h s
  | .pkOpdata h write => Sys2Proof.Machine.execPkOpdata h write s
  | .pkUcodeLoad h => Sys2Proof.Machine.execPkUcodeLoad h s
  | .sliceOpEnd slice checkOk => Sys2Proof.Machine.execSliceOpEnd slice checkOk s
  -- The Key Vault (file 11).
  | .derive h root => Sys2Proof.Machine.execDerive h root s
  | .info h => Sys2Proof.Machine.execInfo h s
  | .generate h => Sys2Proof.Machine.execGenerate h s
  | .destroy h => Sys2Proof.Machine.execDestroy h s
  | .lockexp h => Sys2Proof.Machine.execLockexp h s
  | .save h => Sys2Proof.Machine.execSave h s
  | .vaultLoad h => Sys2Proof.Machine.execVaultLoad h s
  | .exportKey h => Sys2Proof.Machine.execExportKey h s
  | .importKey h => Sys2Proof.Machine.execImportKey h s
  | .issue h => Sys2Proof.Machine.execIssue h s
  | .attest h => Sys2Proof.Machine.execAttest h s
  | .spdmSign h => Sys2Proof.Machine.execSpdmSign h s
  | .split h => Sys2Proof.Machine.execSplit h s
  | .combine h => Sys2Proof.Machine.execCombine h s
  | .lwkRotate h => Sys2Proof.Machine.execLwkRotate h s
  | .bbkrNew h => Sys2Proof.Machine.execBbkrNew h s
  | .storeEscrow h => Sys2Proof.Machine.execStoreEscrow h s
  | .storeRestore h => Sys2Proof.Machine.execStoreRestore h s
  | .vaultCommandEnd h => Sys2Proof.Machine.execVaultCommandEnd h s
  -- Entropy (file 12).
  | .sourceStartupTest source samples => Sys2Proof.Machine.execSourceStartupTest source samples s
  | .entropySourceFail source test => Sys2Proof.Machine.execEntropySourceFail source test s
  | .seedProduced raw => Sys2Proof.Machine.execSeedProduced raw s
  | .instanceDue k => Sys2Proof.Machine.execInstanceDue k s
  | .entropyStall k => Sys2Proof.Machine.execEntropyStall k s
  | .drOut h => Sys2Proof.Machine.execDrOut h s
  | .retry h sources => Sys2Proof.Machine.execRetry h sources s
  | .selftest h => Sys2Proof.Machine.execSelftest h s
  | .healthSelftestEnd failed katOk => Sys2Proof.Machine.execHealthSelftestEnd failed katOk s
  | .entRaw h samples => Sys2Proof.Machine.execEntRaw h samples s
  | .patternSet h sources => Sys2Proof.Machine.execPatternSet h sources s
  | .patternClear h sources => Sys2Proof.Machine.execPatternClear h sources s
  -- Access control units (file 13).
  | .acuCtrl h unit data => Sys2Proof.Machine.execAcuCtrl h unit data s
  -- Flash (file 14).
  | .program h => Sys2Proof.Machine.execProgram h s
  | .erase h => Sys2Proof.Machine.execErase h s
  | .blankCheck h => Sys2Proof.Machine.execBlankCheck h s
  | .flashOpEnd bank verifyOk => Sys2Proof.Machine.execFlashOpEnd bank verifyOk s
  | .flData h => Sys2Proof.Machine.execFlData h s
  | .eraseResume bank => Sys2Proof.Machine.execEraseResume bank s
  | .flWp h k data => Sys2Proof.Machine.execFlWp h k data s
  -- Cascade (file 15).
  | .idle port f => Sys2Proof.Machine.execIdle port f s
  | .control port f m => Sys2Proof.Machine.execControl port f m s
  | .errand port f m => Sys2Proof.Machine.execErrand port f m s
  | .completion port f m => Sys2Proof.Machine.execCompletion port f m s
  | .tread port f m => Sys2Proof.Machine.execTread port f m s
  | .tdata port f m => Sys2Proof.Machine.execTdata port f m s
  | .twrite port f m => Sys2Proof.Machine.execTwrite port f m s
  | .remote port f m => Sys2Proof.Machine.execRemote port f m s
  | .time port f parentTally stepped => Sys2Proof.Machine.execTime port f parentTally stepped s
  | .timeInterval => Sys2Proof.Machine.execTimeInterval s
  | .retransmitTimeout port => Sys2Proof.Machine.execRetransmitTimeout port s
  | .batonSilence port => Sys2Proof.Machine.execBatonSilence port s
  | .upstreamLoss => Sys2Proof.Machine.execUpstreamLoss s
  | .signalDetect port => Sys2Proof.Machine.execSignalDetect port s
  | .linkTrained port peer peerMaster => Sys2Proof.Machine.execLinkTrained port peer peerMaster s
  | .trainingTimeout port => Sys2Proof.Machine.execTrainingTimeout port s
  | .failedRetrain port => Sys2Proof.Machine.execFailedRetrain port s
  | .keyUpdate port => Sys2Proof.Machine.execKeyUpdate port s
  | .joinOffer offer => Sys2Proof.Machine.execJoinOffer offer s
  | .joinAuthenticated path session => Sys2Proof.Machine.execJoinAuthenticated path session s
  | .accept h => Sys2Proof.Machine.execAccept h s
  | .reject h => Sys2Proof.Machine.execReject h s
  | .joinDecisionTimeout => Sys2Proof.Machine.execJoinDecisionTimeout s
  | .memberJoined path almanacOk => Sys2Proof.Machine.execMemberJoined path almanacOk s
  | .csCtrl h data => Sys2Proof.Machine.execCsCtrl h data s
  | .remoteRead h => Sys2Proof.Machine.execRemoteRead h s
  | .remoteWrite h => Sys2Proof.Machine.execRemoteWrite h s
  | .hcReopen devnum => Sys2Proof.Machine.execHcReopen devnum s
  | .hcSeq => Sys2Proof.Machine.execHcSeq s
  -- Power (file 16).
  | .dozeEntry => Sys2Proof.Machine.execDozeEntry s
  | .napEntry => Sys2Proof.Machine.execNapEntry s
  | .slumberEntry => Sys2Proof.Machine.execSlumberEntry s
  | .wakeEvent => Sys2Proof.Machine.execWakeEvent s
  | .pmeTurnOff => Sys2Proof.Machine.execPmeTurnOff s
  | .wakeIn => Sys2Proof.Machine.execWakeIn s
  | .tjReading sensors coolForOneSecond => Sys2Proof.Machine.execTjReading sensors coolForOneSecond s
  | .sprintLockExpiry => Sys2Proof.Machine.execSprintLockExpiry s
  | .pwLtGlobal data => Sys2Proof.Machine.execPwLtGlobal data s
  | .pwLtRing n data => Sys2Proof.Machine.execPwLtRing n data s
  | .pwGov data => Sys2Proof.Machine.execPwGov data s
  | .gvCtrl h data => Sys2Proof.Machine.execGvCtrl h data s
  -- Life cycle and debug (file 17).
  | .lcQuery => Sys2Proof.Machine.execLcQuery s
  | .challenge => Sys2Proof.Machine.execChallenge s
  | .dbgOpen certificate => Sys2Proof.Machine.execDbgOpen certificate s
  | .dbgClose => Sys2Proof.Machine.execDbgClose s
  | .trialEnter slot stateCode preimage => Sys2Proof.Machine.execTrialEnter slot stateCode preimage s
  | .lcAdvance by_ target => Sys2Proof.Machine.execLcAdvance by_ target s
  | .fuseAdvanceEnd => Sys2Proof.Machine.execFuseAdvanceEnd s
  | .dbgHalt hand => Sys2Proof.Machine.execDbgHalt hand s
  | .dbgResume hand => Sys2Proof.Machine.execDbgResume hand s
  | .dbgStep hand => Sys2Proof.Machine.execDbgStep hand s
  | .dbgRead address count => Sys2Proof.Machine.execDbgRead address count s
  | .dbgWrite address words => Sys2Proof.Machine.execDbgWrite address words s
  | .trace hand op => Sys2Proof.Machine.execTrace hand op s
  | .parishRead first count archive => Sys2Proof.Machine.execParishRead first count archive s
  | .flashRead address count => Sys2Proof.Machine.execFlashRead address count s
  | .powerHold on => Sys2Proof.Machine.execPowerHold on s
  | .scan chain bits data => Sys2Proof.Machine.execScan chain bits data s
  | .raw source samples => Sys2Proof.Machine.execRaw source samples s
  | .status => Sys2Proof.Machine.execStatus s
  | .nonceExpiry => Sys2Proof.Machine.execNonceExpiry s
  | .sessionExpiry => Sys2Proof.Machine.execSessionExpiry s
  | .dbgCtrl h data => Sys2Proof.Machine.execDbgCtrl h data s
  | .debugWindowClose tests => Sys2Proof.Machine.execDebugWindowClose tests s
  | .extest => Sys2Proof.Machine.execExtest s
  | .samplePreload => Sys2Proof.Machine.execSamplePreload s
  | .idcode => Sys2Proof.Machine.execIdcode s
  | .bypass => Sys2Proof.Machine.execBypass s
  -- The Watch domain (file 18).
  | .monitorAlarm alarms => Sys2Proof.Machine.execMonitorAlarm alarms s
  | .watchPowerOnReset => Sys2Proof.Machine.execWatchPowerOnReset s
  | .logclr h => Sys2Proof.Machine.execLogclr h s
  | .resume h => Sys2Proof.Machine.execResume h s
  | .wlock h => Sys2Proof.Machine.execWlock h s
  | .mlock h => Sys2Proof.Machine.execMlock h s
  | .wtMon h monitor data => Sys2Proof.Machine.execWtMon h monitor data s
  | .monitorSelftest h monitor => Sys2Proof.Machine.execMonitorSelftest h monitor s
  | .monitorSelftestEnd pass => Sys2Proof.Machine.execMonitorSelftestEnd pass s
  | .rtcLoad h data => Sys2Proof.Machine.execRtcLoad h data s
  | .rtcCapture h => Sys2Proof.Machine.execRtcCapture h s
  -- The Parish Register (file 19).
  | .prWrite h code => Sys2Proof.Machine.execPrWrite h code s
  | .prSnap h code => Sys2Proof.Machine.execPrSnap h code s
  | .prRdata h => Sys2Proof.Machine.execPrRdata h s
  | .phRdata => Sys2Proof.Machine.execPhRdata s
  | .prCtrl h data => Sys2Proof.Machine.execPrCtrl h data s
  | .archiveFlush => Sys2Proof.Machine.execArchiveFlush s
  -- Card gates (file 20).
  | .activate h gate => Sys2Proof.Machine.execActivate h gate s
  | .deactivate h gate => Sys2Proof.Machine.execDeactivate h gate s
  | .apdu h gate txlen => Sys2Proof.Machine.execApdu h gate txlen s
  | .seat h gate => Sys2Proof.Machine.execSeat h gate s
  | .cardRead h gate seat block => Sys2Proof.Machine.execCardRead h gate seat block s
  | .cardWrite h gate seat block => Sys2Proof.Machine.execCardWrite h gate seat block s
  | .sleep h gate seat => Sys2Proof.Machine.execSleep h gate seat s
  | .cardWake h gate seat => Sys2Proof.Machine.execCardWake h gate seat s
  | .cardUnlock h gate seat => Sys2Proof.Machine.execCardUnlock h gate seat s
  | .cardOpEnd gate answer => Sys2Proof.Machine.execCardOpEnd gate answer s
  | .presChange gate level silent => Sys2Proof.Machine.execPresChange gate level silent s
  | .cardSupplyFail gate => Sys2Proof.Machine.execCardSupplyFail gate s
  | .cgClaim h gate claim => Sys2Proof.Machine.execCgClaim h gate claim s
  | .cgBdata h gate write => Sys2Proof.Machine.execCgBdata h gate write s
  | .cgCtrl h gate data => Sys2Proof.Machine.execCgCtrl h gate data s
  -- The Custody Tag (file 21).
  | .fieldEntry noise => Sys2Proof.Machine.execFieldEntry noise s
  | .fieldLoss => Sys2Proof.Machine.execFieldLoss s
  | .fdHoldExpiry => Sys2Proof.Machine.execFdHoldExpiry s
  | .reqa => Sys2Proof.Machine.execReqa s
  | .wupa => Sys2Proof.Machine.execWupa s
  | .anticollision known => Sys2Proof.Machine.execAnticollision known s
  | .select uid => Sys2Proof.Machine.execSelect uid s
  | .hlta => Sys2Proof.Machine.execHlta s
  | .rats => Sys2Proof.Machine.execRats s
  | .pps dri dsi => Sys2Proof.Machine.execPps dri dsi s
  | .deselect => Sys2Proof.Machine.execDeselect s
  | .getInfo mac => Sys2Proof.Machine.execGetInfo mac s
  | .readLive mac => Sys2Proof.Machine.execReadLive mac s
  | .readPage page mac => Sys2Proof.Machine.execReadPage page mac s
  | .writePage page data mac strong => Sys2Proof.Machine.execWritePage page data mac strong s
  | .fieldWriteEnd stage => Sys2Proof.Machine.execFieldWriteEnd stage s
  | .authPwd password mac => Sys2Proof.Machine.execAuthPwd password mac s
  | .auth1 noise mac => Sys2Proof.Machine.execAuth1 noise mac s
  | .auth2 rndR proof mac => Sys2Proof.Machine.execAuth2 rndR proof mac s
  | .authDelayExpiry => Sys2Proof.Machine.execAuthDelayExpiry s
  | .logout mac => Sys2Proof.Machine.execLogout mac s
  | .tagRead h page => Sys2Proof.Machine.execTagRead h page s
  | .tagWrite h page => Sys2Proof.Machine.execTagWrite h page s
  | .summary h => Sys2Proof.Machine.execSummary h s
  | .summaryAuto => Sys2Proof.Machine.execSummaryAuto s
  | .setpwd h => Sys2Proof.Machine.execSetpwd h s
  | .setkey h => Sys2Proof.Machine.execSetkey h s
  | .clearauth h => Sys2Proof.Machine.execClearauth h s
  | .setacl h => Sys2Proof.Machine.execSetacl h s
  | .tagCmdEnd stage => Sys2Proof.Machine.execTagCmdEnd stage s
  | .tagUnlock h => Sys2Proof.Machine.execTagUnlock h s
  -- Reset, start-up and recovery (file 22).
  | .deviceReset => Sys2Proof.Machine.execDeviceReset s
  | .guardPowerOnReset => Sys2Proof.Machine.execGuardPowerOnReset s
  | .railsGood => Sys2Proof.Machine.execRailsGood s
  | .deviceResetEnd cascRoot bootSel => Sys2Proof.Machine.execDeviceResetEnd cascRoot bootSel s
  | .deviceWatchdogExpiry => Sys2Proof.Machine.execDeviceWatchdogExpiry s
  | .service h => Sys2Proof.Machine.execService h s
  | .stewardGo h => Sys2Proof.Machine.execStewardGo h s
  | .wdLock h => Sys2Proof.Machine.execWdLock h s
  | .fwReady h setup => Sys2Proof.Machine.execFwReady h setup s
  | .gcCtrlReset h => Sys2Proof.Machine.execGcCtrlReset h s
  | .gcStage h stage => Sys2Proof.Machine.execGcStage h stage s
  | .recoveryGo words => Sys2Proof.Machine.execRecoveryGo words s
  | .recoveryWriteEnd image flashOk => Sys2Proof.Machine.execRecoveryWriteEnd image flashOk s
  | .recoveryReset => Sys2Proof.Machine.execRecoveryReset s
  | .registerWrite w => Sys2Proof.Machine.execRegisterWrite w s
  | .mainSideUnpowered => Sys2Proof.Machine.execMainSideUnpowered s
  | .vbatLoss => Sys2Proof.Machine.execVbatLoss s
  | .wdogWarn core => Sys2Proof.Machine.execWdogWarn core s
  | .cardClockStop gate => Sys2Proof.Machine.execCardClockStop gate s

end Sys2Proof.Machine
end

