-- ==== Sys2Proof/Machine/Tick.lean ====
section
/-!
DEFINITION. Sys2Proof/Machine/Tick.lean: what passes with one Tally tick of 10 ns when no command waits
(log 9): the counters the spec drives from a clock, and what follows when one reaches its end.
-/
namespace Sys2Proof.Machine

/-- The device's clocks run: powered, out of reset, and not Dormant (R554, R693). -/
def State.clocked (s : State) : Bool :=
  !s.startup.inReset && !s.watch.mainDark && decide (s.power.state ≠ .dormant)

/-- One tick of a clock that reaches its end every `period` ticks: the count after it, and whether it ended. -/
def clockTick (count period : Nat) : Nat × Bool :=
  if period ≤ count + 1 then (0, true) else (count + 1, false)

/-! ### The Tally counter (R218, R219) -/

/-- Tally ticks counted in this nominal tick: 1, but at the end of each group of 1,024 while slewing 2 when
behind and 0 when ahead (R219). -/
def HostLink.tallyAdvance (l : HostLink) : Nat :=
  if l.slew = 0 || l.slewPhase != 1023 then 1 else if l.slew < 0 then 2 else 0

/-- The Tally counter after one nominal tick. -/
def HostLink.tick (l : HostLink) : HostLink :=
  { l with
    tally := l.tally + l.tallyAdvance
    slew := l.slew + l.tallyAdvance - 1
    slewPhase := if l.slew = 0 then 0 else (l.slewPhase + 1) % 1024 }

/-! ### Hand timers (R182, R554) -/

/-- One Tally tick of a Hand's timer (R182). -/
def State.tickTimer (s : State) (h : Nat) : State :=
  let x := s.hand h
  if !x.htRun || x.htCount = 0 then s
  else if x.htCount = 1 then s.timerExpire h
  else s.modHand h fun x => { x with htCount := x.htCount - 1 }

/-- The Hands whose timers count: every Hand in Run, Hand 0 of the Reeve core below it (R554). -/
def State.timedHands (s : State) : List Nat := if s.power.state = .run then s.hands.map (·.1) else [0]

/-- One Tally tick of every timer that counts. -/
def State.tickTimers (s : State) : State := s.timedHands.foldl State.tickTimer s

/-! ### Watchdogs (R35, R296, R693) -/

/-- One Tally tick of a core's watchdog: at half its period vector 8 asserts, at its period it expires (R296). -/
def State.tickWatchdog (s : State) (c : Nat) : State :=
  if !s.watchdogCounts c then s
  else
    let k := s.core c
    let p := k.period.toNat
    let n := k.wdCount + 1
    let t := s.modCore c fun k => { k with wdCount := n }
    if p ≤ n then t.watchdogExpire c
    else if 2 * k.wdCount < p && decide (p ≤ 2 * n) then (t.assertOn c 8).settle
    else t

/-- One Tally tick of every core watchdog. -/
def State.tickWatchdogs (s : State) : State := (List.range 128).foldl State.tickWatchdog s

/-- The timers and watchdogs over the Tally ticks counted, 0 to 2. -/
def State.tickTally (s : State) : Nat → State
  | 0 => s
  | n + 1 => s.tickTimers.tickWatchdogs.tickTally n

/-- 10 ns of the device watchdog, which counts milliseconds and resets the device at 0; the boot ROM services it
(R693, R694, R704). -/
def State.tickDeviceWatchdog (s : State) : State :=
  if (s.hand 0).boot then s.modStartup fun x => { x with wdCount := max 100 x.wdPeriod, wdRest := 0 }
  else
  let r := clockTick s.startup.wdRest 100000
  let t := s.modStartup fun x => { x with wdRest := r.1, wdCount := if r.2 then x.wdCount - 1 else x.wdCount }
  if r.2 && decide (t.startup.wdCount = 0) then t.deviceReset 4 else t

/-! ### Checkpoints and token buckets (R333, R339, R635, R659) -/

/-- The checkpoint INTERVAL, in units of 100 ms, while the Store is OPEN or CLOSING: at its end a checkpoint is
due, and the count waits there for its start (R333). -/
def Store.tickInterval (t : Store) : Store :=
  if !t.live || t.ckInterval = 0 || t.intervalOver then t
  else
    let u := { t with ckClock := t.ckClock + 1 }
    { u with ckDue := u.ckDue || u.intervalOver }

/-- The owner's checkpoint bucket: one token every 3.2 s, at most 64 (R339). -/
def Store.tickTokens (t : Store) : Store :=
  if 64 ≤ t.tokens then { t with tokenClock := 0 }
  else
    let r := clockTick t.tokenClock 320000000
    { t with tokenClock := r.1, tokens := if r.2 then t.tokens + 1 else t.tokens }

/-- A member's bucket that holds a token again tells the master (R339; log 40). -/
def State.tickBucket (s : State) : State :=
  let t := s.modStore Store.tickTokens
  if s.store.tokens = 0 ∧ t.store.tokens ≠ 0 then t.tellToken else t

/-- The archive bucket: one token every 8 s, at most 256; and the time by which the codes' buckets refill (R633,
R635). -/
def Parish.tickTokens (p : Parish) : Parish :=
  if 256 ≤ p.archTokens then { p with archClock := 0, now := p.now + 1 }
  else
    let r := clockTick p.archClock 800000000
    { p with archClock := r.1, archTokens := if r.2 then p.archTokens + 1 else p.archTokens, now := p.now + 1 }

/-- The Card Journal bucket: one token every 40 s, at most 64 (R659). -/
def Journal.tickTokens (j : Journal) : Journal :=
  if 64 ≤ j.tokens then { j with clock := 0 }
  else
    let r := clockTick j.clock 4000000000
    { j with clock := r.1, tokens := if r.2 then j.tokens + 1 else j.tokens }

/-! ### The RTC (R615) -/

/-- The next state of a loop's 15-bit sequence register, x^15 + x^14 + 1 (R599; log 101). -/
def loopStep (r : Nat) : Nat := r * 2 % 32768 + (r / 16384 + r / 8192) % 2

/-- One sample of the loops: each drive pin sends the next bit of its sequence (R599; log 101). -/
def Watch.sampleLoops (w : Watch) : Watch :=
  { w with
    loopDrive := BitVec.ofNat 4 ((List.range 4).foldl (fun a n => a + aget 1 w.loops n / 16384 % 2 * 2 ^ n) 0)
    loops := (List.range 4).map fun n => (n, loopStep (aget 1 w.loops n)) }

/-- One slow tick of the loops, which are sampled every 32 (Monitors table). -/
def Watch.tickLoops (w : Watch) : Watch :=
  let r := clockTick w.loopTicks 32
  let t := { w with loopTicks := r.1 }
  if r.2 then t.sampleLoops else t

/-- 10 ns of the RTC: 32,768 fractions a second, and the seconds modulo 2^48; the loops go with it (R599, R615). -/
def Watch.tickRtc (w : Watch) : Watch :=
  if w.noVbat then w
  else
    let slow := decide (100000000 ≤ w.rtcRest + 32768)
    let carry := slow && decide (w.rtcFrac = 32767)
    let t := if slow then w.tickLoops else w
    { t with
      rtcRest := if slow then w.rtcRest + 32768 - 100000000 else w.rtcRest + 32768
      rtcFrac := if slow then (w.rtcFrac + 1) % 32768 else w.rtcFrac
      rtcSec := if carry then (w.rtcSec + 1) % 2 ^ 48 else w.rtcSec }

/-! ### Monitors of the device's own events (R598) -/

/-- A monitor's sample of the events reported since its last one, and whether an event there makes N of its last
W samples events: N 0 acts as 1, and where the FIELDED floors are in force an N above 4 as 4; W below N acts as N
(R598, R608, WT_MON; log 101). -/
def Watch.sampleEvent (w : Watch) (fielded : Bool) (m : Nat) : Watch × Bool :=
  let event := w.reported.getLsbD m
  let history := (event :: aget [] w.samples m).take 255
  let c := w.mon m
  let n := if fielded then min 4 (max 1 c.n) else max 1 c.n
  ({ w with samples := if history.any id then aput w.samples m history else aerase w.samples m },
    event && decide (n ≤ ((history.take (max n c.w)).filter id).length))

/-- Monitors 24 to 27 take a sample together; their alarms answer as one set (R598, R601, R604). -/
def State.sampleEvents (s : State) : State :=
  let fielded := decide (s.life.effective = 3) || decide (s.life.effective = 5)
  let r := [24, 25, 26, 27].foldl (fun (a : Watch × List Nat) m =>
    ((a.1.sampleEvent fielded m).1, if (a.1.sampleEvent fielded m).2 then a.2 ++ [m] else a.2)) (s.watch, [])
  let t := s.modWatch fun _ => { r.1 with reported := 0 }
  let ms := t.liveAlarms r.2
  if ms.isEmpty then t else t.respond (ms.map fun m => (m, t.monResp m))

/-- 10 ns of the monitors that are sampled each 1 µs (Monitors table). -/
def State.tickMonitors (s : State) : State :=
  let r := clockTick s.watch.sampleClock 100
  let t := s.modWatch fun w => { w with sampleClock := r.1 }
  if r.2 then t.sampleEvents else t

/-! ### Reports owed (R203, R516, R533, R535) -/

/-- A port whose end sends: OPEN or KEYED, and not a downstream port of a member outside the Holding (R516, R536). -/
def State.portTalks (s : State) (p : Nat) : Bool :=
  (decide ((s.port p).state = .opened) || decide ((s.port p).state = .keyed))
    && (s.cascade.master || s.cascade.joined || p == 0)

/-- A port's end sends IDLE when nothing has left it for 1 µs: OPEN or KEYED, and not silent (R516, R536). -/
def State.tickPort (s : State) (p : Nat) : State :=
  let q := s.port p
  if s.portTalks p then
    let r := clockTick q.quiet 100
    let t := s.modPort p fun x => { x with quiet := r.1 }
    if r.2 then t.emit (.flit p { type := 0, seq := q.txSeq, ack := (q.rxSeq + 1023) % 1024, count := q.sent
                                  keyed := decide (q.state = .keyed) }) else t
  else s

/-- 10 ns of every port that has a link. -/
def State.tickPorts (s : State) : State := s.cascade.ports.foldl (fun t kv => t.tickPort kv.1) s

/-- A member sends a changed capacity to the master (R533). -/
def State.tickCapacity (s : State) : State :=
  if s.cascade.master || !s.cascade.joined || s.cascade.reported = s.capacityReport then s
  else (s.modCascade fun c => { c with reported := s.capacityReport }).sendControl 0 s.capacityReport []

/-- A wake event that is owed returns the device to Run, unless it is tripped (R552, R565; log 110). -/
def State.tickWake (s : State) : State := if s.power.wakeOwed && decide (s.power.gov ≠ .trip) then s.wake else s

/-- Keys that a PURGE left to be formed are formed once a source is HEALTHY (R418, R468). -/
def State.tickKeys (s : State) : State := if s.vault.formOwed then s.reformKeys else s

/-- PME_Turn_Off that waited for the Baton ports (R556). -/
def State.tickTurnOff (s : State) : State := if s.power.turnOffOwed then s.turnOffAck else s

/-- What the running device does in 10 ns. -/
def State.tickDevice (s : State) : State :=
  let n := s.link.tallyAdvance
  let s := if s.link.perst then s else (s.modLink HostLink.tick).tickTally n
  let s := (s.modStore Store.tickInterval).tickBucket.tickAck
  let s := s.modParish Parish.tickTokens
  let s := s.modJournal Journal.tickTokens
  let s := s.sampleSources.tickKeys.ctFinish.writeAhead.retryTop
  s.announceTolerance.tickCapacity.retryRemote.serveHeld.tickPorts.tickMonitors.tickWake.tickTurnOff.tickDeviceWatchdog

/-- One Tally tick of 10 ns (log 9). -/
def tick (s : State) : State :=
  let s := s.modWatch Watch.tickRtc
  if s.clocked then s.tickDevice else s

end Sys2Proof.Machine
end

