-- ==== Sys2Proof/Safety.lean ====
section
/-!
DEFINITION. Sys2Proof/Safety.lean: the conditions and the frames in which the statements are written.
-/
namespace Sys2Proof.Machine

/-- The outcome is a next state, neither a fault nor a refusal. -/
def Completes (o : Host.Outcome State Fault Refusal) : Prop := ∃ t, o = .next t

/-- The outcome is a next state of which P holds. -/
def Answers (o : Host.Outcome State Fault Refusal) (P : State → Prop) : Prop := ∃ t, o = .next t ∧ P t

/-- The Hand issues the instruction presented to it: the device in Run, the Hand RUNNING, not halted by a debug session,
with no exception or interrupt to take first, and with its PC in a region it may fetch from (R56, R174, R553, R592). -/
def State.issues (s : State) (h : Nat) : Bool :=
  decide (s.power.state = .run) && decide ((s.hand h).state = .running) && !(s.frozen h && !s.thawed h) && (s.boundary h).isNone
    && s.fetchOk h (s.hand h).pc && (s.hand h).imp.isNone

/-- A general register of a Hand. -/
def State.rg (s : State) (h : Nat) (r : Reg) : Word := (s.hand h).reg r

/-- The status word of a Hand. -/
def State.status (s : State) (h : Nat) : Word := (s.hand h).st

/-- An instruction that writes one register (or, as w0, none) and goes to the next word (R82, R85). -/
def State.result (s : State) (h : Nat) (r : Reg) (v : Word) : State :=
  s.retire h (some (r, v)) none ((s.hand h).pc + 1)

/-- As `result`, with a new status word. -/
def State.resultSt (s : State) (h : Nat) (r : Reg) (v st : Word) : State :=
  (s.setHand h { s.hand h with st := st }).retire h (some (r, v)) none ((s.hand h).pc + 1)

/-- An instruction that writes no register and goes to the next word. -/
def State.stepped (s : State) (h : Nat) : State := s.retire h none none ((s.hand h).pc + 1)

/-- The Hand's access to an IO register comes in Run with no exception or interrupt to take first, and passes the level
and the access control units, which are left as they stood (R165, R174, R185, R472, R553). -/
def State.permits (s : State) (h addr : Nat) (write : Bool) (need : Nat) : Prop :=
  s.power.state = .run ∧ (s.hand h).state = .running ∧ (s.frozen h && !s.thawed h) = false ∧
  s.boundary h = none ∧ (write && (s.hand h).imp.isSome) = false ∧
  levelOk need (s.hand h).level = true ∧
  (s.acuView h).2 = s ∧
  s.acuCheck (s.acuView h).1 h (handAccessor h (s.hand h)) { io := true, addr := addr, start := addr, write := write } =
    (true, s)

/-- The Hand's D-space access passes its region's rules, R62 and the access control units, and its word
is resident (R62, R64, R129, R472). -/
def State.reaches (s : State) (h : Nat) (ea : Word) (write : Bool) : Prop :=
  ea.toNat < 2 ^ 24 ∧ dRegion (s.hand h) ea.toNat write = .ok ∧ (s.acuView h).2 = s ∧
  s.acuCheck (s.acuView h).1 h (handAccessor h (s.hand h)) { addr := ea.toNat, start := ea.toNat, write := write } =
    (true, s) ∧
  s.missing (s.place h ea.toNat) = none

/-- A host write of BAR0 or BAR4 reaches its register: the link is up and ready, and where IDE is required
the stream is Secure (R192, R209, R216). -/
def State.hostOk (s : State) : Prop := s.hostReach = true ∧ s.link.ideRefuses true = false

/-- The device is out of reset with its main side powered. -/
def State.awake (s : State) : Prop := s.startup.inReset = false ∧ s.watch.mainDark = false

/-- Two states agree on everything but the Hands, the cores' watchdogs and the debug traces. -/
def SameButHands (s t : State) : Prop :=
  t = { s with hands := t.hands, cores := t.cores, life := t.life } ∧
  (∀ c, t.core c = { s.core c with wdCount := (t.core c).wdCount }) ∧
  t.life = { s.life with traces := t.life.traces }

/-- The Watch Log holds at most 16 entries, each of a monitor 0 to 27 with a response 0 to 5, and LOST and
STRONGEST stay within their fields' values (R600, R601, R623, WT_STATE). -/
def Watch.bounded (w : Watch) : Prop :=
  w.log.length ≤ 16 ∧ w.lost ≤ 15 ∧ w.strongest ≤ 5 ∧ ∀ e, e ∈ w.log → e.mon < 28 ∧ e.resp ≤ 5

end Sys2Proof.Machine
end

