-- ==== Sys2Proof/Certificates/Slice0/Obligations.lean ====
section
/-!
DEFINITION. Sys2Proof/Certificates/Slice0/Obligations.lean: the statements about the model.
-/
open Sys2Proof Sys2Proof.Machine

/-! ### The queue and the tick -/

/-- A step with a command at the front of the queue is that command's effect on the rest. -/
def Obligations.StepRunsFrontCommand : Prop :=
  ∀ (c : Instr) (rest : List Instr) (s : State),
    step { s with pending := c :: rest } = exec c { s with pending := rest }

/-- With an empty queue a step is one Tally tick: with the clocks running, no slewing and nothing else due, the Tally
counter rises by one, and the device watchdog counts on unless the boot ROM serves it (DESIGN CHOICE, log 9; R218,
R693). -/
def Obligations.IdleStepTicks : Prop :=
  ∀ s : State, s.pending = [] → s.clocked = true → s.link.perst = false → s.link.slew = 0 → s.startup.wdRest < 99999 →
    s.watch.sampleClock < 99 → s.store.state = .closed → s.store.ckPhase = .idle → s.store.topOwed = false →
    s.vault.formOwed = false → s.steward.ctBusy = none → s.cascade.rwait = none → s.cascade.held = [] →
    s.power.wakeOwed = false → s.power.turnOffOwed = false → (∀ h, (s.hand h).htRun = false) →
    (∀ c, (s.core c).period = 0) →
    Answers (step s) fun t => t.link.tally = s.link.tally + 1 ∧
      t.startup.wdRest = if (s.hand 0).boot then 0 else s.startup.wdRest + 1

/-! ### Ramua: results -/

/-- Logic, shift and compare instructions (R116, R118): the result of each, in its register. -/
def Obligations.LogicResults : Prop :=
  ∀ (s : State) (h : HandId) (a b c : Reg) (imm : Imm18), s.issues h = true →
    exec (.and h a b c) s = .next (s.result h a (s.rg h b &&& s.rg h c)) ∧
    exec (.or h a b c) s = .next (s.result h a (s.rg h b ||| s.rg h c)) ∧
    exec (.xor h a b c) s = .next (s.result h a (s.rg h b ^^^ s.rg h c)) ∧
    exec (.andn h a b c) s = .next (s.result h a (s.rg h b &&& ~~~s.rg h c)) ∧
    exec (.sll h a b c) s = .next (s.result h a (s.rg h b <<< (s.rg h c).toNat)) ∧
    exec (.srl h a b c) s = .next (s.result h a (s.rg h b >>> (s.rg h c).toNat)) ∧
    exec (.sra h a b c) s = .next (s.result h a ((s.rg h b).sshiftRight (s.rg h c).toNat)) ∧
    exec (.ror h a b c) s = .next (s.result h a ((s.rg h b).rotateRight (s.rg h c).toNat)) ∧
    exec (.slt h a b c) s = .next (s.result h a (if (s.rg h b).toInt < (s.rg h c).toInt then 1 else 0)) ∧
    exec (.sltu h a b c) s = .next (s.result h a (if (s.rg h b).toNat < (s.rg h c).toNat then 1 else 0)) ∧
    exec (.seq h a b c) s = .next (s.result h a (if s.rg h b = s.rg h c then 1 else 0)) ∧
    (∃ n, n ≤ 36 ∧ exec (.clz h a b) s = .next (s.result h a (BitVec.ofNat 36 n)) ∧
      (s.rg h b).toNat < 2 ^ (36 - n) ∧ (n < 36 → 2 ^ (35 - n) ≤ (s.rg h b).toNat)) ∧
    exec (.andi h a b imm) s = .next (s.result h a (s.rg h b &&& imm.zeroExtend 36)) ∧
    exec (.ori h a b imm) s = .next (s.result h a (s.rg h b ||| imm.zeroExtend 36)) ∧
    exec (.xori h a b imm) s = .next (s.result h a (s.rg h b ^^^ imm.zeroExtend 36)) ∧
    exec (.lui h a imm) s = .next (s.result h a (imm ++ 0#18)) ∧
    exec (.slti h a b imm) s = .next (s.result h a (if (s.rg h b).toInt < imm.toInt then 1 else 0)) ∧
    exec (.sltiu h a b imm) s =
      .next (s.result h a (if (s.rg h b).toNat < (imm.signExtend 36).toNat then 1 else 0))

/-- Adds, subtracts and multiplies, which wrap, with CY the carry or borrow where they write it (R116, R118,
R119). -/
def Obligations.WrappingResults : Prop :=
  ∀ (s : State) (h : HandId) (a b c : Reg) (imm : Imm18), s.issues h = true →
    let x := s.rg h b
    let y := s.rg h c
    let i := imm.signExtend 36
    let cy := s.status h &&& 1#36
    exec (.add h a b c) s =
      .next (s.resultSt h a (x + y) (setCy (s.status h) (decide (2 ^ 36 ≤ x.toNat + y.toNat)))) ∧
    exec (.addi h a b imm) s =
      .next (s.resultSt h a (x + i) (setCy (s.status h) (decide (2 ^ 36 ≤ x.toNat + i.toNat)))) ∧
    exec (.sub h a b c) s =
      .next (s.resultSt h a (x - y) (setCy (s.status h) (decide (x.toNat < y.toNat)))) ∧
    exec (.adc h a b c) s =
      .next (s.resultSt h a (x + y + cy) (setCy (s.status h) (decide (2 ^ 36 ≤ x.toNat + y.toNat + cy.toNat)))) ∧
    exec (.sbc h a b c) s =
      .next (s.resultSt h a (x - y - cy) (setCy (s.status h) (decide (x.toNat < y.toNat + cy.toNat)))) ∧
    exec (.mul h a b c) s = .next (s.result h a (x * y)) ∧
    exec (.mulh h a b c) s = .next (s.result h a (BitVec.ofInt 36 (x.toInt * y.toInt / 2 ^ 36))) ∧
    exec (.mulhu h a b c) s = .next (s.result h a (BitVec.ofNat 36 (x.toNat * y.toNat / 2 ^ 36)))

/-- The checked instructions without overflow give what the unchecked ones give (R117, R121). Overflow and division by
zero: with PRECISE 1 the exception is taken at the instruction with nothing written; with PRECISE 0 the result of
R117 and R121 is written and the exception is pending, to be taken within 8 instructions (R117, R121, R164, R165).
Division by a divisor that is not 0: quotient and remainder truncated toward zero, with the one overflowing pair
giving the word of R120 and remainder 0 and no exception (R119, R120). -/
def Obligations.CheckedArithmetic : Prop :=
  (∀ (s : State) (h : HandId) (a b c : Reg) (imm : Imm18), s.issues h = true →
      let x := s.rg h b
      let y := s.rg h c
      let i := imm.signExtend 36
      let inRange (n : Int) : Prop := -2 ^ 35 ≤ n ∧ n < 2 ^ 35
      (inRange (x.toInt + y.toInt) → exec (.addv h a b c) s = exec (.add h a b c) s) ∧
      (inRange (x.toInt - y.toInt) → exec (.subv h a b c) s = exec (.sub h a b c) s) ∧
      (inRange (x.toInt + i.toInt) → exec (.addiv h a b imm) s = exec (.addi h a b imm) s) ∧
      (inRange (x.toInt * y.toInt) → exec (.mulv h a b c) s = exec (.mul h a b c) s)) ∧
  (∀ (s : State) (h : HandId) (a b c : Reg) (imm : Imm18), s.issues h = true →
      let x := s.rg h b
      let y := s.rg h c
      let i := imm.signExtend 36
      let beyond (n : Int) : Prop := n < -2 ^ 35 ∨ 2 ^ 35 ≤ n
      let taken (code : Nat) : State := s.takeException h code (s.hand h).pc false (BitVec.ofNat 36 (s.hand h).pc.toNat)
      let pended (t : State) (code : Nat) : State := t.pendImprecise h code (s.hand h).pc
      let precise := preciseOf (s.status h)
      (beyond (x.toInt + y.toInt) → exec (.addv h a b c) s = .next (if precise then taken 8 else
        pended (s.resultSt h a (x + y) (setCy (s.status h) (decide (2 ^ 36 ≤ x.toNat + y.toNat)))) 8)) ∧
      (beyond (x.toInt + i.toInt) → exec (.addiv h a b imm) s = .next (if precise then taken 8 else
        pended (s.resultSt h a (x + i) (setCy (s.status h) (decide (2 ^ 36 ≤ x.toNat + i.toNat)))) 8)) ∧
      (beyond (x.toInt - y.toInt) → exec (.subv h a b c) s = .next (if precise then taken 8 else
        pended (s.resultSt h a (x - y) (setCy (s.status h) (decide (x.toNat < y.toNat)))) 8)) ∧
      (beyond (x.toInt * y.toInt) → exec (.mulv h a b c) s = .next (if precise then taken 8 else
        pended (s.result h a (x * y)) 8)) ∧
      (y = 0 → exec (.div h a b c) s = .next (if precise then taken 9 else pended (s.result h a 0xFFFFFFFFF#36) 9) ∧
        exec (.divu h a b c) s = .next (if precise then taken 9 else pended (s.result h a 0xFFFFFFFFF#36) 9) ∧
        exec (.rem h a b c) s = .next (if precise then taken 9 else pended (s.result h a x) 9) ∧
        exec (.remu h a b c) s = .next (if precise then taken 9 else pended (s.result h a x) 9))) ∧
  (∀ (s : State) (h : HandId) (a b c : Reg), s.issues h = true → s.rg h c ≠ 0 →
      let x := s.rg h b
      let y := s.rg h c
      (∃ q r : Word, exec (.div h a b c) s = .next (s.result h a q) ∧ exec (.rem h a b c) s = .next (s.result h a r) ∧
        (x ≠ 0x800000000#36 ∨ y ≠ 0xFFFFFFFFF#36 → x.toInt = q.toInt * y.toInt + r.toInt) ∧
        r.toInt.natAbs < y.toInt.natAbs ∧ (r.toInt ≠ 0 → (r.toInt < 0 ↔ x.toInt < 0)) ∧
        (x = 0x800000000#36 → y = 0xFFFFFFFFF#36 → q = 0x800000000#36 ∧ r = 0)) ∧
      (∃ q r : Word, exec (.divu h a b c) s = .next (s.result h a q) ∧ exec (.remu h a b c) s = .next (s.result h a r) ∧
        x.toNat = q.toNat * y.toNat + r.toNat ∧ r.toNat < y.toNat))

/-- Decimal arithmetic over the nine digits, an invalid digit read as 9: the value modulo 10^9, CY the decimal carry or
borrow, BDI set when an operand held an invalid digit (R122, R124). DCVT: binary to BCD modulo 10^9 with CY for a
number too large, and back (R123). -/
def Obligations.DecimalArithmetic : Prop :=
  (∀ (s : State) (h : HandId) (a b c : Reg), s.issues h = true →
      let x := (fromBcd (s.rg h b)).toNat
      let y := (fromBcd (s.rg h c)).toNat
      let cy := (s.status h &&& 1#36).toNat
      let st := orBdi (s.status h) (bcdInvalid (s.rg h b) || bcdInvalid (s.rg h c))
      let gives (i : Instr) (value : Nat) (carry : Bool) : Prop :=
        ∃ v : Word, exec i s = .next (s.resultSt h a v (setCy st carry)) ∧ bcdInvalid v = false ∧ (fromBcd v).toNat = value
      gives (.dadd h a b c) ((x + y) % 10 ^ 9) (decide (10 ^ 9 ≤ x + y)) ∧
      gives (.dadc h a b c) ((x + y + cy) % 10 ^ 9) (decide (10 ^ 9 ≤ x + y + cy)) ∧
      gives (.dsub h a b c) ((x + 10 ^ 9 - y) % 10 ^ 9) (decide (x < y)) ∧
      gives (.dsbc h a b c) ((x + 10 ^ 9 - y - cy) % 10 ^ 9) (decide (x < y + cy))) ∧
  (∀ (s : State) (h : HandId) (a b : Reg), s.issues h = true →
      (∃ v : Word, exec (.dcvtBd h a b) s =
          .next (s.resultSt h a v (setCy (s.status h) (decide (10 ^ 9 ≤ (s.rg h b).toNat)))) ∧
        bcdInvalid v = false ∧ (fromBcd v).toNat = (s.rg h b).toNat % 10 ^ 9) ∧
      (∃ v : Word, exec (.dcvtDb h a b) s =
          .next (s.resultSt h a v (orBdi (s.status h) (bcdInvalid (s.rg h b)))) ∧
        v.toNat = (List.range 9).foldl (fun n k => n + min 9 ((s.rg h b).toNat / 2 ^ (4 * k) % 16) * 10 ^ k) 0))

/-- EXT and INS, bit by bit (R125). Immediate shifts by 0 to 35 (R118). Illegal fields and words take ILLEGAL_INSTR
(code 2) at the instruction (R110, R118, R126). -/
def Obligations.FieldsAndShifts : Prop :=
  (∀ (s : State) (h : HandId) (a b : Reg) (pos widthM1 : BitVec 6), s.issues h = true →
      pos.toNat + widthM1.toNat + 1 ≤ 36 →
      (∃ v : Word, exec (.ext h a b pos widthM1) s = .next (s.result h a v) ∧
        ∀ i, i < 36 → v.getLsbD i = (decide (i ≤ widthM1.toNat) && (s.rg h b).getLsbD (pos.toNat + i))) ∧
      (∃ v : Word, exec (.ins h a b pos widthM1) s = .next (s.result h a v) ∧
        ∀ i, i < 36 → v.getLsbD i =
          if pos.toNat ≤ i ∧ i ≤ pos.toNat + widthM1.toNat then (s.rg h b).getLsbD (i - pos.toNat)
          else (s.rg h a).getLsbD i)) ∧
  (∀ (s : State) (h : HandId) (a b : Reg) (imm : Imm18), s.issues h = true → imm.toNat < 36 →
      exec (.slli h a b imm) s = .next (s.result h a (s.rg h b <<< imm.toNat)) ∧
      exec (.srli h a b imm) s = .next (s.result h a (s.rg h b >>> imm.toNat)) ∧
      exec (.srai h a b imm) s = .next (s.result h a ((s.rg h b).sshiftRight imm.toNat)) ∧
      exec (.rori h a b imm) s = .next (s.result h a ((s.rg h b).rotateRight imm.toNat))) ∧
  (∀ (s : State) (h : HandId) (a b : Reg) (imm : Imm18) (pos widthM1 : BitVec 6) (word : Word), s.issues h = true →
      let illegal (i : Instr) : Prop := ∃ w, exec i s = .next (s.takeException h 2 (s.hand h).pc false w)
      (36 ≤ imm.toNat → illegal (.slli h a b imm) ∧ illegal (.srli h a b imm) ∧ illegal (.srai h a b imm) ∧
        illegal (.rori h a b imm)) ∧
      (36 < pos.toNat + widthM1.toNat + 1 → illegal (.ext h a b pos widthM1) ∧ illegal (.ins h a b pos widthM1)) ∧
      (assignedWord word = false →
        exec (.reservedOpcode h word) s = .next (s.takeException h 2 (s.hand h).pc false word)))

/-- What the completion of an instruction leaves of its Hand: the destination, a load in flight taking effect
unless the instruction writes its register, w0 zero, the PC one on; every other Hand as it was, and nothing but
the core's watchdog count and a debug trace changed outside the Hand (R69, R82, R85, R156, R296). -/
def Obligations.ResultFrame : Prop :=
  ∀ (s : State) (h : HandId) (a r : Reg) (v : Word),
    let t := s.result h a v
    t.rg h r = (if r = 0 then 0 else if r = a then v else
      match (s.hand h).delay with
      | some (d, w) => if r = d then w else s.rg h r
      | none => s.rg h r) ∧
    (t.hand h).pc = (s.hand h).pc + 1 ∧
    t.hand h = { s.hand h with
      regs := (t.hand h).regs, pc := (t.hand h).pc, delay := none, imp := (t.hand h).imp
      halted := (t.hand h).halted, stepOne := false } ∧
    (∀ k, k ≠ h.val → t.hand k = s.hand k) ∧ SameButHands s t

/-- MFS and MTS: a register the level may name is read and written, a lower level takes PRIVILEGE (code 3), and an
unlisted number or a read-only register takes ILLEGAL_INSTR (code 2); a DEPTH above 16, UNPREDICTABLE by R92,
stores TOP and some DEPTH the field allows (the model's choice, log 66) (R71, R74, R92). An MTS to ST at a user
level changes PRECISE, BDI and CY and nothing else of ST (R74). -/
def Obligations.SpecialRegisters : Prop :=
  (∀ (s : State) (h : HandId) (a b c : Reg), s.issues h = true →
      let x := s.hand h
      let n := c.toNat
      let raises (i : Instr) (code : Nat) : Prop := ∃ w, exec i s = .next (s.takeException h code x.pc false w)
      (∀ lv, specialLevel n = some lv →
        (levelOk lv x.level = true → exec (.mfs h a c) s = .next (s.result h a (readSpecial x n))) ∧
        (levelOk lv x.level = false → raises (.mfs h a c) 3) ∧
        (n ≠ 0 → n ≠ 2 → levelOk lv x.level = false → raises (.mts h b c) 3) ∧
        (n ≠ 0 → n ≠ 2 → levelOk lv x.level = true → ((n = 11 ∨ n = 19) → (s.rg h b).toNat % 32 ≤ 16) →
          exec (.mts h b c) s = .next ((s.setHand h (writeSpecial x n (s.rg h b))).retire h none none (x.pc + 1)))) ∧
      (∀ lv, specialLevel n = some lv → levelOk lv x.level = true → 16 < (s.rg h b).toNat % 32 →
        (n = 11 → ∃ d, d ≤ 16 ∧ Answers (exec (.mts h b c) s) fun t => (t.hand h).pc = x.pc + 1 ∧
          (t.hand h).rsC = { x.rsC with top := ((s.rg h b) >>> 5).setWidth 4, depth := d }) ∧
        (n = 19 → ∃ d, d ≤ 16 ∧ Answers (exec (.mts h b c) s) fun t => (t.hand h).pc = x.pc + 1 ∧
          (t.hand h).rsW = { x.rsW with top := ((s.rg h b) >>> 5).setWidth 4, depth := d })) ∧
      (specialLevel n = none → raises (.mfs h a c) 2 ∧ raises (.mts h b c) 2) ∧
      (n = 0 ∨ n = 2 → raises (.mts h b c) 2)) ∧
  (∀ (x : Hand) (v : Word) (i : Nat), x.level % 2 = 0 → i < 36 →
      ((writeSpecial x 1 v).st.getLsbD i = if i = 32 ∨ i = 1 ∨ i = 0 then v.getLsbD i else x.st.getLsbD i))

/-! ### Ramua: memory -/

/-- LD, LWR and ILD read the word at their address: LD and LWR as the Hand itself sees it, with the load delay, LWR
setting the reservation, ILD at WS at once from I-space; with no store of its own waiting, that is the word every
Hand sees (R60, R82, R97, R104, R127; which waiting RELAXED stores have become visible is open, log 88). The
instruction that follows a load reads the old value of its destination, and the one after that reads the loaded
value, unless the first wrote the register (R82, R85). -/
def Obligations.LoadsAndTheirDelay : Prop :=
  (∀ (s : State) (h : HandId) (a b : Reg) (imm : Imm18), s.issues h = true →
      let ea := s.rg h b + imm.signExtend 36
      let l := s.place h ea.toNat
      let u := s.stir h
      (s.reaches h ea false →
        exec (.ld h a b imm) s = .next (u.retire h none (some (a, s.readFor h l)) ((s.hand h).pc + 1)) ∧
        exec (.lwr h a b imm) s =
          .next ((u.modHand h fun x => { x with resv := some { ea := ea.toNat, loc := l } }).retire h none
            (some (a, s.readFor h l)) ((s.hand h).pc + 1))) ∧
      ((s.hand h).posted = [] → u = s ∧ ∀ m, s.readFor h m = s.readLoc m) ∧
      ((s.hand h).level = 3 → ea.toNat < 2 ^ 16 →
        exec (.ild h a b imm) s = .next (s.result h a (aget 0 (s.core (coreOf h)).iram ea.toNat)))) ∧
  (∀ (s : State) (h : HandId) (a r : Reg) (v w : Word) (pc : BitVec 16), a ≠ 0 → (s.hand h).delay = none →
      let t := s.retire h none (some (a, v)) pc
      t.rg h a = s.rg h a ∧ (t.stepped h).rg h a = v ∧
      (r ≠ a → (t.result h r w).rg h a = v) ∧ (t.result h a w).rg h a = w)

/-- ST stores its word, at once where the deciding rule orders the region and at once or later where it is RELAXED, and
SWC stores at once, only under a reservation on its own address, answering 1 or 0 in its register; either way the
reservation is gone (R95, R98, R99, R106, R127). What ST leaves: to its own Hand its word reads back and every
other word of Workspace, Commons, resident Granary frames and Errand Windows reads as before; with no store waiting
and an ordered region that is so of every reader, and exactly the reservations on the stored granule are lost; no
register but the PC and a load in flight changes (R62, R95, R97, R104, R105, R127). -/
def Obligations.StoresAndTheirFrame : Prop :=
  (∀ (s : State) (h : HandId) (a b : Reg) (imm : Imm18), s.issues h = true →
      let ea := s.rg h b + imm.signExtend 36
      let l := s.place h ea.toNat
      let u := s.stir h
      let free := u.modHand h fun x => { x with resv := none }
      let relaxed := (s.acuView h).1.relaxed (handAccessor h (s.hand h))
        { addr := ea.toNat, start := ea.toNat, write := true }
      s.reaches h ea true →
        exec (.st h a b imm) s = .next ((u.storeBy h l (s.rg h a) relaxed).retire h none none ((s.hand h).pc + 1)) ∧
        exec (.swc h a b imm) s = .next (if (s.hand h).resv.map Reservation.ea = some ea.toNat
          then (free.storeBy h l (s.rg h a) false).retire h (some (a, 1)) none ((s.hand h).pc + 1)
          else free.retire h (some (a, 0)) none ((s.hand h).pc + 1)) ∧
        ((s.hand h).posted = [] → u = s ∧ ∀ t : State, (t.hand h).posted = [] →
          t.storeBy h l (s.rg h a) false = t.storeLoc l (s.rg h a) (some h))) ∧
  (∀ (s t : State) (h : HandId) (a b : Reg) (imm : Imm18), s.issues h = true →
      let ea := s.rg h b + imm.signExtend 36
      let l := s.place h ea.toNat
      let relaxed := (s.acuView h).1.relaxed (handAccessor h (s.hand h))
        { addr := ea.toNat, start := ea.toNat, write := true }
      s.reaches h ea true → exec (.st h a b imm) s = .next t →
        t.readFor h l = s.rg h a ∧ (∀ m, m ≠ l → s.present m = true → t.readFor h m = s.readFor h m) ∧
        ((s.hand h).posted = [] → relaxed = false →
          t.readLoc l = s.rg h a ∧ (∀ m, m ≠ l → t.readLoc m = s.readLoc m) ∧
          ∀ k, k ≠ h.val → (t.hand k).resv =
            if (s.hand k).resv.map Reservation.loc = some l then none else (s.hand k).resv) ∧
        t = { s with
          hands := t.hands, cores := t.cores, hamlets := t.hamlets, store := t.store, life := t.life, free := t.free } ∧
        (∀ k, k ≠ h.val → (t.hand k).resv = (s.hand k).resv ∨ (t.hand k).resv = none) ∧
        (∀ k, k ≠ h.val → (t.hand k).regs = (s.hand k).regs ∧ (t.hand k).pc = (s.hand k).pc ∧ (t.hand k).st = (s.hand k).st) ∧
        (∀ r, (s.hand h).delay = none → t.rg h r = s.rg h r) ∧ (t.hand h).st = (s.hand h).st ∧
        (t.hand h).resv = (s.hand h).resv ∧ (t.hand h).eraC = (s.hand h).eraC ∧ (t.hand h).eraW = (s.hand h).eraW)

/-- The rules of a D-space access before it reaches its word: an address of 2^24 or more and a reserved region
take RESERVED_ADDR (code 4), a region that forbids the access and an access control unit that refuses it
ACCESS_FAULT (code 5), and a page not resident blocks the Hand, all with nothing loaded or stored; ILD below WS
takes PRIVILEGE (code 3), and RESERVED_ADDR past I-space (R62, R64, R67, R127, R129, R472). -/
def Obligations.AccessFaults : Prop :=
  ∀ (s : State) (h : HandId) (a b : Reg) (imm : Imm18), s.issues h = true →
    let ea := s.rg h b + imm.signExtend 36
    let raised (t : State) (code : Nat) : State := t.takeException h code (s.hand h).pc false ea
    let check (write : Bool) : Bool × State := s.acuCheck (s.acuView h).1 h (handAccessor h (s.hand h))
      { addr := ea.toNat, start := ea.toNat, write := write }
    let inRegion (write : Bool) : Prop :=
      ea.toNat < 2 ^ 24 ∧ dRegion (s.hand h) ea.toNat write = .ok ∧ (s.acuView h).2 = s
    let loads (t : State) : Prop := exec (.ld h a b imm) s = .next t ∧ exec (.lwr h a b imm) s = .next t
    let stores (t : State) : Prop := exec (.st h a b imm) s = .next t ∧ exec (.swc h a b imm) s = .next t
    (2 ^ 24 ≤ ea.toNat ∨ dRegion (s.hand h) ea.toNat false = .reserved → loads (raised s 4)) ∧
    (ea.toNat < 2 ^ 24 → dRegion (s.hand h) ea.toNat false = .fault → loads (raised s 5)) ∧
    (2 ^ 24 ≤ ea.toNat ∨ dRegion (s.hand h) ea.toNat true = .reserved → stores (raised s 4)) ∧
    (ea.toNat < 2 ^ 24 → dRegion (s.hand h) ea.toNat true = .fault → stores (raised s 5)) ∧
    (∀ t, inRegion false → check false = (false, t) → loads (raised t 5)) ∧
    (∀ t, inRegion true → check true = (false, t) → stores (raised t 5)) ∧
    (∀ p, inRegion false → check false = (true, s) → s.missing (s.place h ea.toNat) = some p →
      loads ((s.stir h).blockOnPage h p)) ∧
    (∀ p, inRegion true → check true = (true, s) → s.missing (s.place h ea.toNat) = some p →
      stores ((s.stir h).blockOnPage h p)) ∧
    ((s.hand h).level ≠ 3 → ∃ w, exec (.ild h a b imm) s = .next (s.takeException h 3 (s.hand h).pc false w)) ∧
    ((s.hand h).level = 3 → 2 ^ 16 ≤ ea.toNat → exec (.ild h a b imm) s = .next (raised s 4))

/-- A block instruction whose count is zero completes without touching memory, whatever registers it names (R80). A
block instruction that gives one register two roles, UNPREDICTABLE by R81, completes with effects confined to the
registers it names and the words of its run: no other register of the Hand changes, and to the Hand every word
outside the run reads as before (R11; the model's choice within R11, log 66). -/
def Obligations.BlockCorners : Prop :=
  (∀ (s : State) (h : HandId) (a b c : Reg) (cut : Option Nat), s.issues h = true → s.rg h c = 0 →
      exec (.wmov h a b c cut) s = .next (s.stepped h) ∧ exec (.wfill h a b c cut) s = .next (s.stepped h) ∧
      exec (.wsumCrc h a b c cut) s = .next (s.stepped h) ∧ exec (.wsumAdd h a b c cut) s = .next (s.stepped h) ∧
      ((s.hand h).sliceHeld = true → (s.hand h).sliceMac = true → exec (.macn h a b c cut) s = .next (s.stepped h))) ∧
  (∀ (s : State) (h : HandId) (a b c : Reg) (cut : Option Nat), s.issues h = true → (a = b ∨ b = c ∨ a = c) →
      (s.acuView h).2 = s → (s.hand h).delay = none → s.rg h c ≠ 0 →
      let n := (s.rg h c).toNat
      let checked (srcs dsts : List Reg) : Prop :=
        checkProbes (s.acuView h).1 h (s.hand h) ((s.hand h).runList n srcs dsts) s = none
      let ends (i : Instr) (stored : Bool) : Prop :=
        Answers (exec i s) fun t => (t.hand h).pc = (s.hand h).pc + 1 ∧
          (∀ r, r ≠ a → r ≠ b → r ≠ c → t.rg h r = s.rg h r) ∧
          ∀ m, s.present m = true →
            (stored = true → ∀ i, i < n → m ≠ s.place h ((s.hand h).runAddr a i).toNat) →
            t.readFor h m = s.readFor h m
      (checked [] [a] → ends (.wfill h a b c cut) true) ∧
      (checked [b] [a] → ends (.wmov h a b c cut) true) ∧
      (checked [b] [] → ends (.wsumCrc h a b c cut) false ∧ ends (.wsumAdd h a b c cut) false) ∧
      (∀ l, (s.hand h).sliceHeld = true → (s.hand h).sliceMac = true → (s.hand h).slice = some l →
        (s.slice l).regs.op = none →
        macnCheck (s.acuView h).1 h (s.hand h) a b n s = none →
        ends (.macn h a b c cut) false))

/-- A block run whose every word passes its checks and is resident: its words are moved, all of them or those before
the point where the Hand is to be interrupted, the count falls and the pointers rise by as many, and the PC moves
on only when the count is done; WFILL leaves its value in every word of the run and WMOV, where no destination is a
source, a copy; the sums take every word; to its own Hand every word outside the run reads as before (R78, R79,
R97, R114, R144, R145). MACN moves its words into the operand memory of the held MAC slice, all of them or those
before the point where the Hand is to be interrupted, and PKCLR clears that memory; both raise ACCESS_FAULT (code
5) at 030000q without the slice that they need (R143, R147, R178, R395, R411). -/
def Obligations.BlockRuns : Prop :=
  (∀ (s : State) (h : HandId) (a b c : Reg) (cut : Option Nat), s.issues h = true → a ≠ b → b ≠ c → a ≠ c →
      (s.acuView h).2 = s → (s.hand h).delay = none → s.rg h c ≠ 0 →
      let n := (s.rg h c).toNat
      let k := match cut with
        | some m => min m n
        | none => n
      let at_ (r : Reg) (i : Nat) : Loc := s.place h ((s.hand h).runAddr r i).toNat
      let checked (srcs dsts : List Reg) : Prop :=
        checkProbes (s.acuView h).1 h (s.hand h) ((s.hand h).runList n srcs dsts) s = none
      let resident (r : Reg) : Prop := ∀ i, i < n → s.missing (at_ r i) = none
      let same (t : State) (m : Loc) : Prop := s.present m = true → t.readFor h m = s.readFor h m
      let ends (i : Instr) (moved : List Reg) (P : State → Prop) : Prop :=
        Answers (exec i s) fun t => (t.rg h c).toNat = n - k ∧
          (t.hand h).pc = (if k = n then (s.hand h).pc + 1 else (s.hand h).pc) ∧
          (∀ r, r ∈ moved → t.rg h r = if r = 0 then 0 else s.rg h r + BitVec.ofNat 36 k) ∧ P t
      (checked [] [a] → resident a → ends (.wfill h a b c cut) [a] fun t =>
        (∀ i, i < k → t.readFor h (at_ a i) = s.rg h b) ∧ ∀ m, (∀ i, i < k → m ≠ at_ a i) → same t m) ∧
      (checked [b] [a] → resident a → resident b → ends (.wmov h a b c cut) [a, b] fun t =>
        ((∀ i j, i < k → j < k → at_ a i ≠ at_ b j) → (∀ i j, i < k → j < k → at_ a i = at_ a j → i = j) →
          ∀ i, i < k → t.readFor h (at_ a i) = s.readFor h (at_ b i)) ∧
        ∀ m, (∀ i, i < k → m ≠ at_ a i) → same t m) ∧
      (checked [b] [] → resident b →
        ends (.wsumAdd h a b c cut) [b] (fun t =>
          t.rg h a = (if a = 0 then 0 else
            (List.range k).foldl (fun acc i => acc + s.readFor h (at_ b i)) (s.rg h a)) ∧ ∀ m, same t m) ∧
        ends (.wsumCrc h a b c cut) [b] (fun t =>
          t.rg h a = (if a = 0 then 0 else
            (List.range k).foldl (fun acc i => crcWord acc (s.readFor h (at_ b i))) (s.rg h a)) ∧ ∀ m, same t m))) ∧
  (∀ (s : State) (h : HandId) (a b c : Reg) (cut : Option Nat), s.issues h = true →
      let refused : State := s.takeException h 5 (s.hand h).pc false 0x3000#36
      ((s.hand h).sliceHeld = false → exec (.pkclr h) s = .next refused ∧ exec (.macn h a b c cut) s = .next refused) ∧
      ((s.hand h).sliceMac = false → exec (.macn h a b c cut) s = .next refused) ∧
      (∀ l, (s.hand h).sliceHeld = true → (s.hand h).slice = some l → (s.slice l).regs.op = none →
        (Answers (exec (.pkclr h) s) fun t => (t.slice l).regs.opmem = [] ∧ (t.slice l).regs.a = 0 ∧
          (t.slice l).regs.acc = 0 ∧ (t.hand h).pc = (s.hand h).pc + 1) ∧
        ((s.hand h).sliceMac = true → a ≠ b → b ≠ c → a ≠ c → s.rg h c ≠ 0 →
          (s.acuView h).2 = s → (s.hand h).delay = none →
          let n := (s.rg h c).toNat
          let k := match cut with
            | some m => min m n
            | none => n
          macnCheck (s.acuView h).1 h (s.hand h) a b n s = none →
          (∀ i, i < n → s.missing (s.place h ((s.hand h).runAddr b i).toNat) = none) →
          (∀ p, s.pkRoom h 0x7F 0 = some p → n ≤ p.1 + p.2) →
          Answers (exec (.macn h a b c cut) s) fun t => (t.rg h c).toNat = n - k ∧
            (t.rg h a = if a = 0 then 0 else s.rg h a + BitVec.ofNat 36 k) ∧
            (t.rg h b = if b = 0 then 0 else s.rg h b + BitVec.ofNat 36 k) ∧
            (t.hand h).pc = if k = n then (s.hand h).pc + 1 else (s.hand h).pc)))

/-! ### Ramua: control transfer, system and exceptions -/

/-- Jumps and branches (R134, R135): the next PC. CALL and CALLR push the address that follows and RET pops it: a RET
straight after a CALL goes to the word after the CALL and leaves TOP and DEPTH as they were, below DEPTH 16 (R87,
R88). The full and the empty return stack: under TRAP a CALL at DEPTH 16 takes RSTACK_OVER (code 6) and a RET at
DEPTH 0 RSTACK_UNDER (code 7); under WRAP DEPTH stays at 16 and at 0 (R89, R90). -/
def Obligations.ControlTransfers : Prop :=
  (∀ (s : State) (h : HandId) (a b : Reg) (target : BitVec 16), s.issues h = true →
      let x := s.rg h a
      let y := s.rg h b
      let goes (i : Instr) (pc : BitVec 16) : Prop := exec i s = .next (s.retire h none none pc)
      let branch (i : Instr) (taken : Prop) [Decidable taken] : Prop :=
        goes i (if taken then target else (s.hand h).pc + 1)
      goes (.jmp h target) target ∧ goes (.jr h b) (y.setWidth 16) ∧
      branch (.beq h a b target) (x = y) ∧ branch (.bne h a b target) (x ≠ y) ∧
      branch (.blt h a b target) (x.toInt < y.toInt) ∧ branch (.bge h a b target) (y.toInt ≤ x.toInt) ∧
      branch (.bltu h a b target) (x.toNat < y.toNat) ∧ branch (.bgeu h a b target) (y.toNat ≤ x.toNat)) ∧
  (∀ (s : State) (h : HandId) (b : Reg) (target : BitVec 16), s.issues h = true →
      (s.hand h).bank.depth < 16 →
      let calls (i : Instr) (to_ : BitVec 16) : Prop := Answers (exec i s) fun t =>
        (t.hand h).pc = to_ ∧ (t.hand h).bank.peek = (s.hand h).pc + 1 ∧
        (t.hand h).bank.top = (s.hand h).bank.top + 1 ∧ (t.hand h).bank.depth = (s.hand h).bank.depth + 1 ∧
        (t.issues h = true → Answers (exec (.ret h) t) fun u =>
          (u.hand h).pc = (s.hand h).pc + 1 ∧ (u.hand h).bank.top = (s.hand h).bank.top ∧
          (u.hand h).bank.depth = (s.hand h).bank.depth)
      calls (.call h target) target ∧ calls (.callr h b) ((s.rg h b).setWidth 16)) ∧
  (∀ (s : State) (h : HandId) (target : BitVec 16), s.issues h = true →
      let x := s.hand h
      (x.bank.depth = 16 → x.trapStack = true →
        exec (.call h target) s = .next (s.takeException h 6 x.pc false (BitVec.ofNat 36 (x.pc + 1).toNat))) ∧
      (x.bank.depth = 0 → x.trapStack = true → exec (.ret h) s = .next (s.takeException h 7 x.pc false 0)) ∧
      (x.bank.depth = 16 → x.trapStack = false →
        Answers (exec (.call h target) s) fun t => (t.hand h).bank.depth = 16 ∧ (t.hand h).pc = target) ∧
      (x.bank.depth = 0 → x.trapStack = false →
        Answers (exec (.ret h) s) fun t => (t.hand h).bank.depth = 0 ∧ (t.hand h).pc = x.bank.peek))

/-- NOP and IOFENCE complete and change nothing but what every completion changes; MFENCE makes every earlier store of
its Hand visible and leaves none waiting; PFENCE at a supervisor level brings the access rules its Hand wrote into
force, and at a user level takes PRIVILEGE (R100, R101, R136, R480; log 27). YIELD and WAIT. YIELD leaves the Hand
READY or, when the core chooses it again, RUNNING at the next word. WAIT on a latched event takes its word and
clears the latch; on a source with nothing outstanding it answers 0; otherwise the Hand is BLOCKED with its PC on
the WAIT, or READY when an interrupt is takeable (R140, R141). -/
def Obligations.FencesAndWaits : Prop :=
  (∀ (s : State) (h : HandId), s.issues h = true →
      exec (.nop h) s = .next (s.stepped h) ∧ exec (.iofence h) s = .next (s.stepped h) ∧
      exec (.mfence h) s = .next ((s.drain h).retire h none none ((s.hand h).pc + 1)) ∧
      ((s.drain h).hand h).posted = [] ∧ ((s.hand h).posted = [] → s.drain h = s) ∧
      ((s.hand h).level % 2 = 1 → exec (.pfence h) s = .next ((s.fenceAcus h).retire h none none ((s.hand h).pc + 1)) ∧
        ∀ w, w ∈ ((s.fenceAcus h).core (coreOf h)).acu.writers → w.1 ≠ h.val) ∧
      ((s.hand h).level % 2 = 0 → ∃ w, exec (.pfence h) s = .next (s.takeException h 3 (s.hand h).pc false w))) ∧
  (∀ (s : State) (h : HandId) (a b : Reg) (w : WaitSel), s.issues h = true →
      (Answers (exec (.yield h) s) fun t =>
        (t.hand h).pc = (s.hand h).pc + 1 ∧ ((t.hand h).state = .ready ∨ (t.hand h).state = .running)) ∧
      (waitSel (s.rg h b) = some w →
        (∀ v, (s.hand h).latched w = some v →
          exec (.wait h a b) s = .next ((s.setHand h ((s.hand h).deliver w)).result h a v)) ∧
        ((s.hand h).latched w = none → s.outstanding h w = false → exec (.wait h a b) s = .next (s.result h a 0)) ∧
        ((s.hand h).latched w = none → s.outstanding h w = true → Answers (exec (.wait h a b) s) fun t =>
          (t.hand h).pc = (s.hand h).pc ∧ ((t.hand h).state = .blocked (.wait w a) ∨
            (t.hand h).state = .ready ∨ (t.hand h).state = .running))))

/-- DONE ends the errand of its Hand with status a[7:0] and result b, a status a Verb may not report becoming
BAD_VERB_STATUS (0Bh) with that status as DETAIL; a Hand without an errand takes ILLEGAL_INSTR (R138, R261). A
completion: once the engines of its Hand are idle the errand leaves the Steward's records, its Hand is FREE, and a
host errand's completion is written at the tail of its CQ, which moves one on, PHASE changing at the wrap (R33,
R139, R228, R244). -/
def Obligations.ErrandEnds : Prop :=
  (∀ (s : State) (h : HandId) (a b : Reg), s.issues h = true →
      let st := (s.rg h a).toNat % 256
      (∀ e x, (s.hand h).errand = some e → s.errand? e = some x → x.phase = .placed h.val →
        Answers (exec (.done h a b) s) fun t => ∃ y, t.errand? e = some y ∧ y.phase = .ending (some h.val) ∧
          y.done = true ∧ y.result = s.rg h b ∧ (t.hand h).state = .releasing ∧
          y.status = (if verbStatusOk st then BitVec.ofNat 8 st else 0x0B#8) ∧
          y.detail = (if verbStatusOk st then 0 else BitVec.ofNat 32 st)) ∧
      ((s.hand h).errand = none → ∃ w, exec (.done h a b) s = .next (s.takeException h 2 (s.hand h).pc false w))) ∧
  (∀ (s : State) (e sq : Nat) (x : Errand) (hd : Option Nat) (bufferOk : Bool),
      s.errand? e = some x → x.phase = .ending hd → (∀ h, hd = some h → s.engineIdle h = true) → s.mayReport x = true →
      (∀ cqOk, Answers (exec (.completionWrite e bufferOk cqOk) s) fun t =>
        t.errand? e = none ∧ ∀ h, hd = some h → (t.hand h).state = .free ∧ (t.hand h).errand = none) ∧
      (x.src = .ring sq → x.dropped = false → (s.ring x.cq).cqState = .active → 2 ≤ (s.ring x.cq).cqDepth →
        Answers (exec (.completionWrite e bufferOk true) s) fun t =>
          (t.ring x.cq).cqTail = ((s.ring x.cq).cqTail + 1) % (s.ring x.cq).cqDepth ∧
          ((t.ring x.cq).phase = (s.ring x.cq).phase ↔ (s.ring x.cq).cqTail + 1 ≠ (s.ring x.cq).cqDepth) ∧
          ∃ octets, octets.length = 32 ∧
            Out.hostWrite ((s.ring x.cq).cqBase + BitVec.ofNat 64 ((s.ring x.cq).cqTail * 32)) octets ∈ t.out))

/-- SYSCALL takes its exception with b as the fault value and the next word as return address; BRK halts the Hand
under a session that may halt its world and else takes its exception; ERET from a supervisor level gives back PC
and ST with IMP 0, clears its guard, and from CS refuses a forged world with PRIV_FORGE (code 14q) (R75, R136,
R160, R162, R169, R170; log 30). -/
def Obligations.SystemCallsAndReturns : Prop :=
  ∀ (s : State) (h : HandId) (b : Reg), s.issues h = true →
    let x := s.hand h
    exec (.syscall h b) s = .next (s.takeException h 10 (x.pc + 1) false (s.rg h b)) ∧
    (s.mayHalt (x.st.getLsbD 35) = true →
      Answers (exec (.brk h) s) fun t => (t.hand h).halted = true ∧ (t.hand h).pc = x.pc + 1) ∧
    (s.mayHalt (x.st.getLsbD 35) = false → exec (.brk h) s = .next (s.takeException h 11 x.pc false 0)) ∧
    (x.level = 3 → Answers (exec (.eret h) s) fun t => (t.hand h).pc = x.eraW ∧
      (t.hand h).st = wsetBit x.estW 30 false ∧ (t.hand h).gw = false ∧ (t.hand h).gc = x.gc) ∧
    (x.level = 1 → x.estC.getLsbD 35 = false → Answers (exec (.eret h) s) fun t => (t.hand h).pc = x.eraC ∧
      (t.hand h).st = wsetBit x.estC 30 false ∧ (t.hand h).gc = false ∧ (t.hand h).gw = x.gw) ∧
    (x.level = 1 → x.estC.getLsbD 35 = true → exec (.eret h) s = .next (s.takeException h 12 x.pc false x.estC)) ∧
    (x.level = 0 ∨ x.level = 2 → ∃ w, exec (.eret h) s = .next (s.takeException h 12 x.pc false w))

/-- What an exception or interrupt delivered to WS saves and sets, and what it leaves (R155, R156). The same at CS,
with the guard of CS clear (R155, R156). -/
def Obligations.ExceptionEntry : Prop :=
  (∀ (s : State) (h : HandId) (cause : Nat) (era : BitVec 16) (imp : Bool) (faa : Word),
      let x := s.hand h
      s.goesToWs h cause = true → x.gw = false →
      let y := (s.takeException h cause era imp faa).hand h
      y.eraW = era ∧ y.estW = wsetBit x.st 30 imp ∧ y.causeW = { orig := 0, code := BitVec.ofNat 6 cause } ∧
      y.gw = true ∧ y.pc = (s.core (coreOf h)).vecW ∧ y.level = 3 ∧ ieOf y.st = false ∧
      (∀ i, i ≠ 33 → i ≠ 34 → i ≠ 35 → y.st.getLsbD i = x.st.getLsbD i) ∧
      y.faa = (if cause < 32 then faa else x.faa) ∧ y.resv = none ∧
      y.eraC = x.eraC ∧ y.estC = x.estC ∧ y.causeC = x.causeC ∧ y.gc = x.gc ∧ y.rsC = x.rsC ∧ y.rsW = x.rsW ∧
      (x.delay = none → y.regs = x.regs)) ∧
  (∀ (s : State) (h : HandId) (cause : Nat) (era : BitVec 16) (imp : Bool) (faa : Word),
      let x := s.hand h
      s.goesToWs h cause = false → x.gc = false →
      let y := (s.takeException h cause era imp faa).hand h
      y.eraC = era ∧ y.estC = wsetBit x.st 30 imp ∧ y.causeC = { orig := 0, code := BitVec.ofNat 6 cause } ∧
      y.gc = true ∧ y.pc = (s.core (coreOf h)).vecC ∧ y.level = 1 ∧ ieOf y.st = false ∧
      (∀ i, i ≠ 33 → i ≠ 34 → i ≠ 35 → y.st.getLsbD i = x.st.getLsbD i) ∧
      y.faa = (if cause < 32 then faa else x.faa) ∧ y.resv = none ∧
      y.eraW = x.eraW ∧ y.estW = x.estW ∧ y.causeW = x.causeW ∧ y.gw = x.gw ∧ y.rsC = x.rsC ∧ y.rsW = x.rsW)

/-- An exception destined to CS that finds HGUARD.GC = 1 is delivered to WS as NEST_FAULT with the original cause in
CAUSE_W.ORIG, and ERA.C, EST.C and CAUSE_C are unchanged (R158). An entry to WS that finds the WS guard set stops
the Hand's errand with HAND_FAULT (09h) (R159). -/
def Obligations.GuardedEntries : Prop :=
  (∀ (s : State) (h : HandId) (cause : Nat) (era : BitVec 16) (imp : Bool) (faa : Word),
      let x := s.hand h
      s.goesToWs h cause = false → x.gc = true → x.gw = false →
      let y := (s.takeException h cause era imp faa).hand h
      y.causeW = { orig := BitVec.ofNat 6 cause, code := 13 } ∧ y.level = 3 ∧ y.pc = (s.core (coreOf h)).vecW ∧
      y.eraW = era ∧ y.gw = true ∧ y.eraC = x.eraC ∧ y.estC = x.estC ∧ y.causeC = x.causeC) ∧
  (∀ (s : State) (h : HandId) (cause : Nat) (era : BitVec 16) (imp : Bool) (faa : Word) (e : Nat) (x : Errand),
      s.goesToWs h cause = true → (s.hand h).gw = true → (s.hand h).errand = some e → s.errand? e = some x →
      x.phase = .placed h.val →
      ∃ y, (s.takeException h cause era imp faa).errand? e = some y ∧ y.status = 0x09#8 ∧
        y.detail = BitVec.ofNat 32 cause ∧ ∃ g, y.phase = .ending g)

/-- At its boundary a Hand takes the imprecise exception that is due, else the lowest interrupt takeable for WS, else
its timer for CS; and a pending imprecise exception is taken with IMP 1, the PC as return address and the
arithmetic instruction's address as fault value (R166, R168, R174). A Hand timer that runs out sets EXPIRED, counts
one expiry, and loads its reload value or stops (R182). -/
def Obligations.InterruptsAndTimers : Prop :=
  (∀ (s : State) (h : HandId) (n : Nat) (i : Imprecise), s.atBoundary h = true →
      (s.impreciseDue h = false → s.wsTakeable h = some n →
        exec (.interrupt h) s = .next (s.takeException h (32 + n) (s.hand h).pc false 0)) ∧
      (s.impreciseDue h = false → s.wsTakeable h = none → s.csTakeable h = some n →
        exec (.interrupt h) s = .next (s.takeException h (32 + n) (s.hand h).pc false 0)) ∧
      (s.impreciseDue h = true → (s.hand h).imp = some i →
        let t := (s.setHand h { s.hand h with imp := none }).takeException h i.cause.toNat (s.hand h).pc true
          (BitVec.ofNat 36 i.addr.toNat)
        exec (.impreciseException h) s = .next t ∧ exec (.interrupt h) s = .next t)) ∧
  (∀ (s : State) (h : HandId), (s.hand h).htRun = true → (s.hand h).htCount ≠ 0 →
      Answers (exec (.handTimerExpiry h) s) fun t =>
        (t.hand h).htExpired = true ∧ (t.hand h).htCount = (s.hand h).htReload ∧
        ((t.hand h).htRun = true ↔ (s.hand h).htReload ≠ 0) ∧
        ((∀ a, (s.hand h).state ≠ .blocked (.wait .timer a)) → (t.hand h).timerEvents.toNat = min 0xFFFF ((s.hand h).timerEvents.toNat + 1)))

/-- IN and OUT of a register the map defines and the checks allow: an IN gives what the register reads, with the load
delay, and an OUT completes and then writes, in the core-local window always and elsewhere where the block does not
stall. At or above 170000q both take RESERVED_ADDR (code 4) (R130, R131, R132, R184, R185). Writes of the core-
local window: the timer registers, VEC_C and VEC_W, IC_SWI and the ACU controls hold what is written (R171, R184,
R185, R476). A register access below the level its table gives takes ACCESS_FAULT (code 5) with the address, and
changes nothing else: shown for the registers only WS may write (R185). -/
def Obligations.IoRegisters : Prop :=
  (∀ (s t : State) (h : HandId) (a b : Reg) (io : Imm18) (need : Nat) (v w : Word), s.issues h = true →
      let ea := s.rg h b + io.zeroExtend 36
      (∀ r, ea.toNat < 512 → coreLocalReg s h ea.toNat = some r → s.permits h ea.toNat false r.readLv →
        exec (.inp h a b io) s = .next (s.retire h none (some (a, r.value)) ((s.hand h).pc + 1))) ∧
      (∀ r, ea.toNat < 512 → coreLocalReg s h ea.toNat = some r → s.permits h ea.toNat true r.writeLv →
        s.cascade.rwait = none →
        exec (.out h a b io) s = .next (coreWindowWrite h ea.toNat (s.rg h a) (s.stepped h))) ∧
      (ea.toNat < 0xF000 → ioNeed s h ea.toNat false = some need → s.permits h ea.toNat false need →
        ioRead h ea.toNat s = .done v t →
        exec (.inp h a b io) s = .next (t.retire h none (some (a, v)) ((s.hand h).pc + 1))) ∧
      (ioAccess h ea.toNat (some (s.rg h a)) s = .done w t →
        exec (.out h a b io) s =
          .next ((ioAccess h ea.toNat (some (s.rg h a)) (s.stepped h)).after (s.stepped h))) ∧
      (0xF000 ≤ ea.toNat → exec (.inp h a b io) s = .next (s.takeException h 4 (s.hand h).pc false ea) ∧
        exec (.out h a b io) s = .next (s.takeException h 4 (s.hand h).pc false ea))) ∧
  (∀ (s : State) (h : HandId) (data : Word) (set : BitVec 4), s.cascade.rwait = none →
      (s.permits h 64 true 0 → Answers (exec (.registerWrite (.io h 64 data)) s) fun t =>
        (t.hand h).htCount = data.setWidth 32) ∧
      (s.permits h 65 true 0 → Answers (exec (.registerWrite (.io h 65 data)) s) fun t =>
        (t.hand h).htReload = data.setWidth 32) ∧
      (s.permits h 8 true 3 → Answers (exec (.registerWrite (.io h 8 data)) s) fun t =>
        (t.core (coreOf h)).vecC = data.setWidth 16) ∧
      (s.permits h 9 true 3 → Answers (exec (.registerWrite (.io h 9 data)) s) fun t =>
        (t.core (coreOf h)).vecW = data.setWidth 16) ∧
      (s.permits h 129 true 3 → Answers (exec (.icSwi h set) s) fun t =>
        ∀ n, n < 4 → (t.core (coreOf h)).icPend.getLsbD (4 + n) =
          ((s.core (coreOf h)).icPend.getLsbD (4 + n) || set.getLsbD n)) ∧
      (s.permits h 320 true 3 → exec (.acuCtrl h .core data) s = .next (acuRegWrite h 320 data s)) ∧
      (s.permits h 328 true 3 → exec (.acuCtrl h .hamlet data) s = .next (acuRegWrite h 328 data s)) ∧
      (s.permits h 336 true 3 → exec (.acuCtrl h .device data) s = .next (acuRegWrite h 336 data s))) ∧
  (∀ (s : State) (h : HandId) (data : Word) (code : Byte), s.power.state = .run → (s.hand h).state = .running →
      (s.frozen h && !s.thawed h) = false → s.boundary h = none → (s.hand h).imp = none → (s.hand h).level ≠ 3 →
      (s.acuView h).2 = s →
      let allows (addr : Nat) : Prop :=
        s.acuCheck (s.acuView h).1 h (handAccessor h (s.hand h)) { io := true, addr := addr, start := addr, write := true } =
          (true, s)
      let refused (i : Instr) (addr : Nat) : Prop :=
        exec i s = .next (s.takeException h 5 (s.hand h).pc false (BitVec.ofNat 36 addr))
      (allows 0xC001 → refused (.gvCtrl h data) 0xC001) ∧ (allows 0xE009 → refused (.dbgCtrl h data) 0xE009) ∧
      (allows 0xE041 → refused (.gcCtrlReset h) 0xE041) ∧ (allows 0xB002 → refused (.wlock h) 0xB002) ∧
      (allows 0xD002 → refused (.csCtrl h data) 0xD002) ∧ (allows 28679 → refused (.prWrite h code) 28679) ∧
      (allows 129 → refused (.icSwi h 15) 129))

/-! ### The host link (file 05) -/

/-- Link, configuration, power and IDE events of the PCIe attachment: a link that trains takes the highest rate and
width both partners support and FLIT mode where the partner has it; D3hot with errands in flight keeps or loses
each of a ring's errands as a free choice has it (R187 to R190, R204 to R206, R209, R210, R215, R216; log 66). The
Tally counter never decreases at a PTM exchange; at the first exchange after reset, with no contract admitted and
the target ahead, it steps to the target, and otherwise it keeps its value and slews by the offset (R218, R219). -/
def Obligations.LinkEvents : Prop :=
  (∀ (s : State) (on flit keySet : Bool) (rates : BitVec 7) (widths : BitVec 5) (r w : Nat) (f : CfgField)
      (keys : List (List Byte × List Byte)),
      (s.link.perst = false → s.startup.inReset = false → s.cascade.master = true →
        highest (openRates rates flit) = some r → highest widths = some w →
        Answers (exec (.linkUp rates widths flit) s) fun t => t.link.dlUp = true ∧ t.link.rate = r ∧
          t.link.width = w ∧ t.link.flitMode = flit) ∧
      (s.linkAwake = true → s.cascade.master = true → s.link.fwReady = true ∨ s.link.retryEnded = true →
        (Answers (exec (.configRequest (.busMaster on)) s) fun t =>
          t.link.busMaster = on ∧ t.out.getLast? = some .configDone) ∧
        Answers (exec (.configRequest (.read f)) s) fun t =>
          t.out = s.out ++ [.configData (s.owesWake.cfgValue f), .configDone]) ∧
      (s.linkAwake = true → s.cascade.master = true → s.link.fwReady = false → s.link.retryEnded = false →
        exec (.configRequest (.busMaster on)) s = .next (s.owesWake.emit .configRetry)) ∧
      (s.linkAwake = true → s.cascade.master = true →
        Answers (exec (.configRequest (.faulty .malformed)) s) fun t => t.link.aer.uncor.getLsbD 18 = true) ∧
      (s.link.perst = false → s.link.fwReady = false →
        Answers (exec .readinessTimeout s) fun t => t.link.retryEnded = true) ∧
      (s.linkAwake = true → s.link.d3hot = false → s.link.fwReady = true ∨ s.link.retryEnded = true →
        s.steward.errands = [] → exec .d3hot s = .next (s.owesWake.modLink fun l => { l with d3hot := true })) ∧
      (s.linkAwake = true → s.link.d3hot = false → s.link.fwReady = true ∨ s.link.retryEnded = true →
        Answers (exec .d3hot s) fun t => t.link.d3hot = true ∧ ∀ e x, s.errand? e = some x →
          t.errand? e = some x ∨ (∃ n, x.src = .ring n) ∧ t.errand? e = some { x with dropped := true }) ∧
      (s.linkAwake = true → s.link.d3hot = true → Answers (exec .d0 s) fun t =>
        t.link.d3hot = false ∧ t = { s.owesWake with link := t.link, out := t.out }) ∧
      (s.link.ideSecure = true → Answers (exec .ideInsecure s) fun t => t.link.ideSecure = false) ∧
      (s.link.ideSecure = false → s.linkAwake = true → s.link.flitMode = true →
        Answers (exec (.ideSecure keySet keys) s) fun t => t.link.ideSecure = true ∧ t.link.ide.keySet = keySet)) ∧
  (∀ (s : State) (ns : Nat),
      (s.link.dlUp = true → s.link.ptmEnable = true → s.link.ptmAlign = true →
        Answers (exec .ptmInterval s) fun t => t.link.ptmPending = true ∧ t.out = s.out ++ [.ptmRequest]) ∧
      (s.link.ptmPending = true → Answers (exec (.ptmResponse ns) s) fun t =>
        s.link.tally ≤ t.link.tally ∧ t.link.ptmLock = true ∧
        (s.link.ptmDone = false → (∀ n, (s.contract n).bound = false) → s.link.tally < ns / 10 →
          keysWf s.steward.contracts = true → t.link.tally = ns / 10 ∧ t.link.slew = 0) ∧
        (s.link.ptmDone = true → t.link.tally = s.link.tally ∧ t.link.slew = (s.link.tally : Int) - (ns / 10 : Nat))))

/-- Registers and requests of the PCIe attachment: HL_CTRL holds its fields, an unmasked vector sends the message
that came while it was masked, a data object is answered Busy before FW_READY, waits for Warden firmware or, over
16 KiB, is discarded with an error, a BAR2 read gives the window's octets and changes nothing, and a completion
timeout is logged (R194, R195, R199, R202, R211, R212, R221). -/
def Obligations.LinkRequests : Prop :=
  ∀ (s : State) (data : Word64) (v offset len : Nat) (object : List Byte) (read : DmaRead),
    (s.hostOk → data.toNat < 8 → Answers (exec (.hlCtrl data) s) fun t => t.link.quiesce = data.getLsbD 0 ∧
      t.link.ptmAlign = data.getLsbD 1 ∧ t.link.evtEn = data.getLsbD 2) ∧
    (s.hostOk → v ≤ 256 → keysWf s.link.msix = true → (∀ kv, kv ∈ s.link.msix → kv.1 ≠ v → kv.2.pending = false) →
      Answers (exec (.msixUnmask v) s) fun t => (aget {} t.link.msix v).masked = false ∧
        ((aget {} s.link.msix v).pending = true → s.link.dmaOk = true → s.link.msixEnable = true →
          s.link.msixMask = false → t.out = s.out ++ [.msix v] ∧ (aget {} t.link.msix v).pending = false) ∧
        ((aget {} s.link.msix v).pending = false → t.out = s.out)) ∧
    (s.linkAwake = true → s.cascade.master = true →
      Answers (exec (.doeRequest object) s) fun t =>
        if s.link.fwReady = false then t.link = s.link ∧ t.out = s.out ++ [.doe true s.link.doeError]
        else if 16384 < object.length then t.link.doeError = true ∧ t.link.doeObjects = s.link.doeObjects
        else t.link.doeObjects = s.link.doeObjects ++ [object]) ∧
    (s.hostReach = true → 4 ≤ len → offset % 4 = 0 → offset + len ≤ 4096 →
      exec (.fastStatusRead offset len) s = .next (s.emit (.barData (s.fswOctets offset len)))) ∧
    (s.link.cplTimeout ≠ .disabled → s.cascade.master = true →
      Answers (exec (.completionTimeout read) s) fun t => t.link.aer.uncor.getLsbD 14 = true)

/-! ### Resets (file 22) -/

/-- Each cause of device reset leaves the device in reset with its Hands, cores, rings, Steward, lanes, slices and
Vault slots at their reset values, and keeps the queue, the Watch domain's RTC and the spent fuses and tokens
(R208, R689, R690). A guard-die power-on reset also clears the Trial register and the Parish ring and leaves
GC_CAUSE at 1 (R581, R630, R689). -/
def Obligations.DeviceResets : Prop :=
  (∀ (s : State) (h : HandId),
      let isReset (cause : BitVec 7) (t : State) : Prop :=
        t.startup.inReset = true ∧ t.hands = [] ∧ t.cores = [] ∧ t.hamlets = [] ∧ t.rings = [] ∧ t.steward = {} ∧
        t.lanes = [] ∧ t.slices = [] ∧ t.vault.slots = [] ∧ t.entropy = {} ∧ t.devAcu = {} ∧ t.link.fwReady = false ∧
        t.pending = s.pending ∧ t.watch.rtcSec = s.watch.rtcSec ∧ t.life.copy0 = s.life.copy0 ∧
        t.life.copy1 = s.life.copy1 ∧ t.life.copy2 = s.life.copy2 ∧ t.life.spent = s.life.spent ∧
        t.life.trial = s.life.trial ∧ t.life.session = .closed ∧
        (s.startup.inReset = false → t.startup.cause = cause)
      (s.cascade.master = true → s.watch.mainDark = false → Answers (exec .perstN s) fun t =>
        isReset 2 t ∧ t.link.perst = true) ∧
      (s.cascade.master = true → s.link.dlUp = true → Answers (exec .hotReset s) (isReset 2) ∧
        Answers (exec .dlDown s) (isReset 2)) ∧
      (s.cascade.master = true → s.link.d3hot = true → Answers (exec .d3cold s) (isReset 2)) ∧
      (s.watch.mainDark = false → Answers (exec .deviceReset s) (isReset 0)) ∧
      (s.awake → s.power.state ≠ .dormant → Answers (exec .deviceWatchdogExpiry s) (isReset 4)) ∧
      (s.permits h 0xE041 true 3 → Answers (exec (.gcCtrlReset h) s) (isReset 16)) ∧
      (s.startup.rcvState = 2 → Answers (exec .recoveryReset s) (isReset 0))) ∧
  (∀ s : State, Answers (exec .guardPowerOnReset s) fun t =>
      t.startup.inReset = true ∧ t.hands = [] ∧ t.rings = [] ∧ t.life.trial = none ∧ t.parish.ring = [] ∧
      t.parish.used = 0 ∧ t.startup.cause = 1 ∧ t.startup.attempts = 0)

/-- What State.reset holds: no Hand, ring, contract, errand or page, the Tally counter 0, no reset but a device reset in
force, every life-cycle fuse unblown, the Vault SEALED and the Watch log empty (the values the reset tables give;
the fuses and the reset in force are log 1 and 2). -/
def Obligations.ResetState : Prop :=
  State.reset.startup.inReset = true ∧ State.reset.hands = [] ∧ State.reset.rings = [] ∧
  State.reset.steward = {} ∧ State.reset.link.tally = 0 ∧ State.reset.store.state = .closed ∧
  State.reset.vault.mode = .sealed ∧ State.reset.watch.log = [] ∧ State.reset.startup.cause = 1 ∧
  (∀ n, (State.reset.ring n).sqState = .disabled ∧ (State.reset.ring n).cqState = .disabled) ∧
  (∀ h, (State.reset.hand h).state = .free) ∧ State.reset.parish.snapshot = true ∧ State.reset.pending = [] ∧ State.reset.watch.bounded

/-! ### Rings (file 06) -/

/-- Host writes of a disabled ring's registers are held, and enabling a CQ and then an SQ with aligned bases and legal
depths makes them ACTIVE (R225 to R229). Resetting a ring: RESETTING at the write, and DISABLED with both indexes 0
once nothing of it is in flight (R229, R230). -/
def Obligations.RingSetup : Prop :=
  (∀ (s : State) (n : RingId) (data : Word64), s.hostOk →
      let r := s.ring n
      (r.sqState = .disabled → r.inFlight = 0 → Answers (exec (.rgSqBase n data) s) fun t => (t.ring n).sqBase = data) ∧
      (r.cqState = .disabled → Answers (exec (.rgCqBase n data) s) fun t => (t.ring n).cqBase = data) ∧
      (r.sqState = .disabled → r.inFlight = 0 → r.cqState = .disabled → data &&& 0xFFFE0000FFFE0000#64 = 0 →
        Answers (exec (.rgSize n data) s) fun t =>
          (t.ring n).sqDepth = data.toNat % 2 ^ 17 ∧ (t.ring n).cqDepth = data.toNat / 2 ^ 32 % 2 ^ 17) ∧
      (r.cqState = .disabled → r.cqEn = false → r.sqState = .disabled → r.sqEn = false → r.inFlight = 0 →
        r.cqBase.toNat % 64 = 0 → depthOk r.cqDepth = true → data = BitVec.ofNat 64 (n.val * 256 + 2) →
        Answers (exec (.rgCtrl n data) s) fun t => (t.ring n).cqState = .active ∧ (t.ring n).cqTail = 0 ∧
          (t.ring n).phase = true) ∧
      (r.cqState = .active → r.cqEn = true → r.sqState = .disabled → r.sqEn = false → r.inFlight = 0 →
        r.sqBase.toNat % 64 = 0 → depthOk r.sqDepth = true → data = BitVec.ofNat 64 (n.val * 256 + 3) →
        Answers (exec (.rgCtrl n data) s) fun t => (t.ring n).sqState = .active ∧ (t.ring n).sqHead = 0 ∧
          (t.ring n).sqTail = 0)) ∧
  (∀ (s : State) (n : RingId),
      (s.hostOk → (s.ring n).reads = [] → (∀ kv, kv ∈ s.steward.errands → kv.2.src ≠ .ring n) →
        Answers (exec (.rgResetSq n) s) fun t => (t.ring n).sqState = .resetting) ∧
      ((s.ring n).sqState = .resetting → (∀ kv, kv ∈ s.steward.errands → kv.2.src ≠ .ring n) →
        Answers (exec (.sqResetDone n) s) fun t =>
          (t.ring n).sqState = .disabled ∧ (t.ring n).sqHead = 0 ∧ (t.ring n).sqTail = 0 ∧ (t.ring n).sqEn = false) ∧
      (s.hostOk → s.cqInUse n = false → (s.ring n).cqState = .active ∨ (s.ring n).cqState = .error →
        Answers (exec (.rgResetCq n) s) fun t => (t.ring n).cqState = .resetting) ∧
      ((s.ring n).cqState = .resetting → Answers (exec (.cqResetDone n) s) fun t =>
        (t.ring n).cqState = .disabled ∧ (t.ring n).cqHead = 0 ∧ (t.ring n).cqTail = 0 ∧ (t.ring n).cqEn = false))

/-- Doorbells: an index inside the ring is taken, and one outside moves the SQ to ERROR with the index (R231 to R233).
A plain register access: an OUT of WT_CTRL has the row's own effect; a whole aligned 8-octet write of a ring's base
through BAR0 has that row's own effect, a write of another size or alignment is discarded and sets ACCESS_SIZE, one
of BAR2 is discarded, and one of a doorbell keeps bits 31:0 and acts where its V bits are 1; a read answers the
octets it addresses, and zeros with ACCESS_SIZE where its size or alignment is wrong; a request outside a Secure
stream that is required gets Unsupported Request (R18, R191, R193, R194, R216, R232). -/
def Obligations.HostWrites : Prop :=
  (∀ (s : State) (n : RingId) (v : BitVec 16), s.hostOk →
      (s.doorbellDead (s.ring n).sqState = false → v.toNat < (s.ring n).sqDepth →
        Answers (exec (.doorbellSqTail n v) s) fun t => (t.ring n).sqTail = v.toNat ∧ (t.ring n).sqState = (s.ring n).sqState) ∧
      ((s.ring n).sqState = .active → s.doorbellDead .active = false → (s.ring n).sqDepth ≤ v.toNat →
        Answers (exec (.doorbellSqTail n v) s) fun t => (t.ring n).sqState = .error ∧ (t.ring n).errIndex = v.toNat) ∧
      (s.doorbellDead (s.ring n).cqState = false → v.toNat < (s.ring n).cqDepth →
        Answers (exec (.doorbellCqHead n v) s) fun t => (t.ring n).cqHead = v.toNat)) ∧
  (∀ (s : State) (h : HandId) (n : RingId) (offset size : Nat) (data : Word64) (w : Word) (inStream : Bool),
      (s.permits h 0xB002 true 3 → s.cascade.rwait = none →
        exec (.registerWrite (.io h 0xB002 w)) s = .next (s.writeWtCtrl w)) ∧
      (s.hostReach = true → s.link.ideRefuses inStream = false →
        exec (.registerWrite (.write .bar0 (0x2000 + 64 * n.val) 8 data inStream)) s =
          .next (s.owesWake.writeSqBase n data) ∧
        exec (.registerWrite (.write .bar2 offset size data inStream)) s = .next s ∧
        (barSizeOk (offset % 65536) size = false →
          exec (.registerWrite (.write .bar0 offset size data inStream)) s = .next s.owesWake.badAccess ∧
          exec (.registerWrite (.read .bar0 offset size inStream)) s =
            .next (s.badAccess.emit (.barData (List.replicate size 0)))) ∧
        (data.getLsbD 32 = false → data.getLsbD 33 = false → data.toNat < 2 ^ 34 →
          s.doorbellDead (s.ring n).sqState = false → s.doorbellDead (s.ring n).cqState = false →
          Answers (exec (.registerWrite (.write .bar4 (8 * n.val) 8 data inStream)) s) fun t => t.steward = s.steward ∧
            t.ring n = { s.ring n with dbHead := data.toNat / 2 ^ 16 % 2 ^ 16, dbTail := data.toNat % 2 ^ 16 }) ∧
        (barSizeOk (offset % 65536) size = true → Answers (exec (.registerWrite (.read .bar0 offset size inStream)) s) fun t =>
          t.out = s.out ++
            [.barData (((leOctets 8 (s.bar0Read (offset % 65536 / 8 * 8))).drop (offset % 65536 % 8)).take size)])) ∧
      (s.hostReach = true → s.link.ideRefuses inStream = true →
        Answers (exec (.registerWrite (.read .bar0 offset size inStream)) s) fun t =>
          t.link.ideDrop = true ∧ t.out = s.out ++ [.unsupported]))

/-- Descriptor fetch: the Steward asks for the descriptors of the ring next in order from where the ring's SQ holds
them, and an arrived read's descriptors become errands; a failed read moves the SQ to ERROR (R234, R236, R268,
R726). -/
def Obligations.DescriptorFetches : Prop :=
  ∀ (s : State) (n m : Nat) (k : RingId) (contracted : Bool) (r : FetchRead) (ds : List (List Byte)),
    (s.mayFetch = true → s.nextSq = some (n, contracted) → Answers (exec .descriptorFetch s) fun t =>
      t.out = s.out ++ [.hostRead ((s.ring n).sqBase + BitVec.ofNat 64 ((s.ring n).sqFetch * 64)) (64 * s.fetchCount n)]) ∧
    ((s.ring k).reads = [r] → r.data = none → s.cascade.master = true →
      Answers (exec (.descriptorArrival k r.id none) s) fun t =>
        (t.ring k).sqState = .error ∧ (t.ring k).reads = [] ∧ t.link.aer.uncor.getLsbD 12 = true) ∧
    ((s.ring k).reads = [r] → r.data = none → r.count = 1 → ds.length = 1 → m = s.steward.nextErrand →
      Answers (exec (.descriptorArrival k r.id (some ds)) s) fun t =>
        (t.ring k).reads = [] ∧ t.steward.nextErrand = m + 1 ∧
        ∃ x, t.errand? m = some x ∧ x.raw = padTo 64 ((ds.getD 0 []).take 64) ∧ x.src = .ring k)

/-! ### Errands, completions and Almanacs (files 01, 06, 07) -/

/-- The first waiting errand that fits takes a FREE Hand of the chosen core, LOADING, with a zeroed Workspace
partition of its own; once buffer 0 has arrived the Hand stands at the Verb's entry with its registers at 0 and SCR.W
kept; an errand whose share has left OPEN ends unrun with that status, and, its share OPEN, a failed read of buffer 0
ends it with DMA_FAIL (08h) unrun (R30, R32, R50, R76, R77, R251, R271, R305, R729). -/
def Obligations.ErrandPlacement : Prop :=
  ∀ (s : State) (h : HandId) (e c : Nat) (x : Errand) (d : VerbDecl) (a : Almanac) (octets : List Byte),
    ((∀ kv, kv ∈ s.steward.errands → s.mustLeave kv.2 = false) → (x.wantsBuf0 = true → s.dmaReady = true) →
      s.firstPlaceable = some e → s.errand? e = some x → s.placeable x = some (d, c) →
      Answers (exec .handAllocate s) fun t => ∃ k, k ∈ handsOf c ∧ (s.hand k).state = .free ∧
        (t.hand k).state = .loading ∧ (t.hand k).errand = some e ∧
        (t.errand? e).map Errand.phase = some (.placed k) ∧ (t.hand k).wsSize = max 1 (granules d.workspace) * 1024 ∧
        (∀ i, i < (t.hand k).wsSize → aget 0 (t.core c).workspace ((t.hand k).wsBase + i) = 0) ∧
        ∀ j, j ≠ k → t.hand j = s.hand j) ∧
    ((s.hand h).state = .loading → s.errandOf h = some (e, x) → s.verbOf h = some d → s.almanacOf h = some a →
      (s.startRefusal x (some octets) = none → Answers (exec (.errandStart h (some octets)) s) fun t =>
        (t.hand h).pc = BitVec.ofNat 16 (s.almanacBase (coreOf h) (descAlmanac x.raw) + d.entry) ∧
        ((t.hand h).state = .ready ∨ (t.hand h).state = .running) ∧ (∀ r, t.rg h r = 0) ∧
        (t.hand h).scrW = (s.hand h).scrW ∧ (t.hand h).errand = (s.hand h).errand ∧
        (t.status h).getLsbD 35 = a.warden ∧ (t.status h).getLsbD 34 = false ∧ preciseOf (t.status h) = d.precise) ∧
      (x.phase = .placed h.val →
        let unrun (buf0 : Option (List Byte)) (status detail : Nat) : Prop :=
          Answers (exec (.errandStart h buf0) s) fun t => (t.hand h).state = .releasing ∧
            ∃ y, t.errand? e = some y ∧ y.status = BitVec.ofNat 8 status ∧ y.detail = BitVec.ofNat 32 detail ∧
              y.phase = .ending (some h.val)
        (∀ st dt, s.startRefusal x (some octets) = some (st, dt) →
          unrun (some octets) st dt ∧ unrun none st dt) ∧
        (s.startRefusal x (some octets) = none → bufDir x.raw 0 ≠ 0 → bufLen x.raw 0 ≠ 0 → unrun none 0x08 0)))

/-- LOAD, UNLOAD and CHECKPOINT errands and internal errands: a lost image gives DMA_FAIL, a bad one the status of its
first fault, one a core of this device has no room for ISPACE_FULL with the largest free run, and a good one that fits
gets the next Almanac index as RESULT, or, where the target holds members with room, goes to them first; UNLOAD marks
its Almanac and, when nothing fetched earlier names it, frees it on every core, after the members that hold it;
CHECKPOINT asks for a checkpoint, or ends with 45h while the Store is CLOSED; SW_ISUBMIT admits the staged
descriptor, and refuses the 257th (R52, R241, R253 to R259, R297, R336, R728). -/
def Obligations.AlmanacErrands : Prop :=
  ∀ (s : State) (h : HandId) (e : Nat) (x : Errand) (octets : List Byte) (reldl : BitVec 32) (room : Option Nat),
    let image := padTo (bufLen x.raw 1) (octets.take (bufLen x.raw 1))
    let i := descAlmanac x.raw
    let ends (t : State) (status : Byte) (result : Word) (detail : BitVec 32) : Prop :=
      ∃ y, t.errand? e = some y ∧ y.phase = .ending none ∧ y.status = status ∧ y.result = result ∧ y.detail = detail
    (s.errand? e = some x → x.phase = .service → (descKind x.raw ≠ 1 → x.dtag.isSome = true ∧ x.awaits = []) →
      (descKind x.raw = 2 → s.joinUnderWay = false → s.loadUnderWay = false → s.dmaReady = true →
        s.cascade.master = true →
        let target := descTarget x.raw
        let checked := s.checkImage (bufPack x.raw 1) (bufLen x.raw 1) image
        Answers (exec (.load e none room) s) (fun t => ends t 0x08 0 1) ∧
        (∀ st d, checked = .error (st, d) →
          Answers (exec (.load e (some octets) room) s) fun t => ends t (BitVec.ofNat 8 st) 0 (BitVec.ofNat 32 d)) ∧
        (∀ a code relocs, checked = .ok (a, code, relocs) → s.steward.nextAlmanac ≤ 65535 →
          (∀ r, s.noRoomHere target code.length = some r → s.membersIn target = [] →
            Answers (exec (.load e (some octets) room) s) fun t => ends t 0x0E 0 (BitVec.ofNat 32 r)) ∧
          ((∀ c, c ∈ s.coresIn target → s.inService c = true → ((s.core c).imageGap code.length).isSome = true) →
            (s.membersIn target = [] → Answers (exec (.load e (some octets) room) s) fun t =>
              ends t 0 (BitVec.ofNat 36 s.steward.nextAlmanac) 0 ∧
              afind t.steward.almanacs s.steward.nextAlmanac = some { a with unloading := false }) ∧
            (s.membersIn target ≠ [] → room = none → Answers (exec (.load e (some octets) room) s) fun t =>
              ∃ y, t.errand? e = some y ∧ y.phase = .service ∧ y.awaits = s.membersIn target ∧
                y.loads = some s.steward.nextAlmanac)))) ∧
      (descKind x.raw = 3 → s.joinUnderWay = false →
        (∀ a, afind s.steward.almanacs i = some a → Answers (exec (.unload e) s) fun t =>
          afind t.steward.almanacs i = some { a with unloading := true }) ∧
        (s.earlierUsers e i = false →
          (s.cascade.master = false ∨ s.holders i = [] → Answers (exec (.unloadComplete e) s) fun t =>
            ends t 0 0 0 ∧ afind t.steward.almanacs i = none ∧
            ∀ c r, r ∈ (t.core c).regions → r.kind ≠ .almanac i) ∧
          (s.cascade.master = true → s.holders i ≠ [] → Answers (exec (.unloadComplete e) s) fun t =>
            ∃ y, t.errand? e = some y ∧ y.phase = .service ∧ y.awaits = s.holders i))) ∧
      (descKind x.raw = 1 →
        (s.store.state = .closed → Answers (exec (.checkpoint e) s) fun t => ends t 0x45 0 0) ∧
        (s.store.state = .opened → x.ckWait = none →
          Answers (exec (.checkpoint e) s) fun t => t.store.ckDue = true))) ∧
    (s.permits h 0x1050 true 3 → s.internalLoad < 256 → Answers (exec (.swIsubmit h reldl) s) fun t =>
      t.steward.nextErrand = s.steward.nextErrand + 1 ∧ ∃ y, t.errand? s.steward.nextErrand = some y ∧
        y.src = .internal ∧ y.raw = packOut .loose (agetRun 0 (s.hand h).idesc 0 16) 64) ∧
    (s.permits h 0x1050 true 3 → 256 ≤ s.internalLoad → Answers (exec (.swIsubmit h reldl) s) fun t =>
      t.steward.icplRefused = true ∧ t.steward.errands = s.steward.errands) ∧
    (s.permits h 0x105F false 3 → Answers (exec (.swIcpl7Read h) s) fun t => t.steward.icpl = s.steward.icpl.drop 1)

/-! ### Grants (file 07) -/

/-- A request of SW_REQUEST is refused with its REASON, granted at once when nothing of its kind waits and a unit is
free, or left waiting with its Hand BLOCKED; a release frees what an idle engine holds; a delivery serves the first
waiting request (R272 to R275; log 90). Handback and slice modes: a trimmed unit that may be saved is free of its
holder, and its registers stand in the save area or, where another unit was free for the holder at once, in that
one; the former holder first in order gets a unit back with them; a free slice takes its new mode zero-filled, the
modes being those SW_SLICE_MODE holds (R276 to R278, R356, R380, R384, R386, R413). -/
def Obligations.Grants : Prop :=
  (∀ (s : State) (h : HandId) (kib : BitVec 12) (cls : GrantClass) (w u kind amount : Nat),
      let asks (i : Instr) (kind amount : Nat) : Prop :=
        let units := if kind = 4 then (amount + 3) / 4 else 0
        let within : Prop := kind = 4 → ∀ d, s.verbOf h = some d → (s.hand h).rbUsed + amount ≤ d.rbKib
        (∀ r, s.refuseReason h kind amount = some r →
          Answers (exec i s) fun t => (t.hand h).grantEv = some (grantWord r kind 0)) ∧
        (s.refuseReason h kind amount = none → within → (∀ k, s.waitsFor k kind = false) →
          (∀ u, s.unitFor h kind units = some u → Answers (exec i s) fun t =>
            (t.hand h).grantEv = some (grantWord 0 kind u) ∧ (t.hand h).holdsKind kind = true ∧
            (t.hand h).request = none) ∧
          (s.unitFor h kind units = none → Answers (exec i s) fun t =>
            (t.hand h).request = some (kind, units) ∧ (t.hand h).grantEv = (s.hand h).grantEv ∧
            (t.hand h).state = .blocked .grant))
      (s.permits h 0x1000 true 0 → asks (.grantLane h) 1 0 ∧ asks (.grantSliceSeq h) 2 0 ∧ asks (.grantSliceMac h) 3 0 ∧
        asks (.grantRb h kib) 4 kib.toNat ∧ asks (.grantDrbg h) 5 0) ∧
      (s.permits h 0x1001 true 0 → (s.hand h).errand ≠ none →
        (s.laneBusy h = false → Answers (exec (.releaseLane h) s) fun t => (t.hand h).laneHeld = false ∧
          ∀ l, (s.hand h).laneHeld = true → (s.hand h).lane = some l → (t.lane l).holder = none) ∧
        (s.sliceBusy h = false → Answers (exec (.releaseSlice h) s) fun t => (t.hand h).sliceHeld = false ∧
          ∀ l, (s.hand h).sliceHeld = true → (s.hand h).slice = some l → (t.slice l).holder = none) ∧
        Answers (exec (.releaseRb h) s) (fun t => (t.hand h).rbBase = none ∧ (t.hand h).rbGranules = 0) ∧
        Answers (exec (.releaseDrbg h) s) (fun t => (t.hand h).drbg = none ∧ (t.hand h).drbgBuf = [])) ∧
      (kindIn cls kind = true → (kind = 3 → s.firstWaiting 2 = none) →
        s.firstWaiting kind = some w → (s.hand w).request = some (kind, amount) → s.unitFor w kind amount = some u →
        Answers (exec (.grantDeliver cls) s) fun t => (t.hand w).request = none ∧ (t.hand w).holdsKind kind = true ∧
          (cls = .lane → (t.lane u).holder = some w) ∧ (cls = .slice → (t.slice u).holder = some w))) ∧
  (∀ (s : State) (h : HandId) (k u : Nat) (unit : Fin 16) (seq : BitVec 16),
      ((s.lane unit).holder = some k → (s.lane unit).maySave = true → s.laneTrimmed unit = true →
        Answers (exec (.handback .lane unit) s) fun t =>
          (afind t.savedLanes k = some (s.lane unit).regs ∨
            ∃ v, (t.lane v).holder = some k ∧ (t.lane v).regs = (s.lane unit).regs) ∧ (t.lane unit).holder = none) ∧
      ((s.slice unit).holder = some k → (s.slice unit).regs.op = none → s.sliceTrimmed unit = true →
        Answers (exec (.handback .slice unit) s) fun t =>
          (afind t.savedSlices k = some (s.slice unit).regs ∨
            ∃ v, (t.slice v).holder = some k ∧ (t.slice v).regs = (s.slice unit).regs) ∧ (t.slice unit).holder = none) ∧
      (∀ r, (s.hand h).laneHeld = true → (s.hand h).lane = none → (s.hand h).state = .blocked (.unit false) →
        (s.hand h).request = none → s.firstWaiting 1 = some h.val → s.unitFor h 1 0 = some u → afind s.savedLanes h = some r →
        Answers (exec (.handbackRestore h .lane) s) fun t => (t.hand h).lane = some u ∧
          (t.lane u).holder = some h.val ∧ (t.lane u).regs = r ∧ afind t.savedLanes h = none ∧
          ((t.hand h).state = .ready ∨ (t.hand h).state = .running)) ∧
      (∀ r kind, kind = (if (s.hand h).sliceMac then 3 else 2) → (s.hand h).sliceHeld = true → (s.hand h).slice = none →
        (s.hand h).state = .blocked (.unit true) → (s.hand h).request = none → s.firstWaiting kind = some h.val →
        s.unitFor h kind 0 = some u →
        afind s.savedSlices h = some r →
        Answers (exec (.handbackRestore h .slice) s) fun t => (t.hand h).slice = some u ∧
          (t.slice u).holder = some h.val ∧ (t.slice u).regs = r ∧ afind t.savedSlices h = none ∧
          ((t.hand h).state = .ready ∨ (t.hand h).state = .running)) ∧
      (s.permits h 0x1009 true 3 → Answers (exec (.swSliceMode h seq) s) fun t => t.steward.sliceMode = seq) ∧
      ((s.slice unit).holder = none → (s.slice unit).regs.op = none →
        (s.slice unit).seqMode ≠ s.steward.sliceMode.getLsbD unit →
        Answers (exec (.sliceModeChange unit) s) fun t =>
          (t.slice unit).seqMode = s.steward.sliceMode.getLsbD unit ∧ (t.slice unit).regs = {}))

/-! ### The Steward's stops, core service and contracts (files 01, 07) -/

/-- Budgets and stops, core service and the core watchdog: an overrun stops the errand with OVERRUN (20h) DETAIL 1, SW_STOP
with STOPPED (10h) and its code; a core taken out stays out until it returns; an expired watchdog takes its core out,
sets EXPIRED and raises source 27 on every other core; its warning raises source 8 (R267, R279, R280, R296, R297). -/
def Obligations.StewardStops : Prop :=
  ∀ (s : State) (h : HandId) (core : Fin 128) (e : Nat) (x : Errand) (dtag : BitVec 12) (code : Byte),
    let stops (i : Instr) (status : Byte) (detail : BitVec 32) : Prop := Answers (exec i s) fun t =>
      ∃ y g, t.errand? e = some y ∧ y.phase = .ending g ∧ y.status = status ∧ y.detail = detail ∧ y.done = false
    ((s.hand h).errand = some e → (s.hand h).state = .running → s.errand? e = some x → x.phase = .placed h.val →
      stops (.coreNsOverrun h) 0x20 1) ∧
    (s.permits h 0x1008 true 3 → (∀ g, x.phase ≠ .ending g) → s.errand? e = some x →
      (s.steward.errands.find? fun kv => decide (kv.2.dtag = some dtag.toNat)) = some (e, x) →
      stops (.swStop h dtag code) 0x10 (code.setWidth 32)) ∧
    (s.permits h (0x1080 + core.val) true 3 →
      Answers (exec (.coreOutOfService h core) s) (fun t => (t.core core).outOfService = true) ∧
      Answers (exec (.coreReturn h core) s) (fun t => (t.core core).outOfService = false)) ∧
    (s.watchdogCounts core = true →
      Answers (exec (.coreWatchdogExpiry core) s) (fun t => (t.core core).expired = true ∧
        (t.core core).outOfService = true ∧ ∀ d, d < 128 → d ≠ core.val → (t.core d).icPend.getLsbD 27 = true) ∧
      Answers (exec (.wdogWarn core) s) fun t => (t.core core).icPend.getLsbD 8 = true) ∧
    (∀ d, s.errand? e = some x → x.phase = .placed h.val → x.deadline = some d → d < s.link.tally →
      (∀ a, (s.hand h).state ≠ .blocked (.wait .steward a)) →
      Answers (exec (.deadlinePassed e) s) fun t => (t.hand h).evDeadline = true)

/-- Deadline contracts: SET refuses a bad contract (25h), answers a failed test (21h) and the contract in force stays, or
admits the staged contract; REMOVE ends one; while a command runs SET and REMOVE change nothing; CT_MEMLAT holds its
value; a late memory read of this device or of a member moves the ADMITTED contracts whose pools include it to AT_RISK
with cause 2, and the clearing of the cause brings one that fits back (R281 to R284, R287, R288, R290, R292). -/
def Obligations.Contracts : Prop :=
  ∀ (s : State) (n : RingId) (memlat : BitVec 32) (p : Word),
    let c := s.stagedContract
    let idle : Prop := s.hostOk ∧ s.steward.ctBusy = none
    (s.hostOk → s.steward.ctBusy.isSome = true →
      exec (.set n) s = .next s.owesWake ∧ exec (.remove n) s = .next s.owesWake) ∧
    (idle → s.badContract c = true → Answers (exec (.set n) s) fun t =>
      t.steward.ctResult = BitVec.ofNat 64 (0x25 * 2 ^ 48 + n.val * 2 ^ 40) ∧ t.contract n = s.contract n) ∧
    (∀ test cls point, idle → s.badContract c = false →
      s.admissionTest (n, c) (s.boundContracts n) = some (test, cls, point) → Answers (exec (.set n) s) fun t =>
        t.steward.ctResult = BitVec.ofNat 64
          (0x21 * 2 ^ 48 + n.val * 2 ^ 40 + test * 2 ^ 36 + cls * 2 ^ 32 + point % 2 ^ 32) ∧
        t.contract n = s.contract n) ∧
    (idle → s.badContract c = false → s.admissionTest (n, c) (s.boundContracts n) = none →
      Answers (exec (.set n) s) fun t => t.steward.ctResult = BitVec.ofNat 64 (n.val * 2 ^ 40) ∧
        (t.contract n).state = .admitted ∧ (t.contract n).target = c.target ∧ (t.contract n).rate = c.rate ∧
        (t.contract n).burst = c.burst ∧ (t.contract n).deadline = c.deadline ∧ (t.contract n).verbs = c.verbs ∧
        ∀ m, m ≠ n.val → t.contract m = s.contract m) ∧
    (idle → Answers (exec (.remove n) s) fun t => t.contract n = {} ∧
      ∀ m, m ≠ n.val → t.contract m = s.contract m) ∧
    (s.hostOk → Answers (exec (.ctMemlat memlat) s) fun t => t.steward.ctMemlat = memlat.toNat) ∧
    (keysWf s.steward.contracts = true → (s.contract n).state = .admitted →
      (s.poolsOn (s.contract n) s.devicePath = true → Answers (exec (.memlatExceeded none) s) fun t =>
        (t.contract n).state = .atRisk ∧ (t.contract n).cause = 2) ∧
      (s.memberPresent p = true → s.poolsOn (s.contract n) p = true →
        Answers (exec (.memlatExceeded (some p)) s) fun t =>
          (t.contract n).state = .atRisk ∧ (t.contract n).cause = 2)) ∧
    (s.steward.contracts = [(n.val, s.contract n)] → (s.contract n).state = .atRisk → (s.contract n).cause = 2 →
      s.admissionTest (n, s.contract n) [] = none → Answers (exec .memlatCauseClear s) fun t =>
        (t.contract n).state = .admitted ∧ (t.contract n).cause = 0)

/-! ### The Granary and the Store (file 08) -/

/-- Opening, closing and pinning pages: SOPEN's result in its order, with a resident page mapped at once and an absent one
asked for, and the first SOPEN of a page never written sets its WORLD; SCLOSE empties the slot; PIN pins a page it may
pin, UNPIN ends the pin (R311, R320, R322, R323, R733, R735). -/
def Obligations.SlotsAndPins : Prop :=
  ∀ (s : State) (h : HandId) (rdonly : Bool) (src : BitVec 2) (slot : BitVec 6) (p : Nat) (page : BitVec 30),
    let x := s.hand h
    let results (i : Instr) (sl code : Nat) (P : State → Prop) : Prop := Answers (exec i s) fun t =>
      (t.hand h).grResult = BitVec.ofNat 36 (sl * 64 + code) ∧ P t
    (s.permits h 0x6000 true 0 → (∀ d, s.verbOf h = some d → x.slots.length < d.apertures) →
      let opens := results (.sopen h rdonly src slot) slot.toNat
      (afind x.slots slot.toNat ≠ none → opens 2 fun t => (t.hand h).slots = x.slots) ∧
      (afind x.slots slot.toNat = none → s.sopenPage h src.toNat = none → opens 3 fun t => (t.hand h).slots = x.slots) ∧
      (afind x.slots slot.toNat = none → s.sopenPage h src.toNat = some p →
        (s.standing p ≠ .good → opens (s.standing p).code fun t => (t.hand h).slots = x.slots) ∧
        (∀ f, s.standing p = .good → afind s.store.frames p = some f →
          (f.world = some true → x.st.getLsbD 35 = false → opens 6 fun t => (t.hand h).slots = x.slots) ∧
          ((f.world = some true → x.st.getLsbD 35 = true) → opens 0 fun t =>
            afind (t.hand h).slots slot.toNat = some { page := p, readOnly := rdonly, warden := x.st.getLsbD 35 } ∧
            (afind t.store.frames p).map Frame.world = some (f.world.or (some (x.st.getLsbD 35))))) ∧
        (s.standing p = .good → afind s.store.frames p = none →
          (∀ e y d, s.errandOf h = some (e, y) → s.verbOf h = some d → y.misses < d.storeMisses) →
          opens 1 fun t => (∃ r, r ∈ t.store.queue ∧ r.page = p) ∧ afind (t.hand h).slots slot.toNat =
            some { page := p, readOnly := rdonly, warden := x.st.getLsbD 35 }))) ∧
    (s.permits h 0x6001 true 0 → Answers (exec (.sclose h slot) s) fun t =>
      afind (t.hand h).slots slot.toNat = none ∧
      ∀ k, k ≠ slot.toNat → afind (t.hand h).slots k = afind x.slots k) ∧
    (s.permits h 0x6008 true 3 → let q := page.toNat
      (s.standing q ≠ .good → results (.pin h page) 0 (s.standing q).code fun t => t.store.pins = s.store.pins) ∧
      (s.standing q = .good → s.store.pins.contains q = false → s.store.pins.length < 8192 →
        s.reservedFrames + s.store.pins.length + 1 ≤ 15872 →
        results (.pin h page) 0 (if (afind s.store.frames q).isSome then 0 else 1) fun t => q ∈ t.store.pins)) ∧
    (s.permits h 0x6009 true 3 → Answers (exec (.unpin h page) s) fun t => page.toNat ∉ t.store.pins)

/-- Paging and write-back: the first request starts; a page that verifies fills its frame and leaves the queue, one
that fails is quarantined, one never written reads zero; a dirty page is written sealed under its next counter and
becomes clean, as does a node (R308 to R311, R324 to R327, R734). The sweeper visits the pages of its share in
turn: one whose counter is 0, or one quarantined, is skipped (the latter the model's choice, log 117); a resident
one becomes dirty; any other is read, and what the read brings is sealed again under the current epoch and written
back when it stood under another and may be locked, and then the next page is due; one that may not be locked is
read again (R349, R350). -/
def Obligations.PagesInAndOut : Prop :=
  (∀ (s t : State) (q : PageIn) (p l i : Nat) (data : Option (List Byte)) (nodes : List (Option (List Byte))),
      let local_ := s.localPage p
      let counter := (t.store.parentCounter 0 local_).getD 0
      let unasked (u : State) : Prop := ∀ r, r ∈ u.store.queue → r.page ≠ p
      (s.firstQueued = some q → s.store.under < 64 → s.store.powerFail = false → s.dmaReady = true →
        s.store.frames.length + s.store.under < 16384 →
        Answers (exec (.pageInStart nodes) s) fun u => ∃ r, r ∈ u.store.queue ∧ r.page = q.page ∧ r.started = true) ∧
      ((s.store.queue.find? fun r => r.page == p && r.started) = some q → s.bringNodes local_ 1 nodes = (t, .ok) →
        (counter = 0 → Answers (exec (.pageInComplete p data nodes) s) fun u => ∃ f, afind u.store.frames p = some f ∧
          f.world = q.opener ∧ (∀ k, aget 0 f.words k = 0) ∧ unasked u) ∧
        (∀ octets e w words, counter ≠ 0 → data = some octets →
          openPage t.store.liveKey p counter octets = some (e, w, words) →
          Answers (exec (.pageInComplete p data nodes) s) fun u => ∃ f, afind u.store.frames p = some f ∧
            f.world = some w ∧ f.dirty = false ∧ (∀ k, aget 0 f.words k = words.getD k 0) ∧ unasked u) ∧
        (∀ octets, counter ≠ 0 → data = some octets → openPage t.store.liveKey p counter octets = none →
          afind s.store.frames p = none → Answers (exec (.pageInComplete p data nodes) s) fun u =>
            p ∈ u.store.quarantine ∧ afind u.store.frames p = none ∧ unasked u)) ∧
      (∀ f c, s.mayWriteBack = true → afind s.store.frames p = some f → f.dirty = true →
        s.bringNodes local_ 1 nodes = (t, .ok) → nextCounter t.store.gen counter = some c → s.cascade.master = true →
        Answers (exec (.writeBack (.page p) nodes) s) fun u =>
          (afind u.store.frames p).map Frame.dirty = some false ∧
          Out.hostWrite (s.store.pageAddress p) (sealPage t.store.sealKey p c s.store.epoch (f.world.getD false) f.words) ∈ u.out) ∧
      (∀ n c, s.mayWriteBack = true → afind s.store.nodes (nodeKey l i) = some n → n.dirty = true →
        (l < 7 ∨ s.store.ckPhase = .preparing) → s.bringNodes (i * 8 ^ l) (l + 1) nodes = (t, .ok) →
        nextCounter t.store.gen ((t.store.parentCounter l i).getD 0) = some c → t.store.nodes.length < 65536 →
        Answers (exec (.writeBack (.node l i) nodes) s) fun u =>
          (afind u.store.nodes (nodeKey l i)).map Node.dirty = some false)) ∧
  (∀ (s t : State) (data : Option (List Byte)) (nodes : List (Option (List Byte))) (sh : Share) (before : Option Nat)
      (octets : List Byte) (e c d : Nat) (w : Bool) (words : List Word),
      let q := s.store.sweepNext
      let p := sh.first + q
      let moved (u : State) : Prop :=
        u.store.sweepNext = q + 1 ∧ (u.store.sweepDone = true ↔ sh.count ≤ q + 1) ∧ u.store.sweepRead = none
      s.ownShare = some sh → sh.state = .opened → s.store.sweepDone = false → s.store.prevLive = true →
      s.mayWriteBack = true → s.sweepMayRun = true →
      (s.quarantined p = true ∨ s.store.parentCounter 0 q = some 0 →
        Answers (exec (.sweepPage data nodes) s) fun u => moved u ∧ u.store.frames = s.store.frames) ∧
      (s.quarantined p = false → s.store.parentCounter 0 q ≠ some 0 →
        (∀ f, afind s.store.frames p = some f → s.bringNodes q 1 nodes = (t, .ok) → t.store.parentCounter 0 q ≠ some 0 →
          Answers (exec (.sweepPage data nodes) s) fun u => moved u ∧ (afind u.store.frames p).map Frame.dirty = some true) ∧
        (afind s.store.frames p = none →
          (s.store.sweepRead = none → Answers (exec (.sweepPage data nodes) s) fun u =>
            u.store.sweepRead = some (s.store.parentCounter 0 q) ∧ u.store.sweepNext = q) ∧
          (s.store.sweepRead = some before → (before = none → s.store.parentCounter 0 q = none) →
            s.bringNodes q 1 nodes = (t, .ok) → t.store.parentCounter 0 q = some c → c ≠ 0 →
            (∀ b, before = some b → b = c) → data = some octets →
            openPage t.store.liveKey p c octets = some (e, w, words) →
            (e = t.store.epoch ∨ s.sweepMayLock = true → Answers (exec (.sweepPage data nodes) s) fun u => moved u ∧
              (e ≠ t.store.epoch → s.cascade.master = true → nextCounter t.store.gen c = some d →
                Out.hostWrite (s.store.pageAddress p)
                  (sealPage t.store.sealKey p d t.store.epoch w (asetRun 0 [] 0 words)) ∈ u.out)) ∧
            (e ≠ t.store.epoch → s.sweepMayLock = false → Answers (exec (.sweepPage data nodes) s) fun u =>
              u.store.sweepNext = q ∧ u.store.sweepRead = none ∧ u.out = s.out)))))

/-- The Store's states: OPEN and OPEN_NEW of a CLOSED Store with a good map enter OPENING while some owner is present,
with a bad one set CODE 48h; CLOSE of an OPEN Store ends every pin and makes it CLOSING; ST_MAP_OWNER writes the path of
an entry and moves on; the last share that verifies makes the Store OPEN; a member's report sets its share's state, that
of a new device at a share's path reads NO_RECORD (R301, R304, R323, R344 to R347, R539). -/
def Obligations.StoreStates : Prop :=
  ∀ (s : State) (data : Word64) (share : Fin 4096) (octets : List (List Byte)) (u : Store) (st : Fin 6)
    (rolledBack : Bool) (seq : BitVec 32),
    (s.hostOk → s.store.state = .closed →
      (s.store.mapOk = true → (∃ kv, kv ∈ s.store.shares ∧ (s.ownDevice kv.2.path || s.memberPresent kv.2.path) = true) →
        Answers (exec .storeOpen s) (fun t => t.store.state = .opening ∧ t.store.openNew = false) ∧
        Answers (exec .storeOpenNew s) (fun t => t.store.state = .opening ∧ t.store.openNew = true)) ∧
      (s.store.mapOk = false → Answers (exec .storeOpen s) (fun t => t.store.state = .closed ∧ t.store.code = 0x48) ∧
        Answers (exec .storeOpenNew s) (fun t => t.store.state = .closed ∧ t.store.code = 0x48)) ∧
      (data &&& 0xFFFFFF1000000000#64 = 0 → Answers (exec (.stMapOwner (some data)) s) fun t =>
        (aget {} t.store.map s.store.mapIndex).path = data.setWidth 36 ∧
        t.store.mapIndex = (s.store.mapIndex + 1) % 4096)) ∧
    (s.hostOk → Answers (exec (.stMapOwner none) s) fun t =>
      t.store.mapIndex = (s.store.mapIndex + 1) % 4096 ∧ t.store.map = s.store.map ∧
      t.out = s.out ++ [.barData (leOctets 8 ((aget {} s.store.map s.store.mapIndex).state.code * 2 ^ 37 +
        (aget {} s.store.map s.store.mapIndex).path.toNat))]) ∧
    (s.hostOk → s.store.state = .opened → Answers (exec .storeClose s) fun t =>
      t.store.state = .closing ∧ t.store.pins = []) ∧
    (s.store.state = .opening → s.store.unreported = [share.val] → s.store.own = some share.val →
      s.store.openNew = false → s.store.topOwed = false → s.flash.recordQueued = false →
      s.newestRecord.isSome = true → (aget {} s.store.map share).valid = true →
      verifyTop (s.store.treeKey.getD []) (aget {} s.store.map share).count (fun k => octets.getD k [])
        (topNodes (aget {} s.store.map share).count) s.store = some u →
      Answers (exec (.shareOpenComplete share (.own (some octets))) s) fun t =>
        t.store.state = .opened ∧ (aget {} t.store.map share).state = .opened) ∧
    (s.store.state ≠ .closed → s.store.unreported.contains share.val = true → s.store.own ≠ some share.val →
      let path := pathDevice (aget {} s.store.map share).path
      let fresh := s.cascade.entries.any fun kv => pathDevice kv.2.path == path && kv.2.newDevice
      Answers (exec (.shareOpenComplete share (.member st false rolledBack seq)) s) fun t =>
        (aget {} t.store.map share).state = (if fresh && !s.store.openNew then .noRecord else reportedState st) ∧
        t.store.unreported.contains share.val = false)

/-- Checkpoints: one starts with the next sequence number and takes a token, is published with the root frozen once all
is written back, is committed by the acknowledgement of its own number and of no other, and ends committed once the
record and those of the members are programmed, or abandoned at the end of TIMEOUT; the final one closes the Store,
or leaves it OPEN when abandoned (R332 to R339). The power-fail warning stops write-back and page-in until it ends
with the rails good; ROTATE starts a new epoch with the old one live, and is refused with CODE 4Eh while two are
live or the Store is not OPEN (R341, R348, R500). -/
def Obligations.Checkpoints : Prop :=
  (∀ (s : State) (data : Word64),
      let final := decide (s.store.state = .closing) && !s.anySlotOpen
      (s.hostOk → data &&& 0xFFFF0000FFFF0000#64 = 0 → Answers (exec (.ckCtrl data) s) fun t =>
        t.store.ckInterval = data.toNat % 2 ^ 16 ∧ t.store.ckTimeout = data.toNat / 2 ^ 32 % 2 ^ 16) ∧
      (s.store.live = true → s.store.intervalOver = true → Answers (exec .checkpointInterval s) fun t => t.store.ckDue = true) ∧
      (s.cascade.master = true → s.store.live = true → s.store.ckPhase = .idle → s.allTokens = true → s.store.powerFail = false →
        (s.store.ckDue = true ∨ s.checkpointWanted = true ∨ final = true) →
        Answers (exec .checkpointStart s) fun t => t.store.ckPhase = .preparing ∧
          t.store.ckSeq = s.store.lastSeq + 1 ∧ t.store.lastSeq = s.store.lastSeq + 1 ∧ t.store.ckDue = false ∧
          t.store.ckIsFinal = final ∧ (s.store.own ≠ none → t.store.tokens + 1 = s.store.tokens)) ∧
      (s.store.ckPhase = .preparing → s.store.clean = true → s.store.ckOwners = [] → s.store.powerFail = false →
        (s.store.ckIsFinal = true → s.anySlotOpen = false) → (s.ownShare.isSome = true → s.dmaReady = true) →
        Answers (exec .checkpointReady s) fun t =>
          t.store.ckPhase = .ready ∧ t.store.frozen = true ∧ t.store.snapshot = some s.store.root) ∧
      (s.hostOk → data &&& 0xFFFFFFFF00000000#64 = 0 → s.store.ckPhase = .ready →
        (s.store.ckSeq = data.toNat → s.store.powerFail = false →
          Answers (exec (.ckAck data) s) fun t => t.store.ckPhase = .acked) ∧
        (s.store.ckSeq ≠ data.toNat ∨ s.store.powerFail = true → exec (.ckAck data) s = .next s.owesWake)) ∧
      (s.store.ckPhase = .acked → s.store.ckMembers = [] → s.flash.recordQueued = false →
        Answers (exec .checkpointDone s) fun t => t.store.ckPhase = .idle ∧
        t.store.frozen = false ∧ t.store.ckDone = s.store.ckSeq ∧ t.store.ckFinal = s.store.ckIsFinal ∧
        (s.store.ckIsFinal = true → t.store.state = .closed ∧ t.store.frames = [] ∧ t.store.pins = [])) ∧
      (s.cascade.master = true → s.store.ckPhase = .ready → s.store.ackOverdue = true →
        Answers (exec .checkpointAbandoned s) fun t => t.store.ckPhase = .idle ∧
        t.store.frozen = false ∧ t.store.ckAbandoned = true ∧ t.store.ckDone = s.store.ckDone ∧
        (s.store.ckIsFinal = true → t.store.state = .opened ∧ t.store.code = 0x4C))) ∧
  (∀ (s : State) (seed : List Byte) (rest : List (List Byte)),
      (Answers (exec .pfwNFall s) fun t => t.store.powerFail = true ∧ t.startup.pfw = true ∧ t.mayWriteBack = false) ∧
      (s.startup.pfw = true → s.startup.rails = true → s.link.bootStage ≠ 1 → Answers (exec .pfwNResume s) fun t =>
        t.store.powerFail = false ∧ t.startup.pfw = false) ∧
      (s.hostOk → (s.store.state ≠ .opened ∨ s.sweeping = true) → Answers (exec .rotate s) fun t =>
        t.store.code = 0x4E ∧ t.store.epoch = s.store.epoch ∧ t.store.prevLive = s.store.prevLive) ∧
      (s.hostOk → s.store.state = .opened → s.sweeping = false → s.store.draw.busy = false →
        s.ownShare.map Share.state = some .opened → s.entropy.pool = seed :: rest →
        Answers (exec .rotate s) fun t => t.store.epoch = s.store.epoch + 1 ∧ t.store.prevLive = true ∧
          t.store.sweepNext = 0 ∧ t.store.sweepDone = false ∧
          afind t.store.epochKeys (s.store.epoch + 1) = some (seed.take 32) ∧ t.entropy.pool = rest))

/-! ### Cipher lanes (file 09) -/

/-- A GO that passes the checks of R381 with a cached key starts its operation, whatever the mode: the lane holds LN_GO
as written, its key, the payload length and STATUS 0. A GO to a busy lane is refused with 67h and one with a bad
field with 65h, and the operation that runs goes on. LN_FLUSH empties an idle lane's cache and is owed by a busy
one (R358, R360, R361, R367, R381). The end of a lane operation whose pages are resident and whose key is at hand:
its output stands in its D-space destination, STATUS, OCTETS and TAG are those of the computation, the LANE event
is latched, and an operation that fails authentication writes nothing (R359, R361, R371, R374). -/
def Obligations.LaneCommands : Prop :=
  (∀ (s : State) (h : HandId) (go : LaneGo) (l n : Nat) (k : List Byte), (s.hand h).laneHeld = true →
      (s.hand h).lane = some l →
      let r := (s.lane l).regs
      let ready (mode : Nat) (dec : Bool) : Prop :=
        let w := goWord go mode dec
        r.op = none ∧ goFieldsOk w r.key = true ∧ goPayload w r.len.toNat = some n ∧ goLengthOk w n = true ∧
          (∀ p, goHeld w n = some p → p ≤ 2 ^ 20 ∧ (p + 4095) / 4096 ≤ (s.hand h).rbGranules) ∧
          s.goRange h w r n = (true, s) ∧
          (∀ e x d, s.errandOf h = some (e, x) → s.verbOf h = some d → x.laneBytes + goInput w n r.aad.toNat ≤ d.laneBytes) ∧
          s.blobMissing h r.key = none ∧ (s.laneKey h l w r.key ((s.hand h).st.getLsbD 35)).1 = .key k
      let begun (mode : Nat) (dec : Bool) (t : State) : Prop :=
        (t.lane l).regs.status = 0 ∧ (t.lane l).regs.octets = 0 ∧
          ∃ o, (t.lane l).regs.op = some o ∧ o.go = goWord go mode dec ∧ o.len = n ∧ o.key = k ∧ o.hand = h.val ∧
            o.src = r.src.toNat ∧ o.dst = r.dst.toNat
      let refuses (i : Instr) (mode : Nat) (dec : Bool) : Prop :=
        (r.op ≠ none → Answers (exec i s) fun t => (t.lane l).regs.op = r.op ∧ (t.lane l).regs.status = 0x67 ∧
          (t.hand h).laneEv = some (laneWord 0x67 0)) ∧
        (r.op = none → goFieldsOk (goWord go mode dec) r.key = false → Answers (exec i s) fun t =>
          (t.lane l).regs.op = none ∧ (t.lane l).regs.status = 0x65 ∧ (t.hand h).laneEv = some (laneWord 0x65 0))
      (s.permits h 0x2005 true 0 →
        (ready 0 false → Answers (exec (.ecbEncrypt h go) s) (begun 0 false)) ∧
        (ready 0 true → Answers (exec (.ecbDecrypt h go) s) (begun 0 true)) ∧
        (ready 1 false → Answers (exec (.cbcEncrypt h go) s) (begun 1 false)) ∧
        (ready 1 true → Answers (exec (.cbcDecrypt h go) s) (begun 1 true)) ∧
        (ready 2 false → Answers (exec (.ctrEncrypt h go) s) (begun 2 false)) ∧
        (ready 2 true → Answers (exec (.ctrDecrypt h go) s) (begun 2 true)) ∧
        (ready 3 false → Answers (exec (.gcmEncrypt h go) s) (begun 3 false)) ∧
        (ready 3 true → Answers (exec (.gcmDecrypt h go) s) (begun 3 true)) ∧
        (ready 4 false → Answers (exec (.ccmEncrypt h go) s) (begun 4 false)) ∧
        (ready 4 true → Answers (exec (.ccmDecrypt h go) s) (begun 4 true)) ∧
        (ready 5 false → Answers (exec (.cmacGenerate h go) s) (begun 5 false)) ∧
        (ready 5 true → Answers (exec (.cmacVerify h go) s) (begun 5 true)) ∧
        (ready 6 false → Answers (exec (.xtsEncrypt h go) s) (begun 6 false)) ∧
        (ready 6 true → Answers (exec (.xtsDecrypt h go) s) (begun 6 true)) ∧
        (ready 7 false → Answers (exec (.kwWrap h go) s) (begun 7 false)) ∧
        (ready 7 true → Answers (exec (.kwUnwrap h go) s) (begun 7 true)) ∧
        (ready 8 false → Answers (exec (.kwpWrap h go) s) (begun 8 false)) ∧
        (ready 8 true → Answers (exec (.kwpUnwrap h go) s) (begun 8 true)) ∧
        refuses (.ecbEncrypt h go) 0 false ∧ refuses (.ecbDecrypt h go) 0 true ∧
        refuses (.cbcEncrypt h go) 1 false ∧ refuses (.cbcDecrypt h go) 1 true ∧
        refuses (.ctrEncrypt h go) 2 false ∧ refuses (.ctrDecrypt h go) 2 true ∧
        refuses (.gcmEncrypt h go) 3 false ∧ refuses (.gcmDecrypt h go) 3 true ∧
        refuses (.ccmEncrypt h go) 4 false ∧ refuses (.ccmDecrypt h go) 4 true ∧
        refuses (.cmacGenerate h go) 5 false ∧ refuses (.cmacVerify h go) 5 true ∧
        refuses (.xtsEncrypt h go) 6 false ∧ refuses (.xtsDecrypt h go) 6 true ∧
        refuses (.kwWrap h go) 7 false ∧ refuses (.kwUnwrap h go) 7 true ∧
        refuses (.kwpWrap h go) 8 false ∧ refuses (.kwpUnwrap h go) 8 true) ∧
      (s.permits h 0x2007 true 0 →
        (r.op = none → Answers (exec (.lnFlush h) s) fun t => (t.lane l).cache = []) ∧
        (r.op ≠ none → Answers (exec (.lnFlush h) s) fun t => (t.lane l).flushOwed = true ∧ (t.lane l).regs = r))) ∧
  (∀ (s : State) (lane : Fin 16) (o : LaneOp) (source : List Byte) (readOk writeOk : Bool),
      (s.lane lane).regs.op = some o → o.stopped = false → o.keyDue = false →
      s.laneMapped o = true → s.laneResident o = true → (o.through = true → s.dmaReady = true) →
      (goSrc o.go ≠ 0 → readOk = true) → (s.hand o.hand).laneReleasing = false →
      let src := padTo (goInput o.go o.len o.aad) (s.laneSource o source)
      let r := laneCompute o src
      let u := s.laneAsk lane o
      (r.status = 0 → goDst o.go = 0 → s.laneSpoilt o = false →
        exec (.laneOpEnd lane source readOk writeOk) s =
          .next ((u.writeRun o.hand o.dst (packIn (packOf (goPack o.go)) r.out)).laneFinish lane o r r.out.length) ∧
        Answers (exec (.laneOpEnd lane source readOk writeOk) s) fun t => (t.lane lane).regs.op = none ∧
          (t.lane lane).regs.status = 0 ∧ (t.lane lane).regs.octets = r.out.length ∧
          (t.lane lane).regs.tag = tagRegs r.tag) ∧
      (r.status ≠ 0 → exec (.laneOpEnd lane source readOk writeOk) s = .next (u.laneFinish lane o r 0) ∧
        Answers (exec (.laneOpEnd lane source readOk writeOk) s) fun t => (t.lane lane).regs.op = none ∧
          (t.lane lane).regs.status = BitVec.ofNat 8 r.status ∧ (t.lane lane).regs.octets = 0))

/-! ### PK slices (file 10) -/

/-- A command that passes the checks of R404 or R393 starts on the idle slice of its Hand, a MAC command and PK_MCTL in
MAC mode, a SEQUENCER operation in SEQUENCER mode with microcode in force; in the wrong mode it is refused with
82h. A PK_MCTL that passes its checks starts the load of A. PK_OPDATA reads or writes the word at PK_OPADDR and
moves on; a microcode load runs from MAC mode at WS (R388, R390, R393, R397, R404, R407). The end of a slice
command: RUN adds A times its digits to ACC and ACCADD its digits, modulo 2^1728 with OVF for the carry, ACCOUT
writes out the low digits and shifts, ACCCLR clears; the load a PK_MCTL started leaves its digits in A; a SEQUENCER
operation with its octets at hand puts its output at OUT_IDX with STATUS 0, or only a STATUS when it fails (R389,
R390, R392, R393, R399, R402, R405). -/
def Obligations.SliceCommands : Prop :=
  (∀ (s : State) (h : HandId) (c : PkFlags) (l : Nat) (data : Word) (len : BitVec 6) (idx : BitVec 13) (key : Option KeyObj)
      (slot : Option Nat), (s.hand h).sliceHeld = true → (s.hand h).slice = some l → (s.slice l).regs.op = none →
      let k := s.slice l
      let within (pset op n : Nat) : Prop := ∀ p, s.pkRoom h pset op = some p → n ≤ p.1 + p.2
      let sequencer (i : Instr) (op : Nat) : Prop :=
        let w := pkWord c op
        (k.seqMode = true → s.ucode.state = 1 → cmdOk w = true → s.cmdRangeOk l w = true → within (cmdPset w) (cmdOp w) 1 →
          s.cmdKey h l w = .ok key → (cmdRandom w = 0 ∨ (s.hand h).drbg ≠ none) →
          (if cmdMakesKey w then slot ≠ none ∧ s.newSlot (!(s.hand h).st.getLsbD 35) = slot else slot = none) →
          Answers (exec i s) fun t => ∃ o, (t.slice l).regs.op = some o ∧ o.cmd = w ∧ o.key = key ∧ o.slot = slot ∧
            o.inIdx = k.regs.inp.toNat ∧ o.outIdx = k.regs.outp.toNat) ∧
        (k.seqMode = false → Answers (exec i s) fun t => (t.slice l).regs.op = none ∧ (t.slice l).regs.status = 0x82)
      let mac (i : Instr) (w : Word) : Prop :=
        (k.seqMode = false → mgoOk w = true → mgoIdx w + mgoLen w ≤ 8192 → within 0x7F 0 (mgoCycles w) →
          Answers (exec i s) fun t => ∃ o, (t.slice l).regs.op = some o ∧ o.mgo = some w) ∧
        (k.seqMode = true → Answers (exec i s) fun t => (t.slice l).regs.op = none ∧ (t.slice l).regs.status = 0x82)
      (s.permits h 0x3000 true 0 → sequencer (.keygen h c) 1 ∧ sequencer (.sign h c) 2 ∧ sequencer (.verify h c) 3 ∧
        sequencer (.agree h c) 4 ∧ sequencer (.encaps h c) 5 ∧ sequencer (.decaps h c) 6) ∧
      (s.permits h 0x3009 true 0 → mac (.run h len idx) (mgoWord 1 len idx) ∧ mac (.accout h len idx) (mgoWord 2 len idx) ∧
        mac (.accadd h len idx) (mgoWord 3 len idx) ∧ mac (.accclr h) (mgoWord 4 0 0)) ∧
      (s.permits h 0x3008 true 0 → k.seqMode = false → 1 ≤ mctlLen data → mctlLen data ≤ 16 → wfield data 33 32 ≤ 1 →
        mctlIdx data + mctlLen data ≤ 8192 → within 0x7F 0 (mctlLen data + 2) → Answers (exec (.pkMctl h data) s) fun t =>
          (t.slice l).regs.mctl = data &&& 0x3FBFFFFFF#36 ∧ ∃ o, (t.slice l).regs.op = some o ∧ o.load = some data) ∧
      (s.permits h 0x3007 true 0 → Answers (exec (.pkOpdata h (some data)) s) fun t =>
        aget 0 (t.slice l).regs.opmem k.regs.opaddr = data ∧ (t.slice l).regs.opaddr = (k.regs.opaddr + 1) % 8192 ∧
        ∀ j, j ≠ k.regs.opaddr → aget 0 (t.slice l).regs.opmem j = aget 0 k.regs.opmem j) ∧
      (s.permits h 0x3007 false 0 → Answers (exec (.pkOpdata h none) s) fun t =>
        (t.slice l).regs = { k.regs with opaddr := (k.regs.opaddr + 1) % 8192 }) ∧
      (s.permits h 0x300A true 3 → k.seqMode = false → s.ucode.state = 0 → Answers (exec (.pkUcodeLoad h) s) fun t =>
        t.ucode.state = 2 ∧ ∃ o, (t.slice l).regs.op = some o ∧ o.ucode = true)) ∧
  (∀ (s : State) (slice : Fin 16) (o : SliceOp) (checkOk : Bool), (s.slice slice).regs.op = some o → o.stopped = false →
      (s.hand o.hand).sliceReleasing = false →
      let r := (s.slice slice).regs
      let len := if hasLen o.cmd then wfield (aget 0 r.opmem o.inIdx) 10 0 else 0
      let fields := inFields o.cmd (min len 1024)
      let p := pkCompute o.cmd o.key o.random len (splitFields fields (agetRun 0 r.opmem o.inIdx (blockWords fields)))
      (∀ w, o.mgo = some w → Answers (exec (.sliceOpEnd slice checkOk) s) fun t =>
        let q := (t.slice slice).regs
        q.op = none ∧ q.status = 0 ∧
        (mgoOp w = 1 → q.acc = (r.acc + r.a * digitsAt r.opmem (mgoIdx w) (mgoLen w)) % 2 ^ 1728 ∧
          (q.ovf = true ↔ r.ovf = true ∨ 2 ^ 1728 ≤ r.acc + r.a * digitsAt r.opmem (mgoIdx w) (mgoLen w)) ∧
          q.opmem = r.opmem) ∧
        (mgoOp w = 2 → q.acc = r.acc / 2 ^ (36 * mgoLen w) ∧
          ∀ j, j < mgoLen w → aget 0 q.opmem (mgoIdx w + j) = BitVec.ofNat 36 (r.acc / 2 ^ (36 * j))) ∧
        (mgoOp w = 3 → q.acc = (r.acc + digitsAt r.opmem (mgoIdx w) (mgoLen w)) % 2 ^ 1728 ∧ q.opmem = r.opmem) ∧
        (mgoOp w = 4 → q.acc = 0 ∧ q.opmem = r.opmem)) ∧
      (∀ w, o.mgo = none → o.load = some w → Answers (exec (.sliceOpEnd slice checkOk) s) fun t =>
        (t.slice slice).regs = { r with op := none, a := digitsAt r.opmem (mctlIdx w) (mctlLen w) }) ∧
      (o.mgo = none → o.load = none → o.ucode = false → o.randomDue = 0 →
        (p.status = 0 → (checkOk = true ∨ 2 < cmdOp o.cmd) → Answers (exec (.sliceOpEnd slice checkOk) s) fun t =>
          (t.slice slice).regs.op = none ∧ (t.slice slice).regs.status = 0 ∧
          (t.slice slice).regs.opmem = asetRun 0 r.opmem o.outIdx (p.out.flatMap (packIn .loose))) ∧
        (p.status ≠ 0 → Answers (exec (.sliceOpEnd slice checkOk) s) fun t =>
          (t.slice slice).regs.op = none ∧ (t.slice slice).regs.status = BitVec.ofNat 8 p.status ∧
          (t.slice slice).regs.result = 0 ∧ (t.slice slice).regs.opmem = r.opmem)))

/-! ### The Key Vault (file 11) -/

/-- Vault commands on resident keys: each that passes its checks runs with what the Commands table gives it; INFO of a
handle that names no key ends at once with A0h; and no command but DERIVE's encodings runs while no key-encryption
key is formed (A6h) (R420, R422, R429 to R431, R437). The end of a Vault command shows STATUS and VALUE in
VLT_RESULT and INFO's words in the arguments; LWK_ROTATE makes the next lane wrap key current and every lane
forgets its keys; BBKR_NEW clears TAMPERED and leaves HOLD (R367, R418, R427, R436, R446, R613). -/
def Obligations.VaultKeys : Prop :=
  (∀ (s : State) (h : HandId) (root : BitVec 28) (n m : Nat) (k : KeyObj) (lwk : List Byte),
      (s.hand h).vault.running = none → (∀ kv, kv ∈ s.hands → ∀ r, kv.2.vault.running = some r → r.due = false) →
      let v := (s.hand h).vault
      let runs (i : Instr) (P : VaultRun → State → Prop) : Prop := Answers (exec i s) fun t =>
        ∃ q, (t.hand h).vault.running = some q ∧ P q t
      (s.permits h 0x400C true 0 →
        (s.noKek = true → Answers (exec (.info h) s) fun t => wfield (t.hand h).vault.result 35 28 = 0xA6) ∧
        (s.noKek = false → s.vault.lookup v.arg0 = none →
          Answers (exec (.info h) s) fun t => wfield (t.hand h).vault.result 35 28 = 0xA0 ∧
            (t.hand h).vault.running = none) ∧
        (s.noKek = false → s.vaultKey h v.arg0 = .ok (n, k) →
          runs (.info h) (fun q _ => q.op = 1 ∧ q.info = some (k.attr, k.kcv)) ∧
          runs (.destroy h) (fun q t => q.op = 3 ∧ afind t.vault.slots n = none ∧ t.vault.lookup v.arg0 = none) ∧
          runs (.lockexp h) (fun q t => q.op = 4 ∧ ∃ x, afind t.vault.slots n = some x ∧
            x = { k with attr := x.attr } ∧ attrExportable x.attr = false ∧ attrType x.attr = attrType k.attr) ∧
          (afind s.vault.lwks s.vault.lwkCur = some lwk → v.arg1.toNat ≤ 7 → attrBulk k.attr = true →
            runs (.issue h) fun q _ => q.op = 9 ∧
              q.stage = some (v.arg1.toNat, laneBlob lwk s.vault.lwkCur k.attr k.material))) ∧
        (s.noKek = false → attrFieldsOk v.arg0 = true → 0x10 ≤ attrType v.arg0 → attrType v.arg0 ≤ 0x14 →
          typeAllows v.arg0 = true → mayCreate v.arg0 (s.hand h).level = true → (s.hand h).drbg ≠ none →
          s.newSlot (attrCommon v.arg0) = some m →
          runs (.generate h) fun q _ => q.op = 2 ∧ q.keep = some m ∧ q.attr = withOrigin v.arg0 false) ∧
        (s.noKek = false → (s.hand h).level = 3 → runs (.lwkRotate h) (fun q _ => q.op = 14) ∧
          (s.vault.mode = .hold → runs (.bbkrNew h) fun q _ => q.op = 15))) ∧
      (s.permits h 0x4003 true 0 → s.noKek = false → typeKnown (attrType v.dspec) = true → attrWorld v.dspec ≠ 0 →
        s.vaultKey h (root.setWidth 36) = .ok (n, k) → afind s.vault.lwks s.vault.lwkCur = some lwk →
        deriveOk k.attr v.dspec (s.hand h).level = true →
        let derived := derivedKey k v.label v.ctx v.dspec
        let attr := withOrigin (dspecAttr v.dspec) (attrImported k.attr)
        (v.dspec.getLsbD 15 = true → s.newSlot (attrCommon attr) = some m → runs (.derive h root) fun q t =>
          q.op = 0 ∧ q.created = some m ∧ (afind t.vault.slots m).map KeyObj.material = some derived) ∧
        (v.dspec.getLsbD 15 = false → runs (.derive h root) fun q _ =>
          q.op = 0 ∧ q.stage = some (wfield v.dspec 18 16, laneBlob lwk s.vault.lwkCur attr derived)))) ∧
  (∀ (s : State) (h : HandId) (r : VaultRun) (seed : List Byte) (rest : List (List Byte)),
      (s.hand h).vault.running = some r → r.due = false → r.queued = false → r.status = 0 → r.writes = (0, []) → r.stage = none →
      (r.op ∉ [2, 10, 11, 12, 14, 15] → Answers (exec (.vaultCommandEnd h) s) fun t =>
        (t.hand h).vault.running = none ∧ (t.hand h).vault.result = BitVec.ofNat 36 (r.value % 2 ^ 28) ∧
        (∀ attr kcv, r.info = some (attr, kcv) → (t.hand h).vault.arg0 = attr ∧ (t.hand h).vault.arg1 = kcv)) ∧
      (r.op = 14 → s.entropy.pool = seed :: rest → Answers (exec (.vaultCommandEnd h) s) fun t =>
        t.vault.lwkCur = (s.vault.lwkCur + 1) % 16 ∧ afind t.vault.lwks t.vault.lwkCur = some (seed.take 32) ∧
        (∀ l, (t.lane l).cache = []) ∧ (t.hand h).vault.running = none) ∧
      (r.op = 15 → s.entropy.pool = seed :: rest → Answers (exec (.vaultCommandEnd h) s) fun t =>
        t.watch.tampered = false ∧ t.watch.bbkr = some (seed.take 32) ∧ t.vault.mode ≠ .hold ∧
        t.vault.ckek ≠ none ∧ (t.hand h).vault.running = none) ∧
      (r.op ∈ [14, 15] → s.entropy.pool = [] → s.mayWait = true → Answers (exec (.vaultCommandEnd h) s) fun t =>
        (t.hand h).vault.running = some r))

/-- Vault commands over D-space, at WS where the table asks it, with their runs allowed and resident: each runs with the
words it will write, or with the key it has made (R428, R438 to R444). -/
def Obligations.VaultObjectCommands : Prop :=
  ∀ (s : State) (h : HandId) (n m : Nat) (k w : KeyObj) (kek tree record : List Byte) (bs : List Byte),
    (s.hand h).vault.running = none → (∀ kv, kv ∈ s.hands → ∀ r, kv.2.vault.running = some r → r.due = false) →
    s.permits h 0x400C true 0 → s.noKek = false →
    let v := (s.hand h).vault
    let room (addr words : Nat) (write : Bool) : Prop := s.vaultRange h [(addr, words, write)] = (true, s)
    let here (addr words : Nat) : Prop := room addr words false ∧ s.runMissing h addr words = none
    let runs (i : Instr) (P : VaultRun → State → Prop) : Prop := Answers (exec i s) fun t =>
      ∃ q, (t.hand h).vault.running = some q ∧ P q t
    let ws := (s.hand h).level = 3
    (ws → s.vault.ckek = some kek → s.vault.lookup v.arg0 = some (n, k) → room v.arg1.toNat (objectWords k) true →
      worldAllows k.attr (s.handWarden h) = true →
      runs (.save h) fun q _ => q.op = 5 ∧ q.value = objectWords k ∧ q.writes = (v.arg1.toNat, backingObject kek k)) ∧
    (ws → v.arg1.toNat ≤ 4096 → here v.arg0.toNat 4 →
      let len := 4 + (wfield ((s.readRun h v.arg0.toNat 1).getD 0 0) 11 0 + 3) / 4
      let object := s.readRun h v.arg0.toNat len
      here v.arg0.toNat len → s.vault.kekOf (object.getD 0 0) = some kek →
      s.loadSlot v.arg1.toNat (attrCommon (object.getD 1 0)) = some m → openObject kek object = some k →
      runs (.vaultLoad h) fun q t => q.op = 6 ∧ q.created = some m ∧ afind t.vault.slots m = some k) ∧
    (s.vault.lookup v.arg0 = some (n, k) → s.vault.lookup v.arg1 = some (m, w) →
      room v.arg2.toNat (kwpLen k.stored.length / 4) true → worldAllows k.attr (s.handWarden h) = true →
      worldAllows w.attr (s.handWarden h) = true → isWrapKey w.attr = true → attrExportable k.attr = true →
      runs (.exportKey h) fun q _ => q.op = 7 ∧
        q.writes = (v.arg2.toNat, packIn .loose (kwpSeal w.material k.stored))) ∧
    (attrFieldsOk v.arg2 = true → v.arg0 = 0 → attrPurpose v.arg2 = 6 → here v.arg1.toNat ((v.arg3.toNat + 3) / 4) →
      typeAllows v.arg2 = true → mayCreate v.arg2 (s.hand h).level = true → s.newSlot (attrCommon v.arg2) = some m →
      makeKey (withOrigin v.arg2 true)
        (packOut .loose (s.readRun h v.arg1.toNat ((v.arg3.toNat + 3) / 4)) v.arg3.toNat) = some k →
      s.newSlot (attrCommon k.attr) = some m →
      runs (.importKey h) fun q t => q.op = 8 ∧ q.created = some m ∧ afind t.vault.slots m = some k) ∧
    (s.vault.dak ≠ none → s.vaultRange h [(v.arg1.toNat, 8, false), (v.arg2.toNat, (0x74 + k.pub.length + 99) / 4, true)] =
        (true, s) → s.runMissing h v.arg1.toNat 8 = none → s.vaultKey h v.arg0 = .ok (n, k) →
      (s.hand h).sliceHeld = true → (s.hand h).sliceMac = false → (s.hand h).drbg ≠ none →
      (∀ p, s.pkRoom h 2 2 = some p → 1 ≤ p.1 + p.2) →
      runs (.attest h) fun q _ => q.op = 10 ∧ q.key = some k ∧
        q.data = packOut .loose (s.readRun h v.arg1.toNat 8) 32) ∧
    (ws → s.vault.dak ≠ none → s.vaultRange h [(v.arg0.toNat, 12, false), (v.arg1.toNat, 24, true)] = (true, s) →
      s.runMissing h v.arg0.toNat 12 = none → runs (.spdmSign h) fun q _ => q.op = 11 ∧
        q.data = packOut .loose (s.readRun h v.arg0.toNat 12) 48) ∧
    (ws → wfield v.arg1 35 8 = 0 → 2 ≤ wfield v.arg1 3 0 → wfield v.arg1 3 0 ≤ wfield v.arg1 7 4 →
      wfield v.arg1 7 4 ≤ 8 → room v.arg2.toNat (10 * wfield v.arg1 7 4) true → s.vaultKey h v.arg0 = .ok (n, k) →
      isCustody k.attr = true → attrType k.attr = 0x12 → attrExportable k.attr = true →
      runs (.split h) fun q _ => q.op = 12 ∧ q.key = some k ∧ q.value = 10 * wfield v.arg1 7 4) ∧
    (ws → 2 ≤ v.arg1.toNat → v.arg1.toNat ≤ 8 → here v.arg0.toNat (10 * v.arg1.toNat) → s.newSlot false ≠ none →
      rebuildKey v.arg1.toNat (s.readRun h v.arg0.toNat (10 * v.arg1.toNat)) = some k →
      s.newSlot (attrCommon k.attr) = some m →
      runs (.combine h) fun q t => q.op = 13 ∧ q.created = some m ∧ afind t.vault.slots m = some k) ∧
    (ws → s.store.treeKey = some tree → s.vault.recordKey = some record → s.vaultKey h v.arg0 = .ok (n, k) →
      isCustody k.attr = true →
      let plain := escrowOctets tree record s.store.epochKeys
      room v.arg1.toNat (kwpLen plain.length / 4) true → runs (.storeEscrow h) fun q _ => q.op = 16 ∧
        q.writes = (v.arg1.toNat, packIn .loose (kwpSeal k.material plain))) ∧
    (ws → s.vault.ckek ≠ none → s.vaultKey h v.arg0 = .ok (n, k) → isCustody k.attr = true → s.store.state = .closed →
      here v.arg1.toNat 28 → (s.vaultRange h [(v.arg1.toNat, 36, false)]).1 = false →
      kwpOpen k.material (packOut .loose (s.readRun h v.arg1.toNat 28) 112) = some bs → bs.length = 100 →
      runs (.storeRestore h) fun q t => q.op = 17 ∧ t.store.treeKey = some (bs.take 32) ∧
        t.vault.recordKey = some ((bs.drop 32).take 32))

/-! ### Entropy (file 12) -/

/-- Sources, seeds and instances: the start-up test makes a source HEALTHY or FAILED, a continuous test fails a HEALTHY one,
a retry turns OFF a source that failed fewer than three times, and the test pattern comes and goes in FACTORY; a seed
joins the pool; an instance becomes due at 2^20 calls and stalls at 2^32; DR_OUT gives four octets a read; ENT_RAW
collects samples only in the states that allow it (R450 to R453, R458, R459, R461, R465 to R469). -/
def Obligations.EntropyCommands : Prop :=
  ∀ (s : State) (h : HandId) (source : Fin 4) (samples : BitVec 1024) (test : HealthTest) (raw : BitVec 1536) (i : Fin 1024)
    (sources failed : BitVec 4) (bits : BitVec 32) (katOk : Bool),
    let x := s.source source
    (x.state = .off → s.startup.inReset = false → s.link.bootStage.toNat < 5 ∨ s.entropy.katOk = true →
      s.store.draw = .none → Answers (exec (.sourceStartupTest source samples) s) fun t =>
      (t.source source).state = (if startupTestOk samples then .healthy else .failed) ∧
      (∀ j, j ≠ source.val → t.source j = s.source j)) ∧
    (x.state = .off → 5 ≤ s.link.bootStage.toNat → s.entropy.katOk = false →
      exec (.sourceStartupTest source samples) s = .next s) ∧
    (x.state = .healthy → Answers (exec (.entropySourceFail source test) s) fun t =>
      (t.source source).state = .failed ∧ (t.source source).fails = min 15 (x.fails + 1)) ∧
    (s.permits h 0x5009 true 3 → Answers (exec (.retry h sources) s) (fun t =>
        t.source source = (if sources.getLsbD source then x.retry else x)) ∧
      Answers (exec (.selftest h) s) fun t => t.entropy.selftest = true) ∧
    (s.entropy.selftest = true → Answers (exec (.healthSelftestEnd failed katOk) s) fun t =>
      t.entropy.selftest = false ∧ (failed.getLsbD source = true → x.state = .healthy → (t.source source).state = .failed) ∧
      (s.store.draw = .none → failed.getLsbD source = false → t.source source = x)) ∧
    (s.anyHealthy = true → s.entropy.selftest = false → s.entropy.pool.length < 64 → s.store.draw = .none →
      s.vault.lwkDraw = none → s.life.nonceOwed = false → s.nextConsumer = none →
      Answers (exec (.seedProduced raw) s) fun t => t.entropy.pool = s.entropy.pool ++ [conditionSeed raw]) ∧
    ((s.drbg i).live = true → s.entropy.pool = [] →
      (2 ^ 20 ≤ (s.drbg i).calls → Answers (exec (.instanceDue i) s) fun t => (t.drbg i).due = true) ∧
      (2 ^ 32 ≤ (s.drbg i).calls → (s.drbg i).stalled = false →
        Answers (exec (.entropyStall i) s) fun t => (t.drbg i).stalled = true)) ∧
    (s.permits h 0x5000 false 0 → (s.hand h).drbg = some i.val →
      ((s.hand h).drbgBuf ≠ [] → Answers (exec (.drOut h) s) fun t =>
        (t.hand h).drbgBuf = (s.hand h).drbgBuf.drop 4 ∧ t.drbg i = s.drbg i) ∧
      ((s.hand h).drbgBuf = [] → (s.drbg i).live = true → (s.drbg i).stalled = false → (s.drbg i).calls + 1 < 2 ^ 32 →
        Answers (exec (.drOut h) s) fun t => (t.hand h).drbgBuf = (s.drbg i).generate.1.drop 4 ∧
          (t.drbg i).calls = (s.drbg i).calls + 1)) ∧
    (s.permits h 0x5018 false 3 →
      (s.life.rawOk = false → exec (.entRaw h bits) s = .next s) ∧
      (s.life.rawOk = true → (s.source s.entropy.rawsel).state ≠ .testPattern →
        s.store.draw = .none → Answers (exec (.entRaw h bits) s) fun t => t.entropy.raw = some bits)) ∧
    (s.permits h 0x5019 true 3 → s.life.factory = true → s.store.draw = .none →
      Answers (exec (.patternSet h sources) s) (fun t => t.entropy.pattern = s.entropy.pattern ||| sources ∧
        (sources.getLsbD source = true → s.entropy.pattern.getLsbD source = false →
          (t.source source).state = .testPattern ∧ (t.source source).lfsr = 1)) ∧
      Answers (exec (.patternClear h sources) s) fun t => t.entropy.pattern = s.entropy.pattern &&& ~~~sources ∧
        (sources.getLsbD source = true → s.entropy.pattern.getLsbD source = true → (t.source source).state = .off) ∧
        (t.entropy.pattern = 0 → s.entropy.pattern ≠ 0 → t.entropy.pool = []))

/-! ### Flash and the Parish Register (files 14, 19) -/

/-- Flash commands: one that R493 lets through runs in the bank of FL_ADDR, a refused one sets DONE with its code; when
its turn in the bank ends, a verified program puts its 16 words in the line, a verified erase blanks its sector, a blank
check answers, a failed verify answers C4h; an internal requester's program puts its words in its line, and its failed
erase marks the sector; FL_DATA reads and moves on, or waits for a program; a suspended erase resumes; write protection
comes off only while WP_LOCK is 0 (R490 to R497, R499 to R501; log 23). -/
def Obligations.FlashCommands : Prop :=
  ∀ (s : State) (h : HandId) (bank : Fin 2) (o : FlashOp) (verifyOk : Bool) (k : Fin 9) (data : Word),
    let f := s.flash
    let b := bankOf f.addr
    let own := bank.val == 1
    let started (op : Nat) (t : State) : Prop :=
      ∃ x, (t.flash.bank b).op = some x ∧ x.op = op ∧ x.addr = f.addr ∧ x.words = agetRun 0 f.buf 0 16
    let refused (c : Nat) (t : State) : Prop :=
      (t.flash.bank b).done = true ∧ (t.flash.bank b).status = BitVec.ofNat 8 c ∧ t.flash.words = f.words
    (s.permits h 32770 true 3 →
      (s.flashRefusal 1 = none → Answers (exec (.program h) s) (started 1)) ∧
      (s.flashRefusal 2 = none → Answers (exec (.erase h) s) (started 2)) ∧
      (s.flashRefusal 3 = none → Answers (exec (.blankCheck h) s) (started 3)) ∧
      (∀ c, s.flashRefusal 1 = some c → Answers (exec (.program h) s) (refused c)) ∧
      (∀ c, s.flashRefusal 2 = some c → Answers (exec (.erase h) s) (refused c)) ∧
      (∀ c, s.flashRefusal 3 = some c → Answers (exec (.blankCheck h) s) (refused c))) ∧
    (f.turn own = some (false, o) → (o.op = 2 → (f.bank own).susp = false ∧ s.eraseBegun own o = true) →
      (Answers (exec (.flashOpEnd bank verifyOk) s) fun t => (t.flash.bank own).op = none ∧ (t.flash.bank own).done = true) ∧
      (o.op = 1 → verifyOk = true → o.words.length = 16 → Answers (exec (.flashOpEnd bank verifyOk) s) fun t =>
        (t.flash.bank own).status = 0 ∧ (∀ i, i < 16 → aget erasedWord t.flash.words (o.addr + i) = o.words.getD i 0) ∧
        ∀ a, (a < o.addr ∨ o.addr + 16 ≤ a) → aget erasedWord t.flash.words a = aget erasedWord f.words a) ∧
      (o.op = 2 → verifyOk = true → Answers (exec (.flashOpEnd bank verifyOk) s) fun t =>
        (t.flash.bank own).status = 0 ∧ ∀ a, sectorBase (sectorOf o.addr) ≤ a →
          a < sectorBase (sectorOf o.addr) + sectorSize (sectorOf o.addr) → aget erasedWord t.flash.words a = erasedWord) ∧
      (o.op = 1 ∨ o.op = 2 → verifyOk = false → Answers (exec (.flashOpEnd bank verifyOk) s) fun t =>
        (t.flash.bank own).status = 0xC4)) ∧
    (f.turn own = some (true, o) →
      (o.op = 1 → verifyOk = true → sectorOf o.addr < 8 → Answers (exec (.flashOpEnd bank verifyOk) s) fun t =>
        t.flash.inner = f.inner.erase o ∧
        ∀ i, i < o.words.length → aget erasedWord t.flash.words (o.addr + i) = o.words.getD i 0) ∧
      (o.op = 2 → (f.bank own).susp = false → s.eraseBegun own o = true → verifyOk = false →
        Answers (exec (.flashOpEnd bank verifyOk) s) fun t => sectorOf o.addr ∈ t.flash.marked)) ∧
    (s.permits h 32769 false 3 →
      (f.programming b = false → Answers (exec (.flData h) s) fun t => t.flash.addr = (f.addr + 1) % 2 ^ 24) ∧
      (f.programming b = true → exec (.flData h) s = .next s)) ∧
    ((f.bank own).susp = true → s.startup.pfw = false → Answers (exec (.eraseResume bank) s) fun t =>
      (t.flash.bank own).susp = false ∧ (t.flash.bank own).op = (f.bank own).op) ∧
    (s.permits h (32800 + k.val) true 3 → Answers (exec (.flWp h k data) s) fun t => ∀ j, j < wpCount k →
      (j + 32 * k.val ∈ t.flash.unprotected ↔
        data.getLsbD j = false ∧ (f.wpLock = false ∨ j + 32 * k.val ∈ f.unprotected)))

/-- Parish commands: PR_WRITE of a code within its rate and out of the archive stands in the ring at NEXT and takes the
next SEQ, and one over its rate is counted; PR_SNAP acts only in SNAPSHOT mode; the read ports move their pointers;
PR_CTRL holds its fields; the flush hands the archive's line to the flash, at the next line of P4 to P7 (R628, R631,
R633, R634, R637, R639; log 23). -/
def Obligations.ParishCommands : Prop :=
  ∀ (s : State) (h : HandId) (code : Byte) (data : Word),
    let p := s.parish
    let r := p.rateOf code.toNat
    let words := recordWords s code.toNat 3 r.supp (s.corePath (coreOf h)) [BitVec.ofNat 36 p.wdetail.toNat]
    (s.permits h 28679 true 3 → code ≠ 0xC6 → code ≠ 0xC7 →
      (r.archive = false → r.rate = 0 ∨ 10 ^ 8 ≤ r.fillNow p.now → p.next < 16384 →
        Answers (exec (.prWrite h code) s) fun t => t.parish.seq = (p.seq + 1) % 2 ^ 24 ∧ t.parish.count = p.count + 1 ∧
          ∀ i, i < 8 → aget 0 t.parish.ring ((p.next + i) % 16384) = words.getD i 0) ∧
      (r.rate ≠ 0 → r.fillNow p.now < 10 ^ 8 → Answers (exec (.prWrite h code) s) fun t =>
        t.parish.seq = p.seq ∧ t.parish.ring = p.ring ∧ (t.parish.rateOf code.toNat).supp = satInc r.supp 0xFFFF)) ∧
    (s.permits h 28680 true 3 →
      (p.snapshot = false → exec (.prSnap h code) s = .next s) ∧
      (p.snapshot = true → Answers (exec (.prSnap h code) s) fun t =>
        t.parish.seq = (p.seq + 1) % 2 ^ 24 ∧ t.parish.count = p.count + 1)) ∧
    (s.permits h 28675 false 3 → exec (.prRdata h) s =
      .next { s with parish := { p with rptr := (p.rptr + 1) % 16384 } }) ∧
    (s.hostOk → exec .phRdata s = .next { s with
      parish := { p with hptr := (p.hptr + 1) % 16384 }, out := s.out ++ [.barData (leOctets 8 (aget 0 p.ring p.hptr).toNat)] }) ∧
    (s.permits h 28673 true 3 → Answers (exec (.prCtrl h data) s) fun t => t.parish.snapshot = data.getLsbD 17 ∧
      t.parish.thresh = data.toNat % 2 ^ 16 ∧ t.parish.count = if data.getLsbD 18 then 0 else p.count) ∧
    (p.line ≠ [] → (p.archLine + 1) % 256 ≠ 1 → s.flash.marked = [] → Answers (exec .archiveFlush s) fun t =>
      t.parish.line = [] ∧ t.parish.archLine = (p.archLine + 1) % 1024 ∧
      t.flash.inner = s.flash.inner ++
        [{ op := 1, addr := archiveAddr p.archLine, words := p.line.take 16, seq := p.lineSeq }])

/-! ### Baton (file 15) -/

/-- Messages that arrive in order with a good tag on a KEYED port: the next sequence number is expected, and each has
its effect at the master or the member it is meant for; a bad tag fails the link, and a flit with a bad CRC changes
nothing (R512 to R519, R528 to R534, R543). Link states: signal detection, training, retraining and key updates
move a port as the Link states table gives; a wrongly wired link opens with CAUSE MISWIRED; 16 sendings, silence
and the loss of the upstream link fail it, and a member that loses its upstream link is no longer joined (R509,
R510, R514 to R517, R536). -/
def Obligations.Baton : Prop :=
  (∀ (s : State) (port : Fin 8) (f : FlitHead) (m : ErrandMsg) (c : CompletionMsg) (w : TunnelMsg) (path : Word) (seq n e : Nat)
      (x : Errand) (status : Byte) (data : Word) (final : Bool), (s.port port).state = .keyed →
      let next (P : State → Prop) (i : Instr) : Prop := Answers (exec i s) fun t =>
        (t.port port).rxSeq = ((s.port port).rxSeq + 1) % 1024 ∧ P t
      let master := s.cascade.master
      (f.crcOk = false → exec (.idle port f) s = .next s) ∧
      (f.crcOk = true → f.tagOk = false → Answers (exec (.idle port f) s) fun t =>
        (t.port port).state = .failed ∧ (t.port port).cause = 3) ∧
      (f.crcOk = true → f.tagOk = true →
        Answers (exec (.idle port f) s) fun t => (t.port port).state = .keyed ∧ (t.port port).rxSeq = (s.port port).rxSeq) ∧
      (f.crcOk = true → f.tagOk = true → f.seq.toNat = (s.port port).rxSeq → f.more = true →
        next (fun t => t.steward = s.steward) (.errand port f m)) ∧
      (f.crcOk = true → f.tagOk = true → f.seq.toNat = (s.port port).rxSeq → f.more = false →
        (master = true → next (fun t => ∀ p, p ∈ t.store.ckOwners ↔
          p ∈ s.store.ckOwners ∧ pathDevice p ≠ pathDevice path) (.control port f (.ready path))) ∧
        (master = false → port = 0 → s.store.live = true → s.store.ckPhase = .idle →
          next (fun t => t.store.ckPhase = .preparing ∧ t.store.ckSeq = seq ∧ t.store.ckIsFinal = final)
            (.control port f (.prepare seq final))) ∧
        (master = false → port = 0 → hopsOf m.target = hopsOf s.devicePath →
          next (fun t => t.steward.nextErrand = s.steward.nextErrand + 1 ∧ ∃ y, t.errand? s.steward.nextErrand = some y ∧
            y.src = .baton ∧ y.batonTag = some m.htag.toNat ∧ y.deadline = m.deadline) (.errand port f m)) ∧
        (master = true → port ≠ 0 → s.memberPresent c.device = true → s.link.dmaOk = true → s.cascade.held = [] →
          s.forwardedBy c.htag.toNat = some (e, x) → (c.status = 0xEA → x.running = true) →
          (completionStatus c.status.toNat = true → c.status ≠ 0xE0 → next (fun t => t.errand? e = some { x with
            phase := .ending none, status := c.status, result := c.result, execPath := c.execPath, detail := c.detail })
            (.completion port f c)) ∧
          (completionStatus c.status.toNat = false → next (fun t => t.errand? e = some { x with
            phase := .ending none, status := 0x0B, result := c.result, execPath := c.execPath
            detail := c.status.setWidth 32 }) (.completion port f c))) ∧
        (master = true → port ≠ 0 → s.memberPresent w.device = true → s.link.dmaOk = false →
          next (fun t => t.cascade.held = s.cascade.held ++ [.write w]) (.twrite port f w)) ∧
        (master = true → port ≠ 0 → s.memberPresent w.device = true → s.link.dmaOk = true → s.cascade.held = [] →
          (s.tunnelOk w w.length false = true →
            next (fun t => Out.hostRead w.address w.length ∈ t.out) (.tread port f w)) ∧
          (∀ octets, w.data = some octets → s.tunnelOk w octets.length true = true →
            next (fun t => Out.hostWrite w.address octets ∈ t.out) (.twrite port f w))) ∧
        (master = false → next (fun t => t.steward = s.steward ∧ t.store = s.store ∧ t.hands = s.hands) (.tdata port f w)) ∧
        (master = false → port = 0 → s.cascade.joined = true →
          next (fun t => t.link.slew = (s.link.tally : Int) - (n : Int) ∧ t.link.tally = s.link.tally ∧
            (t.cascade.tlock = true ↔ ((s.link.tally : Int) - (n : Int)).natAbs ≤ 10)) (.time port f n false) ∧
          (s.link.tally < n → next (fun t => t.link.slew = 0 ∧ t.link.tally = n ∧ t.cascade.tlock = true)
            (.time port f n true))) ∧
        (master = true → port ≠ 0 → s.cascade.rop ≠ none → status = 0 ∨ status = 0xE0 ∨ status = 0xE1 →
          next (fun t => t.cascade.rop = none ∧ t.cascade.rstatus = status ∧
            (s.cascade.rop = some 1 → status = 0 → t.cascade.rdata = data)) (.remote port f (.answer status data)))) ∧
      (port ≠ 0 → s.portLive port = true → (s.port port).waiting = [] → (s.port port).mid = [] → s.cascade.relaying < 9 →
        (s.port port).unacked.length < 512 →
        Answers (exec .timeInterval s) fun t => t.link = s.link ∧ t.cascade.stepOwed = false ∧
          ∃ g, Out.flit port g ∈ t.out ∧ g.type = 8 ∧ g.seq = (s.port port).txSeq ∧ g.keyed = true ∧ g.more = false ∧
            g.payload = leOctets 8 s.link.tally ++ leOctets 8 (b2n s.cascade.stepOwed))) ∧
  (∀ (s : State) (port : Fin 8) (peer : BitVec 3) (peerMaster : Bool),
      let q := s.port port
      let becomes (i : Instr) (st : LinkState) : Prop := Answers (exec i s) fun t => (t.port port).state = st
      (q.state = .down → s.cascade.portEn.getLsbD port = true → s.portsDark = false →
        becomes (.signalDetect port) .training) ∧
      (q.state = .training → becomes (.trainingTimeout port) .down ∧
        Answers (exec (.linkTrained port peer peerMaster) s) fun t => (t.port port).state = .opened ∧
          (t.port port).peer = peer.toNat ∧
          (t.port port).cause = if wiredRight port peer.toNat peerMaster then 0 else 4) ∧
      (q.state = .failed → s.cascade.portEn.getLsbD port = true → becomes (.failedRetrain port) .training) ∧
      (q.state = .keyed → 2 ^ 36 * (q.keyEpoch + 1) ≤ q.sent → Answers (exec (.keyUpdate port) s) fun t =>
        (t.port port).keyEpoch = q.keyEpoch + 1) ∧
      (q.state = .keyed → q.unacked ≠ [] →
        ((q.unacked.any fun x => decide (16 ≤ x.times)) = true →
          Answers (exec (.retransmitTimeout port) s) fun t => (t.port port).state = .failed ∧ (t.port port).cause = 2) ∧
        ((q.unacked.any fun x => decide (16 ≤ x.times)) = false →
          Answers (exec (.retransmitTimeout port) s) fun t => (t.port port).state = .keyed ∧
            (t.port port).unacked = q.unacked.map (fun x => { x with times := x.times + 1 }) ∧
            ∀ x, x ∈ q.unacked → Out.flit port x.flit ∈ t.out)) ∧
      (port ≠ 0 → (q.state = .keyed ∨ q.state = .opened) → Answers (exec (.batonSilence port) s) fun t =>
        (t.port port).state = .failed ∧ (t.port port).cause = 1) ∧
      (s.cascade.master = false → ((s.port 0).state = .keyed ∨ (s.port 0).state = .opened) →
        Answers (exec .upstreamLoss s) fun t => (t.port 0).state = .failed ∧ t.cascade.joined = false ∧ t.store.frames = []))

/-- JOIN: an offer that is heard makes an entry JOINING and waits; the engine's checks pass it to the decision or refuse it
with E2h; ACCEPT starts its step 6, REJECT and the timeout refuse it with E3h; a member whose step 8 has ended with its
Almanacs is PRESENT, one that has not is refused with E5h; CS_CTRL and the cascade registers act as written, HC_REOPEN
asking the member for its share while WAIT stands (R511, R521 to R527, R540, R543, R545). -/
def Obligations.Joins : Prop :=
  ∀ (s : State) (h : HandId) (offer : JoinOffer) (path : Word) (session : JoinSession) (j : Join) (n : Nat) (data : Word)
    (almanac : BitVec 16) (devnum : BitVec 12) (p i : Nat),
    let refused (code : Byte) (t : State) : Prop := (t.hcEntry j.devnum).state = .refused ∧
      (t.hcEntry j.devnum).code = code ∧ ∀ k, k ∈ t.cascade.joins → k.path ≠ j.path
    (s.childPort offer.path = some p → s.offerHeard offer = true →
      (s.numberAt offer.path).orElse (fun _ => s.freeNumber) = some n → hopsOf offer.path ≤ 6 →
      s.liveEntries < 4095 → Answers (exec (.joinOffer offer) s) fun t =>
        (t.hcEntry n).state = .joining ∧ (t.hcEntry n).path = offer.path ∧ (t.hcEntry n).serial = offer.serial ∧
        t.cascade.joins = s.cascade.joins ++ [{ path := offer.path, serial := offer.serial, devnum := n }]) ∧
    (s.cascade.master = true → (s.cascade.joins.find? fun k => k.path == path && k.step == 1) = some j → j.path = path →
      (session.signaturesOk = false → Answers (exec (.joinAuthenticated path session) s) (refused 0xE2)) ∧
      (session.signaturesOk = true → session.chainsOk = true → session.lc.toNat < 0x11 → session.mode = 1 →
        Answers (exec (.joinAuthenticated path session) s) fun t =>
          { j with lc := session.lc, meas := session.meas, secret := session.secret, step := 2 } ∈ t.cascade.joins)) ∧
    (s.cascade.awaiting = some j →
      (s.permits h 0xD020 true 3 →
        Answers (exec (.accept h) s) (fun t => { j with step := 3 } ∈ t.cascade.joins) ∧
        Answers (exec (.reject h) s) (refused 0xE3)) ∧
      Answers (exec .joinDecisionTimeout s) (refused 0xE3)) ∧
    ((s.cascade.joins.find? fun k => k.path == path && k.ends none) = some j → j.path = path →
      Answers (exec (.memberJoined path none) s) fun t => (t.hcEntry j.devnum).state = .present ∧
        t.link.evt.getLsbD 4 = true) ∧
    ((s.cascade.joins.find? fun k => k.path == path && k.ends (some almanac)) = some j → j.path = path →
      Answers (exec (.memberJoined path (some almanac)) s) (refused 0xE5)) ∧
    (s.permits h 0xD002 true 3 → Answers (exec (.csCtrl h data) s) fun t =>
      t.cascade.joinEn = (s.cascade.master && data.getLsbD 1) ∧ t.cascade.ready = (!s.cascade.master && data.getLsbD 0) ∧
      ∀ q, q < 8 → t.cascade.portEn.getLsbD q = (data.getLsbD (8 + q) && !(s.cascade.master && q == 0))) ∧
    (s.permits h 0xD02B true 3 → s.cascade.master = true → s.cascade.rop = none → s.ownDevice s.cascade.rpath = false →
      s.cascade.rwait = none → s.memberPresent s.cascade.rpath = true → (s.port (s.portTo s.cascade.rpath)).state = .keyed →
      Answers (exec (.remoteRead h) s) (fun t => t.cascade.rop = some 1) ∧
      Answers (exec (.remoteWrite h) s) (fun t => t.cascade.rop = some 2)) ∧
    (s.hostOk → (s.hcEntry devnum.toNat).state = .present → (s.hcEntry devnum.toNat).wait = true →
      s.shareIndex (s.hcEntry devnum.toNat).path = some i → Answers (exec (.hcReopen devnum) s) fun t =>
        i ∈ t.store.unreported ∧ t.hcEntry devnum.toNat = s.hcEntry devnum.toNat) ∧
    (s.hostOk → Answers (exec .hcSeq s) fun t => t.cascade.index = (s.cascade.index + 1) % 4096 ∧
      t.out = s.out ++ [.barData (leOctets 8 s.hcShown.seq)])

/-! ### Power (file 16) -/

/-- Power states and the governor: Doze, Nap, Slumber and Dormant are entered under their conditions and left by a wake;
the hottest sensor decides the level by the row that applies, with its signals; the registers hold what is written
(R549 to R564). -/
def Obligations.PowerStates : Prop :=
  ∀ (s : State) (h : HandId) (n : RingId) (tj : Int) (sensors : List Int) (cool lock : Bool) (level : GovLevel)
    (data : Word64) (w : Word),
    (s.power.state = .run → 200 ≤ s.tolerance → s.dozeIdle = true →
      Answers (exec .dozeEntry s) fun t => t.power.state = .doze) ∧
    (s.power.state = .run → s.napIdle = true → (40000 ≤ s.tolerance →
      Answers (exec .napEntry s) fun t => t.power.state = .nap) ∧
      (3000000 ≤ s.tolerance → s.power.gov ≠ .trip → s.link.d3hot = false → s.portsDown = true → s.store.restClean = true →
        s.life.session = .closed → s.life.scanOpen = false →
        Answers (exec .slumberEntry s) fun t => t.power.state = .slumber ∧ t.store.frames = [] ∧
          ∀ c, (t.core c).workspace = [] ∧ (t.core c).iram = (s.core c).iram)) ∧
    (s.power.gov ≠ .trip → s.power.state ≠ .dormant → (s.power.state = .slumber → s.store.atRest = true) →
      Answers (exec .wakeEvent s) (fun t => t.power.state = .run) ∧
      Answers (exec .wakeIn s) fun t => t.power.state = .run) ∧
    (s.link.d3hot = true → s.portsDown = true → s.linkAwake = true → s.life.session = .closed →
      s.life.scanOpen = false → Answers (exec .pmeTurnOff s) fun t =>
        t.power.state = .dormant ∧ t.parish.used = 0 ∧ Out.pmeAck ∈ t.out) ∧
    (s.power.state ≠ .dormant → tj ∈ sensors → (∀ x, x ∈ sensors → x ≤ tj) →
      (govTarget s.power tj cool = none → Answers (exec (.tjReading sensors cool) s) fun t =>
        t.power = { s.power with tj := tj }) ∧
      (govTarget s.power tj cool = some (level, lock) → level ≠ .trip → Answers (exec (.tjReading sensors cool) s) fun t =>
        t.power.gov = level ∧ t.power.tj = tj ∧ t.link.evt.getLsbD 5 = true ∧
        (lock = true → s.power.rest ≠ 0 → t.power.sprintLock = true)) ∧
      (govTarget s.power tj cool = some (.trip, lock) → s.life.scanOpen = false →
        Answers (exec (.tjReading sensors cool) s) fun t => t.power.gov = .trip ∧ t.power.state = .slumber ∧
          t.power.trips = min 255 (s.power.trips + 1))) ∧
    (Answers (exec .sprintLockExpiry s) fun t => t.power.sprintLock = false) ∧
    (s.hostOk →
      (data.toNat < 2 ^ 32 → Answers (exec (.pwLtGlobal data) s) fun t => t.power.ltGlobal = data.toNat) ∧
      (data &&& 0x7FFFFFFF00000000#64 = 0 → Answers (exec (.pwLtRing n data) s) fun t =>
        afind t.power.ltRing n = if data.getLsbD 63 then some (data.toNat % 2 ^ 32) else none) ∧
      (data &&& 0xFFFFFFFFFF00FFFE#64 = 0 → Answers (exec (.pwGov data) s) fun t =>
        t.power.rest = data.toNat / 2 ^ 16 ∧ t.power.hostSprint = data.getLsbD 0)) ∧
    (s.permits h 0xC001 true 3 → Answers (exec (.gvCtrl h w) s) fun t => t.power.wardenSprint = w.getLsbD 0)

/-! ### Life cycle and debug (file 17) -/

/-- Debug sessions: queries answer without changing the device, a challenge gives the first 32 octets of a seed that
nothing before it is owed as a fresh nonce or waits for one, an OPEN that the state and its certificate allow opens
a session with the rights of both and one that is refused discards the nonce, and a session closes with the END of
its cause (R583 to R590). The test access port: each instruction shows in the instruction register and nothing else
changes, EXTEST acts as BYPASS outside BLANK, FACTORY and the Trial states, and IDCODE shifts out the device's
identity (R582). -/
def Obligations.DebugSessions : Prop :=
  (∀ (s : State) (h : HandId) (c : List Byte) (data : Word),
      let l := s.life
      let ends (n : Nat) (t : State) : Prop :=
        t.life.session = .closed ∧ t.life.ending = n ∧ t.life.rights = 0 ∧ t.life.powerHold = false
      (s.mailboxLive = true →
        exec .status s = .next { s with life := { l with ir := 0x10 }, out := s.out ++ [.mailbox 0 [l.dbgStatus.toNat]] } ∧
        (Answers (exec .lcQuery s) fun t => t = { s with life := { l with ir := 0x10 }, out := t.out } ∧
          ∃ ws, t.out = s.out ++ [.mailbox 0 ws] ∧ ws.take 2 = [l.effective, l.fuse.toNat]) ∧
        (l.inService = true → l.session ≠ .opened → s.power.state ≠ .slumber → s.anyHealthy = true →
          (s.seedsOwed < s.entropy.pool.length → Answers (exec .challenge s) fun t => t.life.session = .challenged ∧
            t.life.nonce = some ((s.entropy.pool.headD []).take 32) ∧ t.entropy.pool = s.entropy.pool.drop 1) ∧
          (s.entropy.pool.length ≤ s.seedsOwed → Answers (exec .challenge s) fun t =>
            t.life.nonceOwed = true ∧ t.life.nonce = l.nonce ∧ t.out = s.out)) ∧
        (l.session ≠ .opened →
          (freeRights l.effective ≠ 0 → s.power.state ≠ .slumber → l.deny = false →
            Answers (exec (.dbgOpen none) s) fun t => t.life.session = .opened ∧ t.life.rights = freeRights l.effective) ∧
          (s.certRefusal c = none → Answers (exec (.dbgOpen (some c)) s) fun t => t.life.session = .opened ∧
            t.life.nonce = none ∧ t.life.rights = BitVec.ofNat 10 (certField c 6 2) &&& certRights l.fuse.toNat) ∧
          (s.certRefusal c ≠ none → Answers (exec (.dbgOpen (some c)) s) fun t => t.life.session ≠ .opened ∧
            t.life.nonce = none)) ∧
        (l.session = .opened → l.scanUsed = false → Answers (exec .dbgClose s) (ends 1)) ∧
        (l.session = .opened → l.scanUsed = true → Answers (exec .dbgClose s) fun t =>
          t.startup.inReset = true ∧ t.vault.slots = [] ∧ t.life.session = .closed)) ∧
      (l.nonce ≠ none → Answers (exec .nonceExpiry s) fun t => t.life.nonce = none ∧ t.life.session ≠ .challenged) ∧
      (∀ n, l.session = .opened → l.scanUsed = false → l.notAfter = some n → n ≤ s.watch.rtcSec →
        Answers (exec .sessionExpiry s) (ends 2)) ∧
      (s.permits h 0xE009 true 3 →
        (data.getLsbD 0 = false → exec (.dbgCtrl h data) s = .next s) ∧
        (data.getLsbD 0 = true → l.session = .opened → l.scanUsed = false → Answers (exec (.dbgCtrl h data) s) fun t =>
          ends 5 t ∧ t.life.deny = true))) ∧
  (∀ s : State, s.tapLive = true →
      let shows (ir : Byte) : State := { s with life := { s.life with ir := ir } }
      exec .extest s = .next (shows (if s.life.openState then 0x00 else 0xFF)) ∧
      exec .samplePreload s = .next (shows 0x01) ∧ exec .bypass s = .next (shows 0xFF) ∧
      (s.startup.inReset = false → exec .idcode s = .next { s with
        life := { s.life with ir := 0x02 }, out := s.out ++ [.mailbox 0 [idcode]] }))

/-- Life-cycle advances: one that is accepted starts to blow the fuses of its target and changes no state code before it
ends, one that is refused leaves LC_RESULT F0h with its DETAIL; at its end every bit of the target's codeword is blown
in all three copies, TERMINATED takes effect and any other state waits; entering a Trial state spends the token,
latches the state and resets the device (R574 to R581). -/
def Obligations.LifeCycleAdvances : Prop :=
  ∀ (s : State) (h : HandId) (confirm target code : Byte) (d slot : Nat) (preimage : List Byte),
    let l := s.life
    (s.permits h 0xE001 true 3 → confirm.toNat = 255 - target.toNat →
      (s.advanceRefusal false target.toNat = none → Answers (exec (.lcAdvance (.hand h confirm) target) s) fun t =>
        t.life.blowing = some target ∧ t.life.fuse = l.fuse ∧ t.life.copy0 = l.copy0) ∧
      (s.advanceRefusal false target.toNat = some d → Answers (exec (.lcAdvance (.hand h confirm) target) s) fun t =>
        t.life.blowing = l.blowing ∧ t.life.status = 0xF0 ∧ t.life.detail = BitVec.ofNat 8 d)) ∧
    (s.mailboxLive = true → l.session = .opened → l.effective < 2 → s.advanceRefusal true target.toNat = none →
      Answers (exec (.lcAdvance .mailbox target) s) fun t => t.life.blowing = some target ∧ t.life.fuse = l.fuse) ∧
    (l.blowing = some target →
      let more := codeword target.toNat &&& ~~~codeword l.fuse.toNat
      (target ≠ 5 → Answers (exec .fuseAdvanceEnd s) fun t =>
        t.life.pending = some target ∧ t.life.blowing = none ∧ t.life.fuse = l.fuse ∧
        t.life.copy0 = l.copy0 ||| more ∧ t.life.copy1 = l.copy1 ||| more ∧ t.life.copy2 = l.copy2 ||| more) ∧
      (target = 5 → Answers (exec .fuseAdvanceEnd s) fun t => t.life.fuse = 5 ∧ t.life.blowing = none ∧
        t.vault.ikek = none ∧ t.vault.ckek = none ∧ t.vault.dak = none ∧ t.vault.slots = [])) ∧
    (s.mailboxLive = true →
      (s.trialRefusal slot code preimage = none → Answers (exec (.trialEnter slot code preimage) s) fun t =>
        t.life.trial = some code ∧ t.startup.inReset = true ∧
        t.life.spent = if l.fuse = 1 then l.spent else slot :: l.spent) ∧
      (s.trialRefusal slot code preimage ≠ none → Answers (exec (.trialEnter slot code preimage) s) fun t =>
        t.life = { l with ir := 0x10 } ∧ t.startup = s.startup))

/-- The commands of an open session: each acts under its right, and without it sets DENIED and answers F6h; a word of a
core's I-RAM is read and written through the mailbox, a read that the device ACU or the rights refuse gives zeros, and
one of the flash waits for a program in its bank (R465, R491, R583, R588, R591 to R595). -/
def Obligations.DebugCommands : Prop :=
  ∀ (s : State) (hand : HandId) (a n first : Nat) (w : Word) (words : List Word) (on arch : Bool) (chain bits : Nat)
    (data samples : List Bool) (source : Fin 4), s.mailboxLive = true →
    let l := s.life
    let k := hand.toNat
    let denied (t : State) : Prop := t.life.denied = true ∧ t.hands = s.hands ∧ t.out = s.out ++ [.mailbox 0xF6 []]
    let replied (ws : List Nat) (t : State) : Prop := t.out.getLast? = some (.mailbox 0 ws)
    (s.mayHaltHand k = true →
      (Answers (exec (.dbgHalt hand) s) fun t => (t.hand k).halted = true) ∧
      (Answers (exec (.dbgResume hand) s) fun t => (t.hand k).halted = false) ∧
      ((s.hand k).halted = true → Answers (exec (.dbgStep hand) s) fun t =>
        (t.hand k).halted = false ∧ (t.hand k).stepOne = true) ∧
      (l.has 4 = true →
        (Answers (exec (.trace hand .start) s) fun t => afind t.life.traces k = some []) ∧
        (Answers (exec (.trace hand .stop) s) fun t => afind t.life.traces k = none) ∧
        Answers (exec (.trace hand .read) s) (replied ((aget [] l.traces k).map (·.toNat))))) ∧
    (s.mayHaltHand k = false → Answers (exec (.dbgHalt hand) s) denied ∧ Answers (exec (.dbgResume hand) s) denied ∧
      Answers (exec (.dbgStep hand) s) denied ∧ Answers (exec (.trace hand .start) s) denied) ∧
    (l.session = .opened → s.power.state = .run → s.power.wakeOwed = false → s.deviceView.2 = s →
      (s.debugRefusal s.deviceView.1 a 1 false = none → a < 2 ^ 27 → a % 2 ^ 20 < 65536 →
        Answers (exec (.dbgRead a 1) s) (replied [(aget 0 (s.core (a / 2 ^ 20)).iram (a % 2 ^ 20)).toNat])) ∧
      (s.debugRefusal s.deviceView.1 a 1 true = none → a < 2 ^ 27 → a % 2 ^ 20 < 65536 →
        Answers (exec (.dbgWrite a [w]) s) fun t => aget 0 (t.core (a / 2 ^ 20)).iram (a % 2 ^ 20) = w) ∧
      (s.debugRefusal s.deviceView.1 a n false ≠ none → Answers (exec (.dbgRead a n) s) fun t =>
        t.life.denied = true ∧ t.out.getLast? = some (.mailbox 0xF6 (List.replicate n 0))) ∧
      (s.debugRefusal s.deviceView.1 a words.length true ≠ none → Answers (exec (.dbgWrite a words) s) fun t =>
        t.life.denied = true ∧ t.out.getLast? = some (.mailbox 0xF6 []))) ∧
    (l.has 5 = true → Answers (exec (.parishRead first n false) s)
        (replied ((List.range n).map fun i => (aget 0 s.parish.ring ((first + i) % 16384)).toNat)) ∧
      ((∀ b, s.flash.programming b = false) → Answers (exec (.parishRead first n true) s) fun t =>
        ∃ ws, ws.length = n ∧ t.out.getLast? = some (.mailbox 0 ws))) ∧
    (l.has 6 = true →
      ((∀ b, s.flash.programming b = false) → Answers (exec (.flashRead a n) s) fun t =>
        ∃ ws, ws.length = n ∧ t.out.getLast? = some (.mailbox 0 ws)) ∧
      (n ≠ 0 → s.flash.programming (bankOf (a % 2 ^ 24)) = true → Answers (exec (.flashRead a n) s) fun t =>
        t.life.readOwed = some (a, n) ∧ t.out = s.out)) ∧
    (l.has 7 = true → exec (.powerHold on) s = .next { s with
      life := { l with ir := 0x10, powerHold := on }, out := s.out ++ [.mailbox 0 []] }) ∧
    (l.has 8 = true → Answers (exec (.scan chain bits data) s) fun t => t.life.scanUsed = true ∧
      t.out.getLast? = some (.mailbox 0 ((Config.scanCapture chain bits data).map b2n))) ∧
    (l.has 9 = true → (s.source source).state ≠ .testPattern →
      Answers (exec (.raw source samples) s) (replied (samples.map b2n))) ∧
    (l.has 5 = false → Answers (exec (.parishRead first n arch) s) denied) ∧
    (l.has 6 = false → Answers (exec (.flashRead a n) s) denied) ∧
    (l.has 7 = false → Answers (exec (.powerHold on) s) denied) ∧
    (l.has 8 = false → Answers (exec (.scan chain bits data) s) denied) ∧
    (l.has 9 = false → Answers (exec (.raw source samples) s) denied)

/-! ### The Watch domain (file 18) -/

/-- Alarms: those that count are latched, one at NOTIFY sets HL_EVT.ALARM, one at HALT sets HALTED, one at PURGE
empties the Vault and the Store, one at RESET or ERASE resets the device and ERASE destroys BBKR and latches
TAMPERED; with the main side unpowered a loop or a switch erases whatever its response; a self-test's failure only
latches (R600 to R605, R609, R617, R618). Battery, log, monitors and RTC: the loss of VBAT and its return (which
leaves no BBKR, no log and an invalid RTC), LOGCLR only while not TAMPERED, RESUME only while no latch of a HALT-
or-stronger alarm is left, locks that stay set, a locked monitor that is only made stronger, and the RTC's load and
capture (R602, R611, R615, R616, R621, R623). -/
def Obligations.Watch : Prop :=
  (∀ (s : State) (alarms : List (Fin 28)) (h : HandId) (m : Nat) (n : BitVec 5) (pass : Bool),
      let ms := s.liveAlarms (alarms.map (·.val)).eraseDups
      (ms = [] → exec (.monitorAlarm alarms) s = .next s) ∧
      (m ∈ ms → s.watch.mainDark = false → s.power.state ≠ .dormant → s.life.scanOpen = false →
        ((∀ k, k ∈ ms → s.monResp k ≤ 1) → Answers (exec (.monitorAlarm alarms) s) fun t => t.watch.latch.getLsbD m = true ∧
          t.watch.halted = s.watch.halted ∧ t.store = s.store ∧ t.vault = s.vault ∧
          (s.monResp m = 1 → t.link.evt.getLsbD 0 = true)) ∧
        (s.monResp m = 2 → (∀ k, k ∈ ms → s.monResp k ≤ 2) → Answers (exec (.monitorAlarm alarms) s) fun t =>
          t.watch.latch.getLsbD m = true ∧ t.watch.halted = true ∧ t.startup.inReset = s.startup.inReset) ∧
        (s.monResp m = 4 → (∀ k, k ∈ ms → s.monResp k ≤ 4 ∧ s.monResp k ≠ 3) → Answers (exec (.monitorAlarm alarms) s) fun t =>
          t.vault.slots = [] ∧ t.store.frames = [] ∧ t.watch.halted = true ∧ t.startup.inReset = s.startup.inReset) ∧
        (s.monResp m = 3 → Answers (exec (.monitorAlarm alarms) s) fun t => t.startup.inReset = true) ∧
        (s.monResp m = 5 → Answers (exec (.monitorAlarm alarms) s) fun t =>
          t.startup.inReset = true ∧ t.watch.bbkr = none ∧ t.watch.tampered = true)) ∧
      (m ∈ ms → s.watch.mainDark = true → m < 6 → Answers (exec (.monitorAlarm alarms) s) fun t =>
        t.watch.bbkr = none ∧ t.watch.tampered = true ∧ t.watch.latch.getLsbD m = true) ∧
      (s.permits h 0xB003 true 3 → Answers (exec (.monitorSelftest h n) s) fun t =>
        t.watch.testRun = if s.watch.testRun = none ∧ n.toNat < 28 then some n.toNat else s.watch.testRun) ∧
      (s.watch.testRun = some m → m < 28 → Answers (exec (.monitorSelftestEnd pass) s) fun t =>
        t.watch.testRun = none ∧ t.watch.testResult = (if pass then 1 else 2) ∧
        (pass = false → t.watch.latch.getLsbD m = true) ∧ t.watch.bbkr = s.watch.bbkr)) ∧
  (∀ (s : State) (h : HandId) (m : Fin 28) (data : Word),
      let w := s.watch
      let c := w.mon m
      let locked := if m.val < 8 then w.wlock else w.mlock
      (w.noVbat = false → Answers (exec .vbatLoss s) fun t => t.watch.noVbat = true) ∧
      (w.noVbat = true → Answers (exec .watchPowerOnReset s) fun t => t.watch.noVbat = false ∧ t.watch.bbkr = none ∧
        t.watch.tampered = false ∧ t.watch.rtcValid = false ∧ t.watch.log = [] ∧ t.watch.wlock = false) ∧
      (s.permits h 0xB002 true 3 →
        exec (.logclr h) s = .next { s with watch := if w.tampered then w else { w with log := [], lost := 0 } } ∧
        (Answers (exec (.resume h) s) fun t =>
          t.watch = { w with halted := if w.strongLatch = 0 then false else w.halted }) ∧
        exec (.wlock h) s = .next { s with watch := { w with wlock := true } } ∧
        exec (.mlock h) s = .next { s with watch := { w with mlock := true } }) ∧
      (s.permits h (0xB008 + m.val) true 3 → Answers (exec (.wtMon h m data) s) fun t =>
        t.life = s.life ∧ (∀ k, k ≠ m.val → t.watch.mon k = w.mon k) ∧
        (locked = false → t.watch.mon m =
          { en := data.getLsbD 35, resp := wfield data 14 12, n := wfield data 11 8, w := wfield data 7 0 }) ∧
        (locked = true → s.monResp m ≤ t.monResp m ∧ (t.watch.mon m).n ≤ c.n ∧ c.w ≤ (t.watch.mon m).w ∧
          (c.en = true → (t.watch.mon m).en = true))) ∧
      (s.permits h 0xB005 true 3 → Answers (exec (.rtcLoad h data) s) fun t =>
        t.watch.rtcSec = w.rtcHi.toNat * 2 ^ 36 + data.toNat ∧ t.watch.rtcFrac = 0 ∧ t.watch.rtcValid = true) ∧
      (s.permits h 0xB005 false 3 → exec (.rtcCapture h) s =
        .next { s with watch := { w with capture := (w.rtcSec / 2 ^ 36, w.rtcFrac) } }))

/-! ### Cards (file 20) -/

/-- Card commands of a gate's claimant: one that R644 lets through runs, one it refuses leaves its status, one written
while another runs is discarded, and a Hand that has no claim takes IO_FAULT (R642 to R644, R659). A gate's
operations end, its pins change and its other registers are written: an operation's end frees the gate, a READ
leaves the block's 64 octets, a committed WRITE its new COUNT, a removed ISO card ends its operation with D0h, a
failed supply with D5h; CLK stops where the card allows it; a claim is taken only when free and given up only by
its holder; the buffer is read and written at CG_BPTR; a change of MODE deactivates every card (R641 to R643, R649,
R653 to R655, R662). -/
def Obligations.Cards : Prop :=
  (∀ (s : State) (h : HandId) (b : Bool) (tx : BitVec 9) (seat : BitVec 3) (block : BitVec 7),
      s.permits h (gateBase b + 3) true 3 →
      let ready (w : Word) : Prop := (s.gate b).owner = some h.toNat ∧ (s.gate b).op = none ∧ s.cardRefusal b w = none
      let runs (w : Word) (t : State) : Prop :=
        (t.gate b).op = some w ∧ t.journal.tokens = s.journal.tokens - (if cgOp w = 6 then 1 else 0)
      let turnedAway (i : Instr) (w : Word) : Prop :=
        ((s.gate b).owner ≠ some h.toNat →
          exec i s = .next (s.takeException h 5 (s.hand h).pc false (wd (gateBase b + 3)))) ∧
        ((s.gate b).owner = some h.toNat → (s.gate b).op ≠ none → exec i s = .next s) ∧
        (∀ c, (s.gate b).owner = some h.toNat → (s.gate b).op = none → s.cardRefusal b w = some c →
          Answers (exec i s) fun t => (t.gate b).op = none ∧ (t.gate b).status = BitVec.ofNat 8 c ∧ t.journal = s.journal)
      (ready (cardWord 1 0 0 0) → Answers (exec (.activate h b) s) (runs (cardWord 1 0 0 0))) ∧
      (ready (cardWord 2 0 0 0) → Answers (exec (.deactivate h b) s) (runs (cardWord 2 0 0 0))) ∧
      (ready (cardWord 3 tx.toNat 0 0) → Answers (exec (.apdu h b tx) s) (runs (cardWord 3 tx.toNat 0 0))) ∧
      (ready (cardWord 4 0 0 0) → Answers (exec (.seat h b) s) (runs (cardWord 4 0 0 0))) ∧
      (ready (cardWord 5 0 seat.toNat block.toNat) → Answers (exec (.cardRead h b seat block) s) (runs (cardWord 5 0 seat.toNat block.toNat))) ∧
      (ready (cardWord 6 0 seat.toNat block.toNat) → Answers (exec (.cardWrite h b seat block) s) (runs (cardWord 6 0 seat.toNat block.toNat))) ∧
      (ready (cardWord 7 0 seat.toNat 0) → Answers (exec (.sleep h b seat) s) (runs (cardWord 7 0 seat.toNat 0))) ∧
      (ready (cardWord 8 0 seat.toNat 0) → Answers (exec (.cardWake h b seat) s) (runs (cardWord 8 0 seat.toNat 0))) ∧
      (ready (cardWord 9 8 seat.toNat 0) → Answers (exec (.cardUnlock h b seat) s) (runs (cardWord 9 8 seat.toNat 0))) ∧
      turnedAway (.activate h b) (cardWord 1 0 0 0) ∧ turnedAway (.deactivate h b) (cardWord 2 0 0 0) ∧
      turnedAway (.apdu h b tx) (cardWord 3 tx.toNat 0 0) ∧ turnedAway (.seat h b) (cardWord 4 0 0 0) ∧
      turnedAway (.cardRead h b seat block) (cardWord 5 0 seat.toNat block.toNat) ∧ turnedAway (.cardWrite h b seat block) (cardWord 6 0 seat.toNat block.toNat) ∧
      turnedAway (.sleep h b seat) (cardWord 7 0 seat.toNat 0) ∧ turnedAway (.cardWake h b seat) (cardWord 8 0 seat.toNat 0) ∧
      turnedAway (.cardUnlock h b seat) (cardWord 9 8 seat.toNat 0)) ∧
  (∀ (s : State) (h : HandId) (b level claim : Bool) (a : CardAnswer) (os : List Byte) (c : BitVec 32) (w d : Word)
      (silent : List (Fin 8)) (write : Option Word),
      let g := s.gate b
      (g.op = some w →
        (Answers (exec (.cardOpEnd b a) s) fun t => (t.gate b).op = none ∧ (t.gate b).intent = none ∧
          (t.gate b).owner = if g.freeOwed then none else g.owner) ∧
        (cgOp w = 5 → os.length = 64 → Answers (exec (.cardOpEnd b (.ok os)) s) fun t =>
          (t.gate b).status = 0 ∧ (t.gate b).rxlen = 64 ∧ (t.gate b).state = 3) ∧
        (cgOp w = 6 → g.intent ≠ none → Answers (exec (.cardOpEnd b (.committed c)) s) fun t =>
          (t.gate b).status = 0 ∧ (t.gate b).sw = c.setWidth 16 ∧ ((t.gate b).seat (cgSeat w)).count = c)) ∧
      (g.pres ≠ level → Answers (exec (.presChange b level silent) s) fun t => (t.gate b).pres = level ∧
        (g.mode = 1 → level = true → (t.gate b).op = none ∧ (t.gate b).seats = [] ∧ (t.gate b).state = 1 ∧
          (g.op ≠ none → (t.gate b).status = 0xD0))) ∧
      (2 ≤ g.state → Answers (exec (.cardSupplyFail b) s) fun t =>
        (t.gate b).seats = [] ∧ (t.gate b).clkStopped = none ∧ (g.op ≠ none → (t.gate b).op = none ∧ (t.gate b).status = 0xD5)) ∧
      (g.clockStop = some level → g.mode = 1 → g.state = 3 → g.clkStopped = none →
        Answers (exec (.cardClockStop b) s) fun t => (t.gate b).clkStopped = some level) ∧
      (s.permits h (gateBase b + 2) true 3 → Answers (exec (.cgClaim h b claim) s) fun t => (t.gate b).owner =
        if claim then g.owner.or (some h.toNat) else if g.owner = some h.toNat then none else g.owner) ∧
      (s.permits h (gateBase b + 6) write.isSome 3 → g.owner = some h.toNat →
        Answers (exec (.cgBdata h b write) s) fun t => (t.gate b).bptr = (g.bptr + 1) % 72 ∧
          (∀ x, write = some x → aget 0 (t.gate b).buf g.bptr = x &&& 0xFFFFFFFF#36) ∧
          (write = none → (t.gate b).buf = g.buf)) ∧
      (s.permits h (gateBase b) true 3 → g.op = none → wfield d 1 0 ≤ 2 → Answers (exec (.cgCtrl h b d) s) fun t =>
        (t.gate b).mode = wfield d 1 0 ∧ (t.gate b).clkdiv = wfield d 14 8 ∧ (t.gate b).width4 = d.getLsbD 2 ∧
        (wfield d 1 0 ≠ g.mode → (t.gate b).seats = []) ∧ (wfield d 1 0 = g.mode → (t.gate b).seats = g.seats)))

/-! ### The Custody Tag (file 21) -/

/-- Field states: a field gives an idle tag with a UID of 08h and three noise octets, its loss discards the session,
and the commands of ISO 14443 move the tag as R668's table gives, each with its answer (R665 to R668, R682). The
wired side: a command that R684 lets through runs with the pages it writes, and one it refuses leaves its status;
each page's end writes it and the last ends the command, or a failed page ends it with DCh; SUMMARY_AUTO starts to
write pages 0 and 1 as SUMMARY does; UNLOCK zeroes PWD_FAILS (R680, R681, R684, R685). -/
def Obligations.TagSides : Prop :=
  (∀ (s : State) (noise : BitVec 24) (known : List Bool) (uid : BitVec 32) (dri dsi : BitVec 2),
      let g := s.tag
      let moved (st : FieldState) (os : List (List Byte)) (t : State) : Prop :=
        t.tag.field = st ∧ t.tag.sk = none ∧ t.tag.rndT = none ∧ t.out = s.out ++ os.map .tagAnswer
      (g.field = .none → (Answers (exec (.fieldEntry noise) s) fun t => t.tag.field = .idle ∧ t.tag.fd = true ∧
          t.tag.uid.toNat = 0x08000000 + noise.toNat ∧ t.tag.delay = false) ∧
        exec .fdHoldExpiry s = .next { s with tag := { g with fd := false } }) ∧
      (g.field ≠ .none → s.watch.mainDark = false → Answers (exec .fieldLoss s) fun t => t.tag.field = .none ∧
        t.tag.uid = 0 ∧ t.tag.sk = none ∧ t.tag.nv = g.nv ∧ t.tag.fieldWrite = g.fieldWrite) ∧
      (g.field = .idle → Answers (exec .reqa s) (moved .ready [[4, 0]])) ∧
      (g.field = .idle ∨ g.field = .halt → Answers (exec .wupa s) (moved .ready [[4, 0]])) ∧
      (g.field = .halt → exec .reqa s = .next s) ∧
      (g.field = .ready → g.cascadeBits.take known.length = known → exec (.anticollision known) s =
        .next { s with out := s.out ++ [.tagAnswer (packBits (g.cascadeBits.drop known.length))] }) ∧
      (g.field = .ready → (g.uid = uid → Answers (exec (.select uid) s) (moved .active [[0x20]])) ∧
        (g.uid ≠ uid → exec (.select uid) s = .next s)) ∧
      (g.field.held = true → Answers (exec .hlta s) (moved .halt []) ∧ Answers (exec .deselect s) (moved .halt [[0xC2]])) ∧
      (g.field = .active → Answers (exec .rats s) (moved .opened [[0x05, 0x78, 0x33, 0x80, 0x00]])) ∧
      (g.field = .opened → dri ≠ 3 → dsi ≠ 3 → exec (.pps dri dsi) s = .next { s with
        tag := { g with rates := (dri.toNat, dsi.toNat) }, out := s.out ++ [.tagAnswer [0xD0]] }) ∧
      exec .authDelayExpiry s = .next { s with tag := { g with delay := false } }) ∧
  (∀ (s : State) (h : HandId) (page : BitVec 6) (w : Word) (p : Nat) (d : List Byte) (rest : List (Nat × List Byte)),
      let g := s.tag
      let free (op pg : Nat) : Prop := s.wiredRefusal (wd (op * 2 ^ 32 + pg)) = none
      let runs (op pg : Nat) (t : State) : Prop :=
        t.tag.cmd = some (wd (op * 2 ^ 32 + pg)) ∧ t.tag.writes = s.wiredPages op pg ∧ t.tag.nv = g.nv
      let refuses (i : Instr) (op pg : Nat) : Prop := ∀ c, s.wiredRefusal (wd (op * 2 ^ 32 + pg)) = some c →
        Answers (exec i s) fun t => t.tag.cmd = none ∧ t.tag.status = BitVec.ofNat 8 c ∧ t.tag.nv = g.nv
      (s.permits h 0xA002 true 3 → s.tagWired = true → g.cmd = none →
        (free 1 page.toNat → Answers (exec (.tagRead h page) s) (runs 1 page.toNat)) ∧
        (free 2 page.toNat → Answers (exec (.tagWrite h page) s) (runs 2 page.toNat)) ∧
        (free 3 0 → Answers (exec (.summary h) s) (runs 3 0)) ∧ (free 4 0 → Answers (exec (.setpwd h) s) (runs 4 0)) ∧
        (free 5 0 → Answers (exec (.setkey h) s) (runs 5 0)) ∧ (free 6 0 → Answers (exec (.clearauth h) s) (runs 6 0)) ∧
        (free 7 0 → Answers (exec (.setacl h) s) (runs 7 0)) ∧
        refuses (.tagRead h page) 1 page.toNat ∧ refuses (.tagWrite h page) 2 page.toNat ∧ refuses (.summary h) 3 0 ∧
        refuses (.setpwd h) 4 0 ∧ refuses (.setkey h) 5 0 ∧ refuses (.clearauth h) 6 0 ∧ refuses (.setacl h) 7 0) ∧
      (g.cmd = some w →
        (g.writes = [] → Answers (exec (.tagCmdEnd .complete) s) fun t => t.tag.cmd = none ∧ t.tag.status = 0 ∧
          t.tag.fieldWrite = g.fieldWrite.or g.fieldWait ∧ t.tag.fieldWait = none) ∧
        (g.writes = (p, d) :: rest →
          (rest ≠ [] → Answers (exec (.tagCmdEnd .complete) s) fun t =>
            t.tag.cmd = some w ∧ t.tag.writes = rest ∧ t.tag.nv = (g.writePage p d true).nv) ∧
          (rest = [] → Answers (exec (.tagCmdEnd .complete) s) fun t => t.tag.cmd = none ∧ t.tag.status = 0) ∧
          Answers (exec (.tagCmdEnd .torn) s) fun t => t.tag.cmd = none ∧ t.tag.status = 0xDC ∧
            t.tag.nv = (g.writePage p d false).nv)) ∧
      (g.summaryOwed = true → s.tagWired = true → g.cmd = none → s.startup.pfw = false → exec .summaryAuto s =
        .next { s with tag := { g with
          cmd := some (wd (3 * 2 ^ 32)), writes := s.wiredPages 3 0, summaryOwed := false } }) ∧
      (s.permits h 0xA001 true 3 → Answers (exec (.tagUnlock h) s) fun t => t = { s with tag := t.tag } ∧
        t.tag.nv = (g.setFails 0 g.aesFails).nv ∧ t.tag.ien = g.ien))

/-- Commands of a session without a MAC: each answers its status, and its data where the status is 00h; a page is read and
written at the levels its access word asks for; authentication counts, delays and raises the session; with a SECURED_AES
session a right MAC advances CNT and a wrong one ends it (R669 to R677). -/
def Obligations.TagCommands : Prop :=
  ∀ (s : State) (page : Byte) (data pw rndR proof mac r sk : List Byte) (noise : BitVec 128) (stage : WriteStage)
    (n : Nat) (d : List Byte) (strong : Bool),
    let g := s.tag
    let p := page.toNat
    let replied (os : List Byte) (t : State) : Prop := t.out = s.out ++ [.tagAnswer os]
    let went (st : FieldState) (os : List Byte) (t : State) : Prop :=
      t.tag.field = st ∧ Out.tagAnswer os ∈ t.out
    (g.field = .opened ∨ g.field = .securedPwd → g.fieldWrite = none → g.fieldWait = none →
      Answers (exec (.getInfo []) s) (replied [0, 1, BitVec.ofNat 8 g.field.code, BitVec.ofNat 8 (b2n s.mainPresent), 64,
        BitVec.ofNat 8 (b2n g.pwdSet + 2 * b2n g.keySet)]) ∧
      Answers (exec (.readLive []) s) (replied (0 :: s.liveStatus)) ∧
      (p < 60 → meets g.field.level (g.rd p) = true → Answers (exec (.readPage page []) s) (replied (0 :: g.readPage p))) ∧
      (p < 60 → meets g.field.level (g.rd p) = false → Answers (exec (.readPage page []) s) (replied [1])) ∧
      (64 ≤ p → Answers (exec (.readPage page []) s) (replied [4])) ∧
      (data.length = 120 → 2 ≤ p → p < 60 → meets g.field.level (g.wr p) = true →
        Answers (exec (.writePage page data [] false) s) (replied [5]) ∧
        (g.wiredOwns p = false → Answers (exec (.writePage page data [] true) s) fun t =>
          t.tag.fieldWrite = some (p, data) ∧ t.out = s.out)) ∧
      (data.length = 120 → p < 60 → meets g.field.level (g.wr p) = false → Answers (exec (.writePage page data [] strong) s) (replied [1])) ∧
      (g.field = .opened → pw.length = 8 →
        (8 ≤ g.pwdFails → Answers (exec (.authPwd pw []) s) (went .opened [6])) ∧
        (g.pwdFails < 8 → g.pwd? = some pw → Answers (exec (.authPwd pw []) s) (went .securedPwd [0])) ∧
        (g.pwdFails < 8 → g.pwd? ≠ some pw → Answers (exec (.authPwd pw []) s) (went .opened [2]))) ∧
      (g.delay = false → Answers (exec (.auth1 noise []) s) fun t =>
        t.tag.rndT = some (beOctets 16 noise.toNat) ∧ t.out = s.out ++ [.tagAnswer (0 :: beOctets 16 noise.toNat)]) ∧
      (g.delay = true → Answers (exec (.auth1 noise []) s) (replied [6])) ∧
      (rndR.length = 16 → proof.length = 16 → g.rndT = some r →
        (g.keySet = true → proof = g.proof 0x52 r rndR → Answers (exec (.auth2 rndR proof []) s) fun t =>
          t.tag.field = .securedAes ∧ t.tag.sk = some (g.proof 0x53 r rndR) ∧ t.tag.cnt = 0 ∧
          t.out = s.out ++ [.tagAnswer (0 :: g.proof 0x54 rndR r)]) ∧
        (g.keySet = false ∨ proof ≠ g.proof 0x52 r rndR → Answers (exec (.auth2 rndR proof []) s) fun t =>
          t.tag.field = .opened ∧ t.tag.delay = true ∧ t.tag.sk = none)) ∧
      (g.rndT = none → Answers (exec (.auth2 rndR proof []) s) (replied [3])) ∧
      (g.field = .securedPwd → Answers (exec (.logout []) s) (went .opened [0])) ∧
      (g.field = .opened → Answers (exec (.logout []) s) (replied [3]))) ∧
    (g.field = .securedAes → g.sk = some sk → g.fieldWrite = none → g.fieldWait = none → g.cnt + 1 < 2 ^ 32 →
      (mac = tagMac sk 1 g.cnt [1] → Answers (exec (.getInfo mac) s) fun t =>
        t.tag.cnt = g.cnt + 1 ∧ t.tag.field = .securedAes) ∧
      (mac ≠ tagMac sk 1 g.cnt [1] → Answers (exec (.getInfo mac) s) (went .opened [7]))) ∧
    (g.fieldWrite = some (n, d) → n < 60 → Answers (exec (.fieldWriteEnd stage) s) fun t =>
      t.tag.fieldWrite = none ∧ ∀ i, i < 256 →
        aget 0xFF t.tag.nv (n * 256 + i) = aget 0xFF (g.writePage n d (stage == .complete)).nv (n * 256 + i))

/-! ### Start-up (file 22) -/

/-- Start-up and Recovery: the end of a reset votes the fuses and opens the debug window, unless power fails or the device is
TERMINATED; the window's close goes on, and failed known-answer tests end in MODE FAILED; the global control commands act
as their bits; a Recovery image in range is read from host memory, and its end leaves the STATE of its outcome (R573,
R578, R694, R696, R697, R700, R702, R704, R705, R718). -/
def Obligations.StartUp : Prop :=
  ∀ (s : State) (h : HandId) (root sel flashOk : Bool) (tests : BootTests) (stage : Byte) (words : BitVec 20)
    (os : List Byte) (setup : FirmwareSetup),
    let x := s.startup
    let img := packIn .raw36 (os.take (x.rcvWords * 8))
    let good := img.length = x.rcvWords ∧ wfield (img.getD 2 0) 19 0 + 52 = img.length ∧ imageOk img = true
    (x.inReset = true → x.rails = true → s.watch.mainDark = false →
      Answers (exec (.deviceResetEnd root sel) s) fun t => t.startup.inReset = false ∧ t.link.perst = false ∧
        t.cascade.master = root ∧ (t.hand 0).boot = true ∧
        (x.pfw = false → s.life.vote.effective ≠ 5 → t.life.window = true ∧ t.link.bootStage = 4 ∧
          t.life.fuse = s.life.vote.fuse) ∧
        (x.pfw = false → s.life.vote.effective = 5 → t.link.mode = 4) ∧
        (x.pfw = true → t.link.bootStage = 1)) ∧
    (s.life.window = true → x.pfw = false → s.life.effective ≠ 0 → Answers (exec (.debugWindowClose tests) s) fun t =>
      t.life.window = false ∧ (tests.katOk = false → t.link.mode = 4)) ∧
    (s.watch.mainDark = false → exec .railsGood s = .next { s with startup := { x with rails := true } } ∧
      Answers (exec .mainSideUnpowered s) fun t => t.watch.mainDark = true ∧ t.startup.rails = false ∧ t.hands = [] ∧
        t.watch.log = s.watch.log ∧ t.watch.bbkr = s.watch.bbkr) ∧
    (s.permits h 0xE041 true 3 →
      exec (.stewardGo h) s = .next { s with steward := { s.steward with started := true } } ∧
      exec (.wdLock h) s = .next { s with startup := { x with wdLock := true } } ∧
      (s.steward.started = false → exec (.fwReady h setup) s = .next (s.setUp setup)) ∧
      (s.steward.started = true → Answers (exec (.fwReady h setup) s) fun t => t.link.fwReady = true ∧
        t.link.ideRequired = setup.ideRequired ∧ t.startup.attempts = 0 ∧ t.startup.fwWritten = true)) ∧
    (s.permits h 0xE042 true 3 → x.wdPeriod < 65536 → exec (.service h) s =
      .next { s with startup := { x with wdCount := max 100 x.wdPeriod, wdRest := 0 } }) ∧
    (s.permits h 0xE043 true 3 →
      (0x80 ≤ stage.toNat → stage.toNat ≤ 0xFE → Answers (exec (.gcStage h stage) s) fun t => t.link.bootStage = stage) ∧
      (stage.toNat < 0x80 ∨ stage = 0xFF → exec (.gcStage h stage) s = .next s)) ∧
    (s.hostOk →
      (s.link.mode ≠ 3 → exec (.recoveryGo words) s = .next s.owesWake) ∧
      (s.link.mode = 3 → x.rcvState ≠ 1 →
        (53 ≤ words.toNat → words.toNat ≤ 1048560 → s.link.dmaOk = true → Answers (exec (.recoveryGo words) s) fun t =>
          t.startup.rcvState = 1 ∧ t.startup.rcvWords = words.toNat ∧
          t.out = s.out ++ [.hostRead x.rcvAddr (words.toNat * 8)]) ∧
        (words.toNat < 53 → Answers (exec (.recoveryGo words) s) fun t => t.startup.rcvState = 3 ∧ t.out = s.out))) ∧
    (x.rcvState = 1 → x.pfw = false →
      (Answers (exec (.recoveryWriteEnd none flashOk) s) fun t => t.startup.rcvState = 4) ∧
      (good → Answers (exec (.recoveryWriteEnd (some os) flashOk) s) fun t =>
        t.startup.rcvState = (if flashOk then 2 else 5) ∧ t.startup.rcvTarget = s.seeFlash.1.recoveryTarget) ∧
      (¬good → Answers (exec (.recoveryWriteEnd (some os) flashOk) s) fun t =>
        t.startup.rcvState = 3 ∧ t.flash = s.flash))

/-! ### Registers through the BARs (file 05) -/

/-! ### Invariants of every step -/

/-- A fuse once blown stays blown: no step, whatever its command, clears a bit of a copy of the life-cycle word or makes a
spent Trial token slot unspent (R574, R575, R580). -/
def Obligations.FusesStayBlown : Prop :=
  ∀ (s t : State) (m : BitVec 32) (k : Nat), step s = .next t →
    (s.life.copy0 &&& m = m → t.life.copy0 &&& m = m) ∧ (s.life.copy1 &&& m = m → t.life.copy1 &&& m = m) ∧
    (s.life.copy2 &&& m = m → t.life.copy2 &&& m = m) ∧ (k ∈ s.life.spent → k ∈ t.life.spent)

/-- Every step keeps the Watch Log and STRONGEST within their bounds, from every state that has them so (R601, R623,
WT_STATE). -/
def Obligations.WatchLogStaysBounded : Prop :=
  ∀ s t : State, s.watch.bounded → step s = .next t → t.watch.bounded

/-- An advance cut off after any number of its pulses reads the old state or the new one, never another: in an advance of
one group the new one exactly when the fourth bit is blown in two copies (R572, R573, R575). -/
def Obligations.CutAdvances : Prop :=
  ∀ (l : LifeCycle) (old new n : Nat), isAdvance old new = true → l.fuse = BitVec.ofNat 8 old →
    l.copy0 = codeword old → l.copy1 = codeword old → l.copy2 = codeword old → l.blowing = some (BitVec.ofNat 8 new) →
    let v := (l.blowFirst n).vote.fuse
    (v = BitVec.ofNat 8 old ∨ v = BitVec.ofNat 8 new) ∧
    (new ≠ 5 ∨ old = 3 ∨ old = 4 → (v = BitVec.ofNat 8 new ↔ 11 ≤ n))

/-! ### Where the plain forms complete -/

/-- Where forms complete that other statements describe at length: at a Hand that issues, NOP, the fences, YIELD, WAIT on
a latched event, PKCLR of an idle slice it holds, IN and OUT of the core-local window; WS's writes of IC_SWI and of the
three ACU_CTRLs; a page-in that starts, one of a page never written, the write-back of a dirty page and the sweeper's
visit of a quarantined page; the flash's commands, their end, FL_DATA, ERASE_RESUME and the protection; the Parish's
snapshot, read ports, control and flush (R100, R101, R136, R140, R141, R143, R184, R324 to R327, R349, R476, R492 to
R496, R631 to R639; logs 23, 27, 117). -/
def Obligations.FormsComplete : Prop :=
  ∀ (s t : State) (h : HandId) (a b : Reg) (io : Imm18) (r : IoReg) (l p : Nat) (v data : Word) (w : WaitSel)
    (set : BitVec 4) (q : PageIn) (f : Frame) (c : Nat) (sh : Share) (o : FlashOp) (bank : Fin 2) (k : Fin 9)
    (code : Byte) (octets : Option (List Byte)) (nodes : List (Option (List Byte))),
    let x := s.hand h
    let ea := (s.rg h b + io.zeroExtend 36).toNat
    let own := bank.val == 1
    let chip := bankOf s.flash.addr
    let next (i : Instr) (P : State → Prop) : Prop := Answers (exec i s) fun u => (u.hand h).pc = x.pc + 1 ∧ P u
    (s.issues h = true →
      next (.nop h) (fun u => ∀ j, j ≠ h.val → u.hand j = s.hand j) ∧
      next (.iofence h) (fun u => ∀ j, j ≠ h.val → u.hand j = s.hand j) ∧
      next (.mfence h) (fun u => (u.hand h).posted = []) ∧
      (x.level % 2 = 1 → next (.pfence h) fun u => ∀ n, n ∈ (u.core (coreOf h)).acu.writers → n.1 ≠ h.val) ∧
      next (.yield h) (fun u => (u.hand h).state = .ready ∨ (u.hand h).state = .running) ∧
      (waitSel (s.rg h b) = some w → x.latched w = some v →
        next (.wait h a b) fun u => u.rg h a = if a = 0 then 0 else v) ∧
      (x.sliceHeld = true → x.slice = some l → (s.slice l).regs.op = none →
        next (.pkclr h) fun u => (u.slice l).regs.opmem = [] ∧ (u.slice l).regs.a = 0 ∧ (u.slice l).regs.acc = 0) ∧
      (ea < 512 → coreLocalReg s h ea = some r →
        (s.permits h ea false r.readLv → next (.inp h a b io) fun u => (u.hand h).delay = some (a, r.value)) ∧
        (s.permits h ea true r.writeLv → s.cascade.rwait = none → next (.out h a b io) fun u =>
          ea = 64 → (u.hand h).htCount = (s.rg h a).setWidth 32))) ∧
    (s.cascade.rwait = none →
      (s.permits h 129 true 3 → Answers (exec (.icSwi h set) s) fun u => ∀ n, n < 4 →
        (u.core (coreOf h)).icPend.getLsbD (4 + n) = ((s.core (coreOf h)).icPend.getLsbD (4 + n) || set.getLsbD n)) ∧
      (s.permits h 320 true 3 → exec (.acuCtrl h .core data) s = .next (acuRegWrite h 320 data s)) ∧
      (s.permits h 328 true 3 → exec (.acuCtrl h .hamlet data) s = .next (acuRegWrite h 328 data s)) ∧
      (s.permits h 336 true 3 → exec (.acuCtrl h .device data) s = .next (acuRegWrite h 336 data s))) ∧
    (s.firstQueued = some q → s.store.under < 64 → s.store.powerFail = false → s.dmaReady = true →
      s.store.frames.length + s.store.under < 16384 →
      Answers (exec (.pageInStart nodes) s) fun u => ∃ y, y ∈ u.store.queue ∧ y.page = q.page ∧ y.started = true) ∧
    ((s.store.queue.find? fun y => y.page == p && y.started) = some q →
      s.bringNodes (s.localPage p) 1 nodes = (t, .ok) → (t.store.parentCounter 0 (s.localPage p)).getD 0 = 0 →
      Answers (exec (.pageInComplete p octets nodes) s) fun u => ∃ g, afind u.store.frames p = some g ∧
        ∀ n, aget 0 g.words n = 0) ∧
    (s.mayWriteBack = true → s.cascade.master = true → afind s.store.frames p = some f → f.dirty = true →
      s.bringNodes (s.localPage p) 1 nodes = (t, .ok) →
      nextCounter t.store.gen ((t.store.parentCounter 0 (s.localPage p)).getD 0) = some c →
      Answers (exec (.writeBack (.page p) nodes) s) fun u => (afind u.store.frames p).map Frame.dirty = some false) ∧
    (s.ownShare = some sh → sh.state = .opened → s.store.sweepDone = false → s.store.prevLive = true →
      s.mayWriteBack = true → s.sweepMayRun = true → s.quarantined (sh.first + s.store.sweepNext) = true →
      Answers (exec (.sweepPage octets nodes) s) fun u => u.store.sweepNext = s.store.sweepNext + 1) ∧
    (s.permits h 32770 true 3 →
      let runs (i : Instr) (n : Nat) : Prop := s.flashRefusal n = none → Answers (exec i s) fun u =>
        ((u.flash.bank chip).op.map fun y => (y.op, y.addr)) = some (n, s.flash.addr)
      runs (.program h) 1 ∧ runs (.erase h) 2 ∧ runs (.blankCheck h) 3) ∧
    (s.flash.turn own = some (false, o) → o.op = 1 → o.words.length = 16 →
      Answers (exec (.flashOpEnd bank true) s) fun u => (u.flash.bank own).op = none ∧ (u.flash.bank own).status = 0 ∧
        ∀ i, i < 16 → aget erasedWord u.flash.words (o.addr + i) = o.words.getD i 0) ∧
    (s.permits h 32769 false 3 → s.flash.programming chip = false →
      Answers (exec (.flData h) s) fun u => u.flash.addr = (s.flash.addr + 1) % 2 ^ 24) ∧
    ((s.flash.bank own).susp = true → s.startup.pfw = false → Answers (exec (.eraseResume bank) s) fun u =>
      (u.flash.bank own).susp = false) ∧
    (s.permits h (32800 + k.val) true 3 → Answers (exec (.flWp h k data) s) fun u => ∀ j, j < wpCount k →
      (j + 32 * k.val ∈ u.flash.unprotected ↔
        data.getLsbD j = false ∧ (s.flash.wpLock = false ∨ j + 32 * k.val ∈ s.flash.unprotected))) ∧
    (s.permits h 28680 true 3 → s.parish.snapshot = true → Answers (exec (.prSnap h code) s) fun u =>
      u.parish.seq = (s.parish.seq + 1) % 2 ^ 24 ∧ u.parish.count = s.parish.count + 1) ∧
    (s.permits h 28675 false 3 → Answers (exec (.prRdata h) s) fun u => u.parish.rptr = (s.parish.rptr + 1) % 16384) ∧
    (s.hostOk → Answers (exec .phRdata s) fun u => u.parish.hptr = (s.parish.hptr + 1) % 16384) ∧
    (s.permits h 28673 true 3 → Answers (exec (.prCtrl h data) s) fun u =>
      u.parish.snapshot = data.getLsbD 17 ∧ u.parish.thresh = data.toNat % 2 ^ 16) ∧
    (s.parish.line ≠ [] → (s.parish.archLine + 1) % 256 ≠ 1 → s.flash.marked = [] →
      Answers (exec .archiveFlush s) fun u => u.parish.line = [] ∧
        u.parish.archLine = (s.parish.archLine + 1) % 1024)
end

