-- ==== Sys2Proof/Laws/Aes.lean ====
section
/-!
SUPPORT. Sys2Proof/Laws/Aes.lean: the inverse cipher undoes the cipher (FIPS 197) on
16-octet blocks, and what the key wraps seal they open (RFC 3394, RFC 5649).
-/
namespace Sys2Proof.Machine

theorem aesUnsub_aesSub : ∀ b : Byte, aesUnsub (aesSub b) = b := by decide +kernel

theorem aesMulBits_xor (n : Nat) (a b c : Byte) :
    aesMulBits n a (b ^^^ c) = aesMulBits n a b ^^^ aesMulBits n a c := by
  induction n generalizing a b c with
  | zero => simp [aesMulBits]
  | succ n ih =>
    simp only [aesMulBits, BitVec.ushiftRight_xor_distrib, ih, BitVec.getLsbD_xor]
    generalize aesMulBits n (aesX a) (b >>> 1) = u
    generalize aesMulBits n (aesX a) (c >>> 1) = v
    cases b.getLsbD 0 <;> cases c.getLsbD 0 <;> simp [← BitVec.xor_assoc, BitVec.xor_comm _ a]

theorem aesMul_xor (a b c : Byte) : aesMul a (b ^^^ c) = aesMul a b ^^^ aesMul a c := aesMulBits_xor 8 a b c

/-- The four sums of products that the two circulants make: one is the identity, three vanish. -/
theorem aesCirculant_0 : ∀ x : Byte, aesMul 14 (aesMul 2 x) ^^^ aesMul 11 (aesMul 1 x) ^^^ aesMul 13 (aesMul 1 x)
    ^^^ aesMul 9 (aesMul 3 x) = x := by decide +kernel
theorem aesCirculant_1 : ∀ x : Byte, aesMul 14 (aesMul 3 x) ^^^ aesMul 11 (aesMul 2 x) ^^^ aesMul 13 (aesMul 1 x)
    ^^^ aesMul 9 (aesMul 1 x) = 0 := by decide +kernel
theorem aesCirculant_2 : ∀ x : Byte, aesMul 14 (aesMul 1 x) ^^^ aesMul 11 (aesMul 3 x) ^^^ aesMul 13 (aesMul 2 x)
    ^^^ aesMul 9 (aesMul 1 x) = 0 := by decide +kernel
theorem aesCirculant_3 : ∀ x : Byte, aesMul 14 (aesMul 1 x) ^^^ aesMul 11 (aesMul 1 x) ^^^ aesMul 13 (aesMul 3 x)
    ^^^ aesMul 9 (aesMul 2 x) = 0 := by decide +kernel

theorem aesMul_zero : ∀ a : Byte, aesMul a 0 = 0 := by decide +kernel

/-- One octet of a column mixed and unmixed. -/
theorem aesRow_inverse (a b c d : Byte) :
    aesMul 14 (aesMul 2 a) ^^^ aesMul 11 (aesMul 1 a) ^^^ aesMul 13 (aesMul 1 a) ^^^ aesMul 9 (aesMul 3 a)
      ^^^ (aesMul 14 (aesMul 3 b) ^^^ aesMul 11 (aesMul 2 b) ^^^ aesMul 13 (aesMul 1 b) ^^^ aesMul 9 (aesMul 1 b))
      ^^^ (aesMul 14 (aesMul 1 c) ^^^ aesMul 11 (aesMul 3 c) ^^^ aesMul 13 (aesMul 2 c) ^^^ aesMul 9 (aesMul 1 c))
      ^^^ (aesMul 14 (aesMul 1 d) ^^^ aesMul 11 (aesMul 1 d) ^^^ aesMul 13 (aesMul 3 d) ^^^ aesMul 9 (aesMul 2 d))
      = a := by
  rw [aesCirculant_0, aesCirculant_1, aesCirculant_2, aesCirculant_3]
  simp

/-- One column mixed and unmixed. -/
theorem aesColumn_inverse (a b c d : Byte) :
    aesColumn [14, 11, 13, 9] (aesColumn [2, 3, 1, 1] [a, b, c, d]) = [a, b, c, d] := by
  have z : ∀ x : Byte, 0 ^^^ x = x := fun x => by simp
  simp only [aesColumn, List.range, List.range.loop, List.map, List.foldl, List.getD, List.getElem?_cons_zero,
    List.getElem?_cons_succ, Option.getD_some, z, Nat.reduceAdd, Nat.reduceSub, Nat.reduceMod, aesMul_xor]
  refine congr (congrArg _ (Eq.trans ?_ (aesRow_inverse a b c d))) (congr (congrArg _ (Eq.trans ?_
    (aesRow_inverse b c d a))) (congr (congrArg _ (Eq.trans ?_ (aesRow_inverse c d a b))) (congrArg (· :: [])
    (Eq.trans ?_ (aesRow_inverse d a b c))))) <;> ac_rfl

/-- A list of 16 entries, written out. -/
theorem octets16 (l : List Byte) (h : l.length = 16) : ∃ a0 a1 a2 a3 a4 a5 a6 a7 a8 a9 b0 b1 b2 b3 b4 b5,
    l = [a0, a1, a2, a3, a4, a5, a6, a7, a8, a9, b0, b1, b2, b3, b4, b5] := by
  match l, h with
  | [a0, a1, a2, a3, a4, a5, a6, a7, a8, a9, b0, b1, b2, b3, b4, b5], _ =>
    exact ⟨a0, a1, a2, a3, a4, a5, a6, a7, a8, a9, b0, b1, b2, b3, b4, b5, rfl⟩

theorem length_aesShift (l : List Byte) : (aesShift l).length = 16 := by simp [aesShift]
theorem length_aesUnshift (l : List Byte) : (aesUnshift l).length = 16 := by simp [aesUnshift]

theorem aesUnshift_aesShift (l : List Byte) (h : l.length = 16) : aesUnshift (aesShift l) = l := by
  obtain ⟨_, _, _, _, _, _, _, _, _, _, _, _, _, _, _, _, rfl⟩ := octets16 l h
  rfl

theorem aesUnmix_aesMix (l : List Byte) (h : l.length = 16) : aesUnmix (aesMix l) = l := by
  obtain ⟨a0, a1, a2, a3, a4, a5, a6, a7, a8, a9, b0, b1, b2, b3, b4, b5, rfl⟩ := octets16 l h
  have e (a b c d : Byte) := aesColumn_inverse a b c d
  have u : aesMix [a0, a1, a2, a3, a4, a5, a6, a7, a8, a9, b0, b1, b2, b3, b4, b5]
      = aesColumn [2, 3, 1, 1] [a0, a1, a2, a3] ++ (aesColumn [2, 3, 1, 1] [a4, a5, a6, a7]
      ++ (aesColumn [2, 3, 1, 1] [a8, a9, b0, b1] ++ (aesColumn [2, 3, 1, 1] [b2, b3, b4, b5] ++ []))) := rfl
  have v (p q r w : List Byte) (hp : p.length = 4) (hq : q.length = 4) (hr : r.length = 4) (hw : w.length = 4) :
      aesUnmix (p ++ (q ++ (r ++ (w ++ [])))) = aesColumn [14, 11, 13, 9] p ++ (aesColumn [14, 11, 13, 9] q
      ++ (aesColumn [14, 11, 13, 9] r ++ (aesColumn [14, 11, 13, 9] w ++ []))) := by
    match p, q, r, w, hp, hq, hr, hw with
    | [_, _, _, _], [_, _, _, _], [_, _, _, _], [_, _, _, _], _, _, _, _ => rfl
  rw [u, v _ _ _ _ rfl rfl rfl rfl, e, e, e, e]
  rfl

theorem length_aesMix (l : List Byte) (h : l.length = 16) : (aesMix l).length = 16 := by
  obtain ⟨_, _, _, _, _, _, _, _, _, _, _, _, _, _, _, _, rfl⟩ := octets16 l h
  rfl

theorem xorOctets_cancel (l k : List Byte) (h : l.length ≤ k.length) : xorOctets (xorOctets l k) k = l := by
  induction l generalizing k with
  | nil => simp [xorOctets]
  | cons a l ih =>
    match k, h with
    | b :: k, h =>
      show ((a ^^^ b) ^^^ b) :: xorOctets (xorOctets l k) k = a :: l
      rw [BitVec.xor_assoc, BitVec.xor_self, BitVec.xor_zero, ih k (Nat.le_of_succ_le_succ h)]

theorem length_xorOctets (l k : List Byte) : (xorOctets l k).length = min l.length k.length := by simp [xorOctets]

/-- A last round and a middle round undone. -/
theorem aesLast_inverse (l k : List Byte) (h : l.length = 16) (hk : k.length = 16) :
    (aesUnshift (xorOctets (xorOctets (aesShift (l.map aesSub)) k) k)).map aesUnsub = l := by
  rw [xorOctets_cancel _ _ (by simp [length_aesShift, hk]), aesUnshift_aesShift _ (by simp [h])]
  simp [Function.comp_def, aesUnsub_aesSub]

/-- What the middle rounds make of a block, oldest key first, the state before the last round. -/
def aesMiddle (ks : List (List Byte)) (l : List Byte) : List Byte :=
  ks.foldl (fun l k => xorOctets (aesMix (aesShift (l.map aesSub))) k) l

theorem length_aesMiddle (ks : List (List Byte)) (l : List Byte) (h : l.length = 16) (hk : ∀ k ∈ ks, k.length = 16) :
    (aesMiddle ks l).length = 16 := by
  induction ks generalizing l with
  | nil => exact h
  | cons k ks ih =>
    refine ih _ ?_ fun x hx => hk x (List.mem_cons_of_mem _ hx)
    rw [length_xorOctets, length_aesMix _ (length_aesShift _), hk k (List.mem_cons_self ..)]
    rfl

theorem aesEncRounds_append (ks : List (List Byte)) (k l : List Byte) :
    aesEncRounds (ks ++ [k]) l = xorOctets (aesShift ((aesMiddle ks l).map aesSub)) k := by
  induction ks generalizing l with
  | nil => rfl
  | cons q ks ih =>
    have : aesEncRounds (q :: (ks ++ [k])) l
        = aesEncRounds (ks ++ [k]) (xorOctets (aesMix (aesShift (l.map aesSub))) q) := by
      cases ks <;> rfl
    rw [List.cons_append, this, ih]
    rfl

/-- The inverse rounds from just after the first key addition, first key last. -/
theorem aesDecRounds_middle (ks : List (List Byte)) (first l : List Byte) (h : l.length = 16)
    (hk : ∀ k ∈ ks, k.length = 16) :
    aesDecRounds (ks.reverse ++ [first]) (aesShift ((aesMiddle ks l).map aesSub)) = xorOctets l first := by
  obtain ⟨r, rfl⟩ : ∃ r, ks = r.reverse := ⟨ks.reverse, by simp⟩
  induction r with
  | nil =>
    simp only [List.reverse_nil, List.nil_append, aesDecRounds, aesMiddle, List.foldl_nil]
    rw [aesUnshift_aesShift _ (by simp [h])]
    simp [Function.comp_def, aesUnsub_aesSub]
  | cons k r ih =>
    rw [List.reverse_cons] at hk ⊢
    generalize r.reverse = ks at *
    have hks : ∀ x ∈ ks, x.length = 16 := fun x hx => hk x (List.mem_append_left _ hx)
    have hm := length_aesMiddle ks l h hks
    have hkk : k.length = 16 := hk k (by simp)
    have e : aesMiddle (ks ++ [k]) l = xorOctets (aesMix (aesShift ((aesMiddle ks l).map aesSub))) k := by
      simp [aesMiddle]
    have hx := length_aesMix _ (length_aesShift ((aesMiddle ks l).map aesSub))
    rw [List.reverse_append, e]
    have d : ∀ x, aesDecRounds (k :: (ks.reverse ++ [first])) x
        = aesDecRounds (ks.reverse ++ [first]) (aesUnmix (xorOctets ((aesUnshift x).map aesUnsub) k)) := by
      intro x
      cases ks.reverse <;> rfl
    simp only [List.reverse_cons, List.reverse_nil, List.nil_append, List.cons_append]
    rw [d, aesUnshift_aesShift _ (by simp [length_xorOctets, hx, hkk])]
    simp only [List.map_map, Function.comp_def, aesUnsub_aesSub, List.map_id']
    rw [xorOctets_cancel _ _ (by simp [hx, hkk]), aesUnmix_aesMix _ (length_aesShift _)]
    exact ih hks

/-- A cipher with at least two round keys, all of 16 octets, is undone by the inverse cipher. -/
theorem aesDec_aesEnc (key b : List Byte) (hb : b.length = 16) (hn : 2 ≤ (aesKeys key).length)
    (hk : ∀ k ∈ aesKeys key, k.length = 16) : aesDec key (aesEnc key b) = b := by
  unfold aesDec aesEnc
  generalize aesKeys key = ks at *
  match ks, hn with
  | first :: rest, hn =>
    obtain ⟨mid, last, rfl⟩ : ∃ mid last, rest = mid ++ [last] :=
      ⟨rest.dropLast, rest.getLast (by rintro rfl; simp at hn), (List.dropLast_concat_getLast _).symm⟩
    have hf : first.length = 16 := hk first (by simp)
    have hl : last.length = 16 := hk last (by simp)
    have hm : ∀ k ∈ mid, k.length = 16 := fun k h => hk k (by simp [h])
    have hx : (xorOctets b first).length = 16 := by simp [length_xorOctets, hb, hf]
    simp only [List.reverse_cons, List.reverse_append, List.reverse_nil, List.nil_append, List.cons_append,
      aesEncRounds_append]
    rw [xorOctets_cancel _ _ (by simp [length_aesShift, hl]), aesDecRounds_middle _ _ _ hx hm]
    exact xorOctets_cancel _ _ (by simp [hb, hf])

/-- A block enciphered is 16 octets. -/
theorem length_aesEnc (key b : List Byte) (hn : 2 ≤ (aesKeys key).length)
    (hk : ∀ k ∈ aesKeys key, k.length = 16) : (aesEnc key b).length = 16 := by
  unfold aesEnc
  generalize aesKeys key = ks at *
  match ks, hn with
  | first :: rest, hn =>
    obtain ⟨mid, last, rfl⟩ : ∃ mid last, rest = mid ++ [last] :=
      ⟨rest.dropLast, rest.getLast (by rintro rfl; simp at hn), (List.dropLast_concat_getLast _).symm⟩
    simp only [aesEncRounds_append, length_xorOctets, length_aesShift, hk last (by simp)]
    rfl

/-! ### Pieces and octets -/

theorem chunksAux_append {α : Type} (n : Nat) (p l : List α) (fuel : Nat) (hn : 0 < n) (hp : p.length = n) :
    chunksAux n (fuel + 1) (p ++ l) = p :: chunksAux n fuel l := by
  match p, hp with
  | [], hp => simp at hp; omega
  | a :: p, hp =>
    show ((a :: p) ++ l).take n :: chunksAux n fuel (((a :: p) ++ l).drop n) = _
    rw [List.take_left' hp, List.drop_left' hp]

theorem chunksAux_flatten {α : Type} (n : Nat) (hn : 0 < n) (ps : List (List α)) (fuel : Nat)
    (h : ∀ p ∈ ps, p.length = n) (hf : ps.length ≤ fuel) : chunksAux n fuel ps.flatten = ps := by
  induction ps generalizing fuel with
  | nil => cases fuel <;> rfl
  | cons p ps ih =>
    match fuel, hf with
    | fuel + 1, hf =>
      rw [List.flatten_cons, chunksAux_append n p _ _ hn (h p (by simp)),
        ih _ (fun q hq => h q (by simp [hq])) (by simpa using hf)]

theorem length_flatten_pieces {α : Type} (n : Nat) (ps : List (List α)) (h : ∀ p ∈ ps, p.length = n) :
    ps.flatten.length = n * ps.length := by
  induction ps with
  | nil => rfl
  | cons p ps ih =>
    rw [List.flatten_cons, List.length_append, h p (by simp), ih fun q hq => h q (by simp [hq]), List.length_cons,
      Nat.mul_succ, Nat.add_comm]

/-- Pieces of n put end to end are cut into those pieces. -/
theorem chunks_flatten {α : Type} (n : Nat) (hn : 0 < n) (ps : List (List α)) (h : ∀ p ∈ ps, p.length = n) :
    chunks n ps.flatten = ps := by
  refine chunksAux_flatten n hn ps _ h ?_
  rw [length_flatten_pieces n ps h]
  exact Nat.le_mul_of_pos_left _ hn

theorem chunksAux_pieces {α : Type} (n : Nat) (hn : 0 < n) (m : Nat) (l : List α) (fuel : Nat)
    (h : l.length = n * m) (hf : m ≤ fuel) :
    (chunksAux n fuel l).flatten = l ∧ (chunksAux n fuel l).length = m ∧ ∀ p ∈ chunksAux n fuel l, p.length = n := by
  induction m generalizing l fuel with
  | zero =>
    have : l = [] := List.length_eq_zero_iff.mp (by simpa using h)
    subst this
    cases fuel <;> simp [chunksAux]
  | succ m ih =>
    match fuel, hf with
    | fuel + 1, hf =>
      have hl : n ≤ l.length := by rw [h]; exact Nat.le_mul_of_pos_right _ (by omega)
      have ht : (l.take n).length = n := by simp; omega
      have hd : (l.drop n).length = n * m := by rw [List.length_drop, h, Nat.mul_succ]; omega
      obtain ⟨a, b, c⟩ := ih (l.drop n) fuel hd (by omega)
      have e : chunksAux n (fuel + 1) l = l.take n :: chunksAux n fuel (l.drop n) := by
        have := chunksAux_append n (l.take n) (l.drop n) fuel hn ht
        rwa [List.take_append_drop] at this
      rw [e]
      refine ⟨by simp [a], by simp [b], ?_⟩
      intro p hp
      rcases List.mem_cons.mp hp with rfl | hp
      · exact ht
      · exact c p hp

/-- A list of m pieces of n entries, cut and put together again. -/
theorem chunks_pieces {α : Type} (n : Nat) (hn : 0 < n) (m : Nat) (l : List α) (h : l.length = n * m) :
    (chunks n l).flatten = l ∧ (chunks n l).length = m ∧ ∀ p ∈ chunks n l, p.length = n :=
  chunksAux_pieces n hn m l _ h (by rw [h]; exact Nat.le_mul_of_pos_left _ hn)

theorem beNat_append_one (bs : List Byte) (b : Byte) : beNat (bs ++ [b]) = beNat bs * 256 + b.toNat := by
  simp [beNat]

theorem beNat_acc (bs : List Byte) (a : Nat) :
    bs.foldl (fun a b => a * 256 + b.toNat) a = a * 256 ^ bs.length + beNat bs := by
  induction bs generalizing a with
  | nil => simp [beNat]
  | cons b bs ih =>
    simp only [beNat, List.foldl_cons] at ih ⊢
    rw [ih, ih (0 * 256 + b.toNat), List.length_cons, Nat.pow_succ, Nat.add_mul]
    simp only [Nat.zero_mul, Nat.zero_add, Nat.mul_assoc, Nat.mul_comm 256, Nat.add_assoc]

theorem beNat_cons (b : Byte) (bs : List Byte) : beNat (b :: bs) = b.toNat * 256 ^ bs.length + beNat bs := by
  have := beNat_acc bs (0 * 256 + b.toNat)
  simpa [beNat] using this

theorem beNat_lt (bs : List Byte) : beNat bs < 256 ^ bs.length := by
  induction bs with
  | nil => simp [beNat]
  | cons b bs ih =>
    rw [beNat_cons, List.length_cons, Nat.pow_succ]
    have := b.isLt
    have h : b.toNat * 256 ^ bs.length ≤ 255 * 256 ^ bs.length := Nat.mul_le_mul_right _ (by omega)
    omega

/-- Octets as a number and back. -/
theorem beOctets_beNat (bs : List Byte) : beOctets bs.length (beNat bs) = bs := by
  suffices h : ∀ (bs : List Byte) (k : Nat), beOctets bs.length (k * 256 ^ bs.length + beNat bs) = bs by
    simpa using h bs 0
  intro bs
  induction bs with
  | nil => intro k; rfl
  | cons b bs ih =>
    intro k
    have hl := beNat_lt bs
    have hp : (2 : Nat) ^ (8 * bs.length) = 256 ^ bs.length := by rw [Nat.pow_mul]
    simp only [List.length_cons, beOctets, beNat_cons]
    have e : k * 256 ^ (bs.length + 1) + (b.toNat * 256 ^ bs.length + beNat bs)
        = (k * 256 + b.toNat) * 256 ^ bs.length + beNat bs := by
      rw [Nat.pow_succ, Nat.add_mul, Nat.mul_comm (256 ^ bs.length) 256, ← Nat.mul_assoc]; omega
    rw [e, ih (k * 256 + b.toNat)]
    congr 1
    apply BitVec.eq_of_toNat_eq
    rw [Nat.shiftRight_eq_div_pow, hp, BitVec.toNat_ofNat, Nat.mul_comm _ (256 ^ bs.length),
      Nat.mul_add_div (Nat.pos_of_ne_zero (by intro h; rw [h] at hl; omega)), Nat.div_eq_of_lt hl]
    have := b.isLt
    omega

theorem length_beOctets (n x : Nat) : (beOctets n x).length = n := by
  induction n generalizing x with
  | zero => rfl
  | succ n ih => simp [beOctets, ih]

theorem beNat_beOctets (n x : Nat) (h : x < 256 ^ n) : beNat (beOctets n x) = x := by
  induction n generalizing x with
  | zero => simp at h; simp [beOctets, beNat, h]
  | succ n ih =>
    have hp : (2 : Nat) ^ (8 * n) = 256 ^ n := by rw [Nat.pow_mul]
    have ho : ∀ y, beOctets n y = beOctets n (y % 256 ^ n) := by
      intro y
      have hm := Nat.mod_add_div y (256 ^ n)
      have hb := beOctets_beNat (beOctets n y)
      rw [length_beOctets] at hb
      clear hm
      have key : ∀ (m : Nat) (a b : Nat), a % 256 ^ m = b % 256 ^ m → beOctets m a = beOctets m b := by
        intro m
        induction m with
        | zero => intros; rfl
        | succ m ihm =>
          intro a b hab
          have hpm : (2 : Nat) ^ (8 * m) = 256 ^ m := by rw [Nat.pow_mul]
          have hd : a % 256 ^ m = b % 256 ^ m := by
            have := congrArg (· % 256 ^ m) hab
            simpa [Nat.pow_succ, Nat.mod_mul_right_mod] using this
          simp only [beOctets]
          rw [ihm a b hd]
          congr 1
          apply BitVec.eq_of_toNat_eq
          simp only [BitVec.toNat_ofNat, Nat.shiftRight_eq_div_pow, hpm]
          have h1 := Nat.mod_mul_right_div_self a (256 ^ m) 256
          have h2 := Nat.mod_mul_right_div_self b (256 ^ m) 256
          rw [Nat.pow_succ] at hab
          rw [show (2 : Nat) ^ 8 = 256 from rfl, ← h1, ← h2, hab]
      exact key n y _ (by rw [Nat.mod_mod])
    have hpos : 0 < 256 ^ n := Nat.pos_of_ne_zero (by simp)
    simp only [beOctets, beNat_cons, length_beOctets]
    rw [ho x, ih _ (Nat.mod_lt _ hpos), BitVec.toNat_ofNat, Nat.shiftRight_eq_div_pow, hp, Nat.mod_eq_of_lt]
    · exact Nat.div_add_mod' x (256 ^ n)
    · rw [Nat.pow_succ, Nat.mul_comm] at h
      exact Nat.div_lt_of_lt_mul (by simpa [Nat.mul_comm] using h)

/-! ### The key wraps -/

/-- A key under which the cipher is a permutation of blocks. -/
def aesKeyOk (key : List Byte) : Prop := 2 ≤ (aesKeys key).length ∧ ∀ k ∈ aesKeys key, k.length = 16

/-- A wrapping state: an 8-octet value and pieces of 8 octets. -/
def kwShape (st : List Byte × List (List Byte)) : Prop := st.1.length = 8 ∧ ∀ r ∈ st.2, r.length = 8

theorem kwStep_shape (key : List Byte) (hk : aesKeyOk key) (st : List Byte × List (List Byte)) (t : Nat)
    (h : kwShape st) : kwShape (kwStep key st t) ∧ (kwStep key st t).2.length = st.2.length := by
  obtain ⟨a, rs⟩ := st
  match rs with
  | [] => exact ⟨h, rfl⟩
  | r :: rs =>
    have hb := length_aesEnc key (a ++ r) hk.1 hk.2
    refine ⟨⟨?_, ?_⟩, by simp [kwStep]⟩
    · simp [kwStep, length_xorOctets, length_beOctets, hb]
    · intro q hq
      simp only [kwStep, List.mem_append, List.mem_singleton] at hq
      rcases hq with hq | rfl
      · exact h.2 q (by simp [hq])
      · simp [hb]

theorem kwUnstep_kwStep (key : List Byte) (hk : aesKeyOk key) (st : List Byte × List (List Byte)) (t : Nat)
    (h : kwShape st) : kwUnstep key (kwStep key st t) t = st := by
  obtain ⟨a, rs⟩ := st
  match rs with
  | [] => rfl
  | r :: rs =>
    have ha : a.length = 8 := h.1
    have hr : r.length = 8 := h.2 r (by simp)
    have hb := length_aesEnc key (a ++ r) hk.1 hk.2
    have hd := aesDec_aesEnc key (a ++ r) (by simp [ha, hr]) hk.1 hk.2
    simp only [kwStep, kwUnstep, List.reverse_append, List.reverse_cons, List.reverse_nil, List.nil_append,
      List.cons_append, List.reverse_reverse]
    rw [xorOctets_cancel _ _ (by simp [hb, length_beOctets]), List.take_append_drop, hd, List.take_left' ha,
      List.drop_left' ha]

theorem kwSteps_shape (key : List Byte) (hk : aesKeyOk key) (ts : List Nat) (st : List Byte × List (List Byte))
    (h : kwShape st) : kwShape (ts.foldl (kwStep key) st) ∧ (ts.foldl (kwStep key) st).2.length = st.2.length := by
  induction ts generalizing st with
  | nil => exact ⟨h, rfl⟩
  | cons t ts ih =>
    have s := kwStep_shape key hk st t h
    have := ih _ s.1
    exact ⟨this.1, this.2.trans s.2⟩

theorem kwUnsteps_kwSteps (key : List Byte) (hk : aesKeyOk key) (ts : List Nat)
    (st : List Byte × List (List Byte)) (h : kwShape st) :
    ts.reverse.foldl (kwUnstep key) (ts.foldl (kwStep key) st) = st := by
  induction ts generalizing st with
  | nil => rfl
  | cons t ts ih =>
    rw [List.reverse_cons, List.foldl_append, List.foldl_cons, List.foldl_nil, List.foldl_cons,
      ih _ (kwStep_shape key hk st t h).1]
    exact kwUnstep_kwStep key hk st t h

/-- What is wrapped comes out again, with its initial value. -/
theorem kwUnwrap_kwWrap (key : List Byte) (hk : aesKeyOk key) (iv p : List Byte) (m : Nat) (hi : iv.length = 8)
    (hp : p.length = 8 * m) : kwUnwrap key (kwWrap key iv p) = (iv, p) ∧ (kwWrap key iv p).length = 8 + 8 * m := by
  obtain ⟨h1, h2, h3⟩ := chunks_pieces 8 (by omega) m p hp
  have hs : kwShape (iv, chunks 8 p) := ⟨hi, h3⟩
  have e := kwSteps_shape key hk ((List.range (6 * (chunks 8 p).length)).map (· + 1)) _ hs
  have r := kwUnsteps_kwSteps key hk ((List.range (6 * (chunks 8 p).length)).map (· + 1)) _ hs
  unfold kwUnwrap kwWrap
  simp only
  generalize ((List.range (6 * (chunks 8 p).length)).map (· + 1)).foldl (kwStep key) (iv, chunks 8 p) = st at *
  have hc : chunks 8 ((st.1 ++ st.2.flatten).drop 8) = st.2 := by
    rw [List.drop_left' e.1.1]
    exact chunks_flatten 8 (by omega) _ e.1.2
  have hl : st.2.length = m := e.2.trans h2
  have ho : (List.range (6 * m)).map (fun i => 6 * m - i) = ((List.range (6 * m)).map (· + 1)).reverse := by
    apply List.ext_getElem (by simp)
    intro i _ _
    simp
    simp at *
    omega
  rw [h2] at r
  rw [hc, hl, List.take_left' e.1.1, ho, r]
  exact ⟨by simp [h1], by simp [e.1.1, length_flatten_pieces 8 _ e.1.2, hl]⟩

/-- RFC 5649: what is wrapped with padding comes out again. -/
theorem kwpOpen_kwpSeal (key : List Byte) (hk : aesKeyOk key) (p : List Byte) (m : Nat) (hm : 2 ≤ m)
    (h1 : 8 * m < p.length + 8) (h2 : p.length ≤ 8 * m) (h3 : p.length < 2 ^ 32) :
    kwpOpen key (kwpSeal key p) = some p ∧ (kwpSeal key p).length = 8 + 8 * m := by
  have hq : (padTo ((p.length + 7) / 8 * 8) p).length = 8 * m := by simp [padTo]; omega
  have hu := kwUnwrap_kwWrap key hk ([0xA6#8, 0x59#8, 0x59#8, 0xA6#8] ++ beOctets 4 p.length) _ m
    (by simp [length_beOctets]) hq
  have hs : kwpSeal key p = kwWrap key ([0xA6#8, 0x59#8, 0x59#8, 0xA6#8] ++ beOctets 4 p.length)
      (padTo ((p.length + 7) / 8 * 8) p) := by
    unfold kwpSeal
    rw [if_neg (by rw [hq]; omega)]
  rw [hs]
  refine ⟨?_, hu.2⟩
  have hc : ¬ (kwWrap key ([0xA6#8, 0x59#8, 0x59#8, 0xA6#8] ++ beOctets 4 p.length)
      (padTo ((p.length + 7) / 8 * 8) p)).length = 16 := by rw [hu.2]; omega
  simp only [kwpOpen, if_neg hc, hu.1]
  have hn : beNat (([0xA6#8, 0x59#8, 0x59#8, 0xA6#8] ++ beOctets 4 p.length).drop 4) = p.length := by
    exact beNat_beOctets 4 p.length (by simpa using h3)
  have ht : (padTo ((p.length + 7) / 8 * 8) p).take p.length = p := List.take_left' rfl
  have hd : (padTo ((p.length + 7) / 8 * 8) p).drop p.length
      = List.replicate ((p.length + 7) / 8 * 8 - p.length) 0#8 := List.drop_left' rfl
  simp only [hn, ht, hd, hq]
  rw [if_pos]
  refine ⟨rfl, by omega, by omega, ?_⟩
  simp

/-- A CMAC is a block. -/
theorem length_aesCmac (key m : List Byte) (hk : aesKeyOk key) : (aesCmac key m).length = 16 := by
  simp only [aesCmac, cbcMac, List.foldl_append, List.foldl_cons, List.foldl_nil]
  exact length_aesEnc _ _ hk.1 hk.2

/-- Octets packed loosely come out again. -/
theorem packOut_packIn_loose (m : Nat) (bs : List Byte) (h : bs.length = 4 * m) :
    packOut .loose (packIn .loose bs) (4 * m) = bs ∧ (packIn .loose bs).length = m := by
  obtain ⟨h1, h2, h3⟩ := chunks_pieces 4 (by omega) m bs h
  have e : ∀ (cs : List (List Byte)), (∀ c ∈ cs, c.length = 4) →
      (cs.map fun c => wd (beNat (padTo 4 c))).flatMap (fun (w : Word) => beOctets 4 (w.toNat % 2 ^ 32))
        = cs.flatten := by
    intro cs hc
    induction cs with
    | nil => rfl
    | cons c cs ih =>
      have hl : c.length = 4 := hc c (by simp)
      have hp : padTo 4 c = c := by simp [padTo, hl]
      have hb := beNat_lt c
      have ho := beOctets_beNat c
      rw [hl] at hb ho
      rw [List.map_cons, List.flatMap_cons, ih fun q hq => hc q (by simp [hq]), List.flatten_cons, hp]
      congr 1
      have : (wd (beNat c)).toNat % 2 ^ 32 = beNat c := by
        simp only [wd, BitVec.toNat_ofNat]
        omega
      rw [this, ho]
  refine ⟨?_, by simp [packIn, h2]⟩
  unfold packOut packIn
  simp only
  rw [e _ h3, h1, ← h, List.take_length]

end Sys2Proof.Machine
end

