-- ==== Sys2Proof/Laws/Assoc.lean ====
section
/-!
SUPPORT. Sys2Proof/Laws/Assoc.lean: a read after a write of a numbered store, and that every operation
keeps the canonical form.
-/
namespace Sys2Proof.Machine

variable {α : Type}

/-! ### Reading what was written -/

@[simp] theorem afind_nil (k : Nat) : afind ([] : Assoc α) k = none := rfl

theorem afind_aput (m : Assoc α) (k j : Nat) (v : α) :
    afind (aput m k v) j = if k = j then some v else afind m j := by
  induction m with
  | nil => simp [aput, afind]
  | cons p m ih =>
    obtain ⟨k', v'⟩ := p
    unfold aput
    split
    · simp [afind]
    · split
      · rename_i h; subst h
        by_cases hj : k = j <;> simp [afind, hj]
      · rename_i h
        simp only [afind, ih]
        by_cases hj : k' = j
        · subst hj; simp [h]
        · simp [hj]

theorem afind_aerase (m : Assoc α) (k j : Nat) : afind (aerase m k) j = if k = j then none else afind m j := by
  induction m with
  | nil => simp [aerase]
  | cons p m ih =>
    obtain ⟨k', v'⟩ := p
    simp only [aerase] at ih ⊢
    by_cases h : k' = k
    · subst h
      simp only [ne_eq, not_true_eq_false, decide_false, Bool.false_eq_true, not_false_eq_true,
        List.filter_cons_of_neg, ih, afind]
      by_cases hj : k' = j <;> simp [hj]
    · simp only [ne_eq, h, not_false_eq_true, decide_true, List.filter_cons_of_pos, afind, ih]
      by_cases hj : k' = j
      · subst hj; simp [Ne.symm h]
      · simp [hj]

/-- The value under a key just stored, and under every other key. -/
theorem aget_aput (d : α) (m : Assoc α) (k j : Nat) (v : α) :
    aget d (aput m k v) j = if k = j then v else aget d m j := by
  simp only [aget, afind_aput]; split <;> rfl

theorem aget_aset [DecidableEq α] (d : α) (m : Assoc α) (k j : Nat) (v : α) :
    aget d (aset d m k v) j = if k = j then v else aget d m j := by
  unfold aset
  split
  · rename_i h; subst h
    simp only [aget, afind_aerase]; split <;> rfl
  · exact aget_aput d m k j v

theorem aget_amod (d : α) (m : Assoc α) (k j : Nat) (f : α → α) :
    aget d (amod d m k f) j = if k = j then f (aget d m k) else aget d m j := aget_aput d m k j _

@[simp] theorem aget_aset_self [DecidableEq α] (d : α) (m : Assoc α) (k : Nat) (v : α) :
    aget d (aset d m k v) k = v := by simp [aget_aset]

@[simp] theorem aget_aput_self (d : α) (m : Assoc α) (k : Nat) (v : α) : aget d (aput m k v) k = v := by
  simp [aget_aput]

theorem aget_aset_ne [DecidableEq α] (d : α) (m : Assoc α) {k j : Nat} (v : α) (h : k ≠ j) :
    aget d (aset d m k v) j = aget d m j := by simp [aget_aset, h]

theorem aget_aput_ne (d : α) (m : Assoc α) {k j : Nat} (v : α) (h : k ≠ j) :
    aget d (aput m k v) j = aget d m j := by simp [aget_aput, h]

/-! ### The canonical form -/

/-- `keysWf` as a pairwise order of the keys. -/
theorem keysWf_iff (m : Assoc α) : keysWf m = true ↔ m.Pairwise fun a b => a.1 < b.1 := by
  induction m with
  | nil => simp [keysWf]
  | cons p m ih =>
    cases m with
    | nil => simp [keysWf]
    | cons q m =>
      simp only [keysWf, Bool.and_eq_true, decide_eq_true_eq, ih, List.pairwise_cons]
      constructor
      · rintro ⟨h1, h2, h3⟩
        refine ⟨?_, h2, h3⟩
        intro r hr
        rcases List.mem_cons.mp hr with rfl | hr
        · exact h1
        · exact Nat.lt_trans h1 (h2 r hr)
      · rintro ⟨h1, h2, h3⟩
        exact ⟨h1 q (List.mem_cons_self ..), h2, h3⟩

/-- `memWf` is `keysWf` with no value equal to the default. -/
theorem memWf_iff [DecidableEq α] (d : α) (m : Assoc α) :
    memWf d m = true ↔ (m.Pairwise fun a b => a.1 < b.1) ∧ ∀ p ∈ m, p.2 ≠ d := by
  rw [← keysWf_iff]
  induction m with
  | nil => simp [memWf, keysWf]
  | cons p m ih =>
    cases m with
    | nil => simp [memWf, keysWf]
    | cons q m =>
      simp only [memWf, keysWf, Bool.and_eq_true, decide_eq_true_eq, ih, List.forall_mem_cons]
      constructor
      · rintro ⟨⟨h1, h2⟩, h3, h4, h5⟩; exact ⟨⟨h2, h3⟩, h1, h4, h5⟩
      · rintro ⟨⟨h2, h3⟩, h1, h4, h5⟩; exact ⟨⟨h1, h2⟩, h3, h4, h5⟩

theorem mem_aput {m : Assoc α} {k : Nat} {v : α} {p : Nat × α} (h : p ∈ aput m k v) : p = (k, v) ∨ p ∈ m := by
  induction m with
  | nil => simpa [aput] using h
  | cons q m ih =>
    unfold aput at h
    split at h
    · simpa using h
    · split at h
      · rcases List.mem_cons.mp h with h | h
        · exact .inl h
        · exact .inr (List.mem_cons_of_mem _ h)
      · rcases List.mem_cons.mp h with h | h
        · exact .inr (h ▸ List.mem_cons_self ..)
        · exact (ih h).imp id (List.mem_cons_of_mem _)

theorem pairwise_aput {m : Assoc α} (k : Nat) (v : α) (h : m.Pairwise fun a b => a.1 < b.1) :
    (aput m k v).Pairwise fun a b => a.1 < b.1 := by
  induction m with
  | nil => simp [aput]
  | cons q m ih =>
    obtain ⟨k', v'⟩ := q
    rw [List.pairwise_cons] at h
    unfold aput
    split
    · rename_i hk
      refine List.pairwise_cons.mpr ⟨?_, List.pairwise_cons.mpr h⟩
      intro r hr
      rcases List.mem_cons.mp hr with rfl | hr
      · exact hk
      · exact Nat.lt_trans hk (h.1 r hr)
    · split
      · rename_i hk; subst hk
        exact List.pairwise_cons.mpr h
      · rename_i h1 h2
        refine List.pairwise_cons.mpr ⟨?_, ih h.2⟩
        intro r hr
        rcases mem_aput hr with rfl | hr
        · show k' < k
          omega
        · exact h.1 r hr

theorem keysWf_aput {m : Assoc α} (k : Nat) (v : α) (h : keysWf m = true) : keysWf (aput m k v) = true :=
  (keysWf_iff _).mpr (pairwise_aput k v ((keysWf_iff m).mp h))

theorem keysWf_aerase {m : Assoc α} (k : Nat) (h : keysWf m = true) : keysWf (aerase m k) = true :=
  (keysWf_iff _).mpr (((keysWf_iff m).mp h).filter _)

theorem keysWf_amod {m : Assoc α} (d : α) (k : Nat) (f : α → α) (h : keysWf m = true) :
    keysWf (amod d m k f) = true := keysWf_aput k _ h

/-- Writing a word keeps a memory canonical. -/
theorem memWf_aset [DecidableEq α] {d : α} {m : Assoc α} (k : Nat) (v : α) (h : memWf d m = true) :
    memWf d (aset d m k v) = true := by
  rw [memWf_iff] at h ⊢
  unfold aset
  split
  · exact ⟨h.1.filter _, fun p hp => h.2 p (List.mem_filter.mp hp).1⟩
  · rename_i hv
    refine ⟨pairwise_aput k v h.1, fun p hp => ?_⟩
    rcases mem_aput hp with rfl | hp
    · exact hv
    · exact h.2 p hp

/-- Writing a run of words keeps a memory canonical. -/
theorem memWf_asetRun [DecidableEq α] {d : α} {m : Assoc α} (k : Nat) (vs : List α) (h : memWf d m = true) :
    memWf d (asetRun d m k vs) = true := by
  induction vs generalizing m k with
  | nil => exact h
  | cons v vs ih => exact ih (k + 1) (memWf_aset k v h)

/-- Values listed one after another from an address. -/
theorem afind_cells (l : List α) (b n k : Nat) :
    afind (List.zipWith (fun i o => (b + i, o)) (List.range' n l.length) l) k =
      if b + n ≤ k then l[k - (b + n)]? else none := by
  induction l generalizing n with
  | nil => simp
  | cons a l ih =>
    simp only [List.length_cons, List.range'_succ, List.zipWith_cons_cons, afind, ih]
    split
    · next h => subst h; simp
    · next h =>
      by_cases hk : b + n ≤ k
      · rw [if_pos (show b + (n + 1) ≤ k by omega), if_pos hk,
          show k - (b + n) = (k - (b + (n + 1))) + 1 by omega, List.getElem?_cons_succ]
      · rw [if_neg hk, if_neg (by omega)]

/-- They read back, and an address past them reads the default. -/
theorem agetRun_cells (d : α) (l : List α) (b : Nat) :
    agetRun d (List.zipWith (fun i o => (b + i, o)) (List.range l.length) l) b l.length = l := by
  rw [List.range_eq_range']
  apply List.ext_getElem (by simp [agetRun])
  intro i h1 h2
  simp [agetRun, aget, afind_cells, h2]

theorem aget_cells_past (d : α) (l : List α) (b k : Nat) (h : b + l.length ≤ k) :
    aget d (List.zipWith (fun i o => (b + i, o)) (List.range l.length) l) k = d := by
  rw [List.range_eq_range', aget, afind_cells, if_pos (by omega), List.getElem?_eq_none (by omega)]
  rfl

end Sys2Proof.Machine
end

