-- ==== Sys2Proof/Laws/Dispatch.lean ====
section
/-!
SUPPORT. Sys2Proof/Laws/Dispatch.lean: each arm of exec is its command's meaning.
-/
namespace Sys2Proof.Machine

@[simp] theorem exec_nop (h : HandId) (s : State) : exec (.nop h) s = execNop h s := rfl
@[simp] theorem exec_mfence (h : HandId) (s : State) : exec (.mfence h) s = execMfence h s := rfl
@[simp] theorem exec_iofence (h : HandId) (s : State) : exec (.iofence h) s = execIofence h s := rfl
@[simp] theorem exec_pfence (h : HandId) (s : State) : exec (.pfence h) s = execPfence h s := rfl
@[simp] theorem exec_eret (h : HandId) (s : State) : exec (.eret h) s = execEret h s := rfl
@[simp] theorem exec_ret (h : HandId) (s : State) : exec (.ret h) s = execRet h s := rfl
@[simp] theorem exec_jr (h : HandId) (b : Reg) (s : State) : exec (.jr h b) s = execJr h b s := rfl
@[simp] theorem exec_callr (h : HandId) (b : Reg) (s : State) : exec (.callr h b) s = execCallr h b s := rfl
@[simp] theorem exec_mfs (h : HandId) (a c : Reg) (s : State) : exec (.mfs h a c) s = execMfs h a c s := rfl
@[simp] theorem exec_mts (h : HandId) (b c : Reg) (s : State) : exec (.mts h b c) s = execMts h b c s := rfl
@[simp] theorem exec_done (h : HandId) (a b : Reg) (s : State) : exec (.done h a b) s = execDone h a b s := rfl
@[simp] theorem exec_yield (h : HandId) (s : State) : exec (.yield h) s = execYield h s := rfl
@[simp] theorem exec_wait (h : HandId) (a b : Reg) (s : State) : exec (.wait h a b) s = execWait h a b s := rfl
@[simp] theorem exec_syscall (h : HandId) (b : Reg) (s : State) : exec (.syscall h b) s = execSyscall h b s := rfl
@[simp] theorem exec_brk (h : HandId) (s : State) : exec (.brk h) s = execBrk h s := rfl
@[simp] theorem exec_pkclr (h : HandId) (s : State) : exec (.pkclr h) s = execPkclr h s := rfl
@[simp] theorem exec_add (h : HandId) (a b c : Reg) (s : State) : exec (.add h a b c) s = execAdd h a b c s := rfl
@[simp] theorem exec_addv (h : HandId) (a b c : Reg) (s : State) : exec (.addv h a b c) s = execAddv h a b c s := rfl
@[simp] theorem exec_sub (h : HandId) (a b c : Reg) (s : State) : exec (.sub h a b c) s = execSub h a b c s := rfl
@[simp] theorem exec_subv (h : HandId) (a b c : Reg) (s : State) : exec (.subv h a b c) s = execSubv h a b c s := rfl
@[simp] theorem exec_adc (h : HandId) (a b c : Reg) (s : State) : exec (.adc h a b c) s = execAdc h a b c s := rfl
@[simp] theorem exec_sbc (h : HandId) (a b c : Reg) (s : State) : exec (.sbc h a b c) s = execSbc h a b c s := rfl
@[simp] theorem exec_and (h : HandId) (a b c : Reg) (s : State) : exec (.and h a b c) s = execAnd h a b c s := rfl
@[simp] theorem exec_or (h : HandId) (a b c : Reg) (s : State) : exec (.or h a b c) s = execOr h a b c s := rfl
@[simp] theorem exec_xor (h : HandId) (a b c : Reg) (s : State) : exec (.xor h a b c) s = execXor h a b c s := rfl
@[simp] theorem exec_andn (h : HandId) (a b c : Reg) (s : State) : exec (.andn h a b c) s = execAndn h a b c s := rfl
@[simp] theorem exec_sll (h : HandId) (a b c : Reg) (s : State) : exec (.sll h a b c) s = execSll h a b c s := rfl
@[simp] theorem exec_srl (h : HandId) (a b c : Reg) (s : State) : exec (.srl h a b c) s = execSrl h a b c s := rfl
@[simp] theorem exec_sra (h : HandId) (a b c : Reg) (s : State) : exec (.sra h a b c) s = execSra h a b c s := rfl
@[simp] theorem exec_ror (h : HandId) (a b c : Reg) (s : State) : exec (.ror h a b c) s = execRor h a b c s := rfl
@[simp] theorem exec_slt (h : HandId) (a b c : Reg) (s : State) : exec (.slt h a b c) s = execSlt h a b c s := rfl
@[simp] theorem exec_sltu (h : HandId) (a b c : Reg) (s : State) : exec (.sltu h a b c) s = execSltu h a b c s := rfl
@[simp] theorem exec_seq (h : HandId) (a b c : Reg) (s : State) : exec (.seq h a b c) s = execSeq h a b c s := rfl
@[simp] theorem exec_clz (h : HandId) (a b : Reg) (s : State) : exec (.clz h a b) s = execClz h a b s := rfl
@[simp] theorem exec_mul (h : HandId) (a b c : Reg) (s : State) : exec (.mul h a b c) s = execMul h a b c s := rfl
@[simp] theorem exec_mulh (h : HandId) (a b c : Reg) (s : State) : exec (.mulh h a b c) s = execMulh h a b c s := rfl
@[simp] theorem exec_mulhu (h : HandId) (a b c : Reg) (s : State) : exec (.mulhu h a b c) s = execMulhu h a b c s := rfl
@[simp] theorem exec_mulv (h : HandId) (a b c : Reg) (s : State) : exec (.mulv h a b c) s = execMulv h a b c s := rfl
@[simp] theorem exec_div (h : HandId) (a b c : Reg) (s : State) : exec (.div h a b c) s = execDiv h a b c s := rfl
@[simp] theorem exec_divu (h : HandId) (a b c : Reg) (s : State) : exec (.divu h a b c) s = execDivu h a b c s := rfl
@[simp] theorem exec_rem (h : HandId) (a b c : Reg) (s : State) : exec (.rem h a b c) s = execRem h a b c s := rfl
@[simp] theorem exec_remu (h : HandId) (a b c : Reg) (s : State) : exec (.remu h a b c) s = execRemu h a b c s := rfl
@[simp] theorem exec_dadd (h : HandId) (a b c : Reg) (s : State) : exec (.dadd h a b c) s = execDadd h a b c s := rfl
@[simp] theorem exec_dsub (h : HandId) (a b c : Reg) (s : State) : exec (.dsub h a b c) s = execDsub h a b c s := rfl
@[simp] theorem exec_dadc (h : HandId) (a b c : Reg) (s : State) : exec (.dadc h a b c) s = execDadc h a b c s := rfl
@[simp] theorem exec_dsbc (h : HandId) (a b c : Reg) (s : State) : exec (.dsbc h a b c) s = execDsbc h a b c s := rfl
@[simp] theorem exec_dcvtBd (h : HandId) (a b : Reg) (s : State) : exec (.dcvtBd h a b) s = execDcvtBd h a b s := rfl
@[simp] theorem exec_dcvtDb (h : HandId) (a b : Reg) (s : State) : exec (.dcvtDb h a b) s = execDcvtDb h a b s := rfl
@[simp] theorem exec_ext (h : HandId) (a b : Reg) (pos widthM1 : BitVec 6) (s : State) : exec (.ext h a b pos widthM1) s = execExt h a b pos widthM1 s := rfl
@[simp] theorem exec_ins (h : HandId) (a b : Reg) (pos widthM1 : BitVec 6) (s : State) : exec (.ins h a b pos widthM1) s = execIns h a b pos widthM1 s := rfl
@[simp] theorem exec_addi (h : HandId) (a b : Reg) (imm : Imm18) (s : State) : exec (.addi h a b imm) s = execAddi h a b imm s := rfl
@[simp] theorem exec_addiv (h : HandId) (a b : Reg) (imm : Imm18) (s : State) : exec (.addiv h a b imm) s = execAddiv h a b imm s := rfl
@[simp] theorem exec_andi (h : HandId) (a b : Reg) (imm : Imm18) (s : State) : exec (.andi h a b imm) s = execAndi h a b imm s := rfl
@[simp] theorem exec_ori (h : HandId) (a b : Reg) (imm : Imm18) (s : State) : exec (.ori h a b imm) s = execOri h a b imm s := rfl
@[simp] theorem exec_xori (h : HandId) (a b : Reg) (imm : Imm18) (s : State) : exec (.xori h a b imm) s = execXori h a b imm s := rfl
@[simp] theorem exec_lui (h : HandId) (a : Reg) (imm : Imm18) (s : State) : exec (.lui h a imm) s = execLui h a imm s := rfl
@[simp] theorem exec_slti (h : HandId) (a b : Reg) (imm : Imm18) (s : State) : exec (.slti h a b imm) s = execSlti h a b imm s := rfl
@[simp] theorem exec_sltiu (h : HandId) (a b : Reg) (imm : Imm18) (s : State) : exec (.sltiu h a b imm) s = execSltiu h a b imm s := rfl
@[simp] theorem exec_slli (h : HandId) (a b : Reg) (imm : Imm18) (s : State) : exec (.slli h a b imm) s = execSlli h a b imm s := rfl
@[simp] theorem exec_srli (h : HandId) (a b : Reg) (imm : Imm18) (s : State) : exec (.srli h a b imm) s = execSrli h a b imm s := rfl
@[simp] theorem exec_srai (h : HandId) (a b : Reg) (imm : Imm18) (s : State) : exec (.srai h a b imm) s = execSrai h a b imm s := rfl
@[simp] theorem exec_rori (h : HandId) (a b : Reg) (imm : Imm18) (s : State) : exec (.rori h a b imm) s = execRori h a b imm s := rfl
@[simp] theorem exec_ld (h : HandId) (a b : Reg) (imm : Imm18) (s : State) : exec (.ld h a b imm) s = execLd h a b imm s := rfl
@[simp] theorem exec_st (h : HandId) (a b : Reg) (imm : Imm18) (s : State) : exec (.st h a b imm) s = execSt h a b imm s := rfl
@[simp] theorem exec_lwr (h : HandId) (a b : Reg) (imm : Imm18) (s : State) : exec (.lwr h a b imm) s = execLwr h a b imm s := rfl
@[simp] theorem exec_swc (h : HandId) (a b : Reg) (imm : Imm18) (s : State) : exec (.swc h a b imm) s = execSwc h a b imm s := rfl
@[simp] theorem exec_ild (h : HandId) (a b : Reg) (imm : Imm18) (s : State) : exec (.ild h a b imm) s = execIld h a b imm s := rfl
@[simp] theorem exec_inp (h : HandId) (a b : Reg) (io : Imm18) (s : State) : exec (.inp h a b io) s = execInp h a b io s := rfl
@[simp] theorem exec_out (h : HandId) (a b : Reg) (io : Imm18) (s : State) : exec (.out h a b io) s = execOut h a b io s := rfl
@[simp] theorem exec_jmp (h : HandId) (target : BitVec 16) (s : State) : exec (.jmp h target) s = execJmp h target s := rfl
@[simp] theorem exec_call (h : HandId) (target : BitVec 16) (s : State) : exec (.call h target) s = execCall h target s := rfl
@[simp] theorem exec_beq (h : HandId) (a b : Reg) (target : BitVec 16) (s : State) : exec (.beq h a b target) s = execBeq h a b target s := rfl
@[simp] theorem exec_bne (h : HandId) (a b : Reg) (target : BitVec 16) (s : State) : exec (.bne h a b target) s = execBne h a b target s := rfl
@[simp] theorem exec_blt (h : HandId) (a b : Reg) (target : BitVec 16) (s : State) : exec (.blt h a b target) s = execBlt h a b target s := rfl
@[simp] theorem exec_bge (h : HandId) (a b : Reg) (target : BitVec 16) (s : State) : exec (.bge h a b target) s = execBge h a b target s := rfl
@[simp] theorem exec_bltu (h : HandId) (a b : Reg) (target : BitVec 16) (s : State) : exec (.bltu h a b target) s = execBltu h a b target s := rfl
@[simp] theorem exec_bgeu (h : HandId) (a b : Reg) (target : BitVec 16) (s : State) : exec (.bgeu h a b target) s = execBgeu h a b target s := rfl
@[simp] theorem exec_wmov (h : HandId) (a b c : Reg) (cut : Option Nat) (s : State) : exec (.wmov h a b c cut) s = execWmov h a b c cut s := rfl
@[simp] theorem exec_wfill (h : HandId) (a b c : Reg) (cut : Option Nat) (s : State) : exec (.wfill h a b c cut) s = execWfill h a b c cut s := rfl
@[simp] theorem exec_wsumCrc (h : HandId) (a b c : Reg) (cut : Option Nat) (s : State) : exec (.wsumCrc h a b c cut) s = execWsumCrc h a b c cut s := rfl
@[simp] theorem exec_wsumAdd (h : HandId) (a b c : Reg) (cut : Option Nat) (s : State) : exec (.wsumAdd h a b c cut) s = execWsumAdd h a b c cut s := rfl
@[simp] theorem exec_macn (h : HandId) (a b c : Reg) (cut : Option Nat) (s : State) : exec (.macn h a b c cut) s = execMacn h a b c cut s := rfl
@[simp] theorem exec_reservedOpcode (h : HandId) (word : Word) (s : State) : exec (.reservedOpcode h word) s = execReservedOpcode h word s := rfl
@[simp] theorem exec_interrupt (h : HandId) (s : State) : exec (.interrupt h) s = execInterrupt h s := rfl
@[simp] theorem exec_impreciseException (h : HandId) (s : State) : exec (.impreciseException h) s = execImpreciseException h s := rfl
@[simp] theorem exec_handTimerExpiry (h : HandId) (s : State) : exec (.handTimerExpiry h) s = execHandTimerExpiry h s := rfl
@[simp] theorem exec_icSwi (h : HandId) (set : BitVec 4) (s : State) : exec (.icSwi h set) s = execIcSwi h set s := rfl
@[simp] theorem exec_perstN (s : State) : exec .perstN s = execPerstN s := rfl
@[simp] theorem exec_hotReset (s : State) : exec .hotReset s = execHotReset s := rfl
@[simp] theorem exec_dlDown (s : State) : exec .dlDown s = execDlDown s := rfl
@[simp] theorem exec_d3cold (s : State) : exec .d3cold s = execD3cold s := rfl
@[simp] theorem exec_d3hot (s : State) : exec .d3hot s = execD3hot s := rfl
@[simp] theorem exec_d0 (s : State) : exec .d0 s = execD0 s := rfl
@[simp] theorem exec_linkUp (rates : BitVec 7) (widths : BitVec 5) (flit : Bool) (s : State) : exec (.linkUp rates widths flit) s = execLinkUp rates widths flit s := rfl
@[simp] theorem exec_configRequest (req : CfgReq) (s : State) : exec (.configRequest req) s = execConfigRequest req s := rfl
@[simp] theorem exec_readinessTimeout (s : State) : exec .readinessTimeout s = execReadinessTimeout s := rfl
@[simp] theorem exec_fastStatusRead (offset len : Nat) (s : State) : exec (.fastStatusRead offset len) s = execFastStatusRead offset len s := rfl
@[simp] theorem exec_hlCtrl (data : Word64) (s : State) : exec (.hlCtrl data) s = execHlCtrl data s := rfl
@[simp] theorem exec_msixUnmask (vector : Nat) (s : State) : exec (.msixUnmask vector) s = execMsixUnmask vector s := rfl
@[simp] theorem exec_doeRequest (object : List Byte) (s : State) : exec (.doeRequest object) s = execDoeRequest object s := rfl
@[simp] theorem exec_ideInsecure (s : State) : exec .ideInsecure s = execIdeInsecure s := rfl
@[simp] theorem exec_ideSecure (keySet : Bool) (keys : List (List Byte × List Byte)) (s : State) : exec (.ideSecure keySet keys) s = execIdeSecure keySet keys s := rfl
@[simp] theorem exec_ptmInterval (s : State) : exec .ptmInterval s = execPtmInterval s := rfl
@[simp] theorem exec_ptmResponse (masterNs : Nat) (s : State) : exec (.ptmResponse masterNs) s = execPtmResponse masterNs s := rfl
@[simp] theorem exec_completionTimeout (read : DmaRead) (s : State) : exec (.completionTimeout read) s = execCompletionTimeout read s := rfl
@[simp] theorem exec_rgSqBase (n : RingId) (data : Word64) (s : State) : exec (.rgSqBase n data) s = execRgSqBase n data s := rfl
@[simp] theorem exec_rgCqBase (n : RingId) (data : Word64) (s : State) : exec (.rgCqBase n data) s = execRgCqBase n data s := rfl
@[simp] theorem exec_rgSize (n : RingId) (data : Word64) (s : State) : exec (.rgSize n data) s = execRgSize n data s := rfl
@[simp] theorem exec_rgCtrl (n : RingId) (data : Word64) (s : State) : exec (.rgCtrl n data) s = execRgCtrl n data s := rfl
@[simp] theorem exec_rgResetSq (n : RingId) (s : State) : exec (.rgResetSq n) s = execRgResetSq n s := rfl
@[simp] theorem exec_sqResetDone (n : RingId) (s : State) : exec (.sqResetDone n) s = execSqResetDone n s := rfl
@[simp] theorem exec_rgResetCq (n : RingId) (s : State) : exec (.rgResetCq n) s = execRgResetCq n s := rfl
@[simp] theorem exec_cqResetDone (n : RingId) (s : State) : exec (.cqResetDone n) s = execCqResetDone n s := rfl
@[simp] theorem exec_doorbellSqTail (n : RingId) (tail : BitVec 16) (s : State) : exec (.doorbellSqTail n tail) s = execDoorbellSqTail n tail s := rfl
@[simp] theorem exec_doorbellCqHead (n : RingId) (head : BitVec 16) (s : State) : exec (.doorbellCqHead n head) s = execDoorbellCqHead n head s := rfl
@[simp] theorem exec_descriptorFetch (s : State) : exec .descriptorFetch s = execDescriptorFetch s := rfl
@[simp] theorem exec_descriptorArrival (n : RingId) (read : Nat) (data : Option (List (List Byte))) (s : State) : exec (.descriptorArrival n read data) s = execDescriptorArrival n read data s := rfl
@[simp] theorem exec_handAllocate (s : State) : exec .handAllocate s = execHandAllocate s := rfl
@[simp] theorem exec_errandStart (h : HandId) (buf0 : Option (List Byte)) (s : State) : exec (.errandStart h buf0) s = execErrandStart h buf0 s := rfl
@[simp] theorem exec_completionWrite (e : Nat) (bufferOk cqOk : Bool) (s : State) : exec (.completionWrite e bufferOk cqOk) s = execCompletionWrite e bufferOk cqOk s := rfl
@[simp] theorem exec_load (e : Nat) (image : Option (List Byte)) (room : Option Nat) (s : State) : exec (.load e image room) s = execLoad e image room s := rfl
@[simp] theorem exec_unload (e : Nat) (s : State) : exec (.unload e) s = execUnload e s := rfl
@[simp] theorem exec_unloadComplete (e : Nat) (s : State) : exec (.unloadComplete e) s = execUnloadComplete e s := rfl
@[simp] theorem exec_checkpoint (e : Nat) (s : State) : exec (.checkpoint e) s = execCheckpoint e s := rfl
@[simp] theorem exec_swIsubmit (h : HandId) (reldl : BitVec 32) (s : State) : exec (.swIsubmit h reldl) s = execSwIsubmit h reldl s := rfl
@[simp] theorem exec_swIcpl7Read (h : HandId) (s : State) : exec (.swIcpl7Read h) s = execSwIcpl7Read h s := rfl
@[simp] theorem exec_grantLane (h : HandId) (s : State) : exec (.grantLane h) s = execGrantLane h s := rfl
@[simp] theorem exec_grantSliceSeq (h : HandId) (s : State) : exec (.grantSliceSeq h) s = execGrantSliceSeq h s := rfl
@[simp] theorem exec_grantSliceMac (h : HandId) (s : State) : exec (.grantSliceMac h) s = execGrantSliceMac h s := rfl
@[simp] theorem exec_grantRb (h : HandId) (kib : BitVec 12) (s : State) : exec (.grantRb h kib) s = execGrantRb h kib s := rfl
@[simp] theorem exec_grantDrbg (h : HandId) (s : State) : exec (.grantDrbg h) s = execGrantDrbg h s := rfl
@[simp] theorem exec_releaseLane (h : HandId) (s : State) : exec (.releaseLane h) s = execReleaseLane h s := rfl
@[simp] theorem exec_releaseSlice (h : HandId) (s : State) : exec (.releaseSlice h) s = execReleaseSlice h s := rfl
@[simp] theorem exec_releaseRb (h : HandId) (s : State) : exec (.releaseRb h) s = execReleaseRb h s := rfl
@[simp] theorem exec_releaseDrbg (h : HandId) (s : State) : exec (.releaseDrbg h) s = execReleaseDrbg h s := rfl
@[simp] theorem exec_grantDeliver (cls : GrantClass) (s : State) : exec (.grantDeliver cls) s = execGrantDeliver cls s := rfl
@[simp] theorem exec_handback (cls : GrantClass) (unit : Fin 16) (s : State) : exec (.handback cls unit) s = execHandback cls unit s := rfl
@[simp] theorem exec_handbackRestore (h : HandId) (cls : GrantClass) (s : State) : exec (.handbackRestore h cls) s = execHandbackRestore h cls s := rfl
@[simp] theorem exec_coreNsOverrun (h : HandId) (s : State) : exec (.coreNsOverrun h) s = execCoreNsOverrun h s := rfl
@[simp] theorem exec_swStop (h : HandId) (dtag : BitVec 12) (code : Byte) (s : State) : exec (.swStop h dtag code) s = execSwStop h dtag code s := rfl
@[simp] theorem exec_swSliceMode (h : HandId) (seq : BitVec 16) (s : State) : exec (.swSliceMode h seq) s = execSwSliceMode h seq s := rfl
@[simp] theorem exec_sliceModeChange (slice : Fin 16) (s : State) : exec (.sliceModeChange slice) s = execSliceModeChange slice s := rfl
@[simp] theorem exec_coreOutOfService (h : HandId) (core : Fin 128) (s : State) : exec (.coreOutOfService h core) s = execCoreOutOfService h core s := rfl
@[simp] theorem exec_coreReturn (h : HandId) (core : Fin 128) (s : State) : exec (.coreReturn h core) s = execCoreReturn h core s := rfl
@[simp] theorem exec_coreWatchdogExpiry (core : Fin 128) (s : State) : exec (.coreWatchdogExpiry core) s = execCoreWatchdogExpiry core s := rfl
@[simp] theorem exec_set (ring : RingId) (s : State) : exec (.set ring) s = execSet ring s := rfl
@[simp] theorem exec_remove (ring : RingId) (s : State) : exec (.remove ring) s = execRemove ring s := rfl
@[simp] theorem exec_ctMemlat (memlat : BitVec 32) (s : State) : exec (.ctMemlat memlat) s = execCtMemlat memlat s := rfl
@[simp] theorem exec_deadlinePassed (e : Nat) (s : State) : exec (.deadlinePassed e) s = execDeadlinePassed e s := rfl
@[simp] theorem exec_memlatExceeded (member : Option Word) (s : State) : exec (.memlatExceeded member) s = execMemlatExceeded member s := rfl
@[simp] theorem exec_memlatCauseClear (s : State) : exec .memlatCauseClear s = execMemlatCauseClear s := rfl
@[simp] theorem exec_storeOpen (s : State) : exec .storeOpen s = execStoreOpen s := rfl
@[simp] theorem exec_storeOpenNew (s : State) : exec .storeOpenNew s = execStoreOpenNew s := rfl
@[simp] theorem exec_storeClose (s : State) : exec .storeClose s = execStoreClose s := rfl
@[simp] theorem exec_shareOpenComplete (share : Fin 4096) (report : ShareReport) (s : State) : exec (.shareOpenComplete share report) s = execShareOpenComplete share report s := rfl
@[simp] theorem exec_stMapOwner (write : Option Word64) (s : State) : exec (.stMapOwner write) s = execStMapOwner write s := rfl
@[simp] theorem exec_sopen (h : HandId) (rdonly : Bool) (src : BitVec 2) (slot : BitVec 6) (s : State) : exec (.sopen h rdonly src slot) s = execSopen h rdonly src slot s := rfl
@[simp] theorem exec_sclose (h : HandId) (slot : BitVec 6) (s : State) : exec (.sclose h slot) s = execSclose h slot s := rfl
@[simp] theorem exec_pin (h : HandId) (page : BitVec 30) (s : State) : exec (.pin h page) s = execPin h page s := rfl
@[simp] theorem exec_unpin (h : HandId) (page : BitVec 30) (s : State) : exec (.unpin h page) s = execUnpin h page s := rfl
@[simp] theorem exec_pageInStart (nodes : List (Option (List Byte))) (s : State) : exec (.pageInStart nodes) s = execPageInStart nodes s := rfl
@[simp] theorem exec_pageInComplete (page : Nat) (data : Option (List Byte)) (nodes : List (Option (List Byte))) (s : State) : exec (.pageInComplete page data nodes) s = execPageInComplete page data nodes s := rfl
@[simp] theorem exec_writeBack (target : WriteBackTarget) (nodes : List (Option (List Byte))) (s : State) : exec (.writeBack target nodes) s = execWriteBack target nodes s := rfl
@[simp] theorem exec_ckCtrl (data : Word64) (s : State) : exec (.ckCtrl data) s = execCkCtrl data s := rfl
@[simp] theorem exec_checkpointInterval (s : State) : exec .checkpointInterval s = execCheckpointInterval s := rfl
@[simp] theorem exec_checkpointStart (s : State) : exec .checkpointStart s = execCheckpointStart s := rfl
@[simp] theorem exec_checkpointReady (s : State) : exec .checkpointReady s = execCheckpointReady s := rfl
@[simp] theorem exec_ckAck (data : Word64) (s : State) : exec (.ckAck data) s = execCkAck data s := rfl
@[simp] theorem exec_checkpointDone (s : State) : exec .checkpointDone s = execCheckpointDone s := rfl
@[simp] theorem exec_checkpointAbandoned (s : State) : exec .checkpointAbandoned s = execCheckpointAbandoned s := rfl
@[simp] theorem exec_pfwNFall (s : State) : exec .pfwNFall s = execPfwNFall s := rfl
@[simp] theorem exec_pfwNResume (s : State) : exec .pfwNResume s = execPfwNResume s := rfl
@[simp] theorem exec_rotate (s : State) : exec .rotate s = execRotate s := rfl
@[simp] theorem exec_sweepPage (data : Option (List Byte)) (nodes : List (Option (List Byte))) (s : State) : exec (.sweepPage data nodes) s = execSweepPage data nodes s := rfl
@[simp] theorem exec_ecbEncrypt (h : HandId) (go : LaneGo) (s : State) : exec (.ecbEncrypt h go) s = execEcbEncrypt h go s := rfl
@[simp] theorem exec_ecbDecrypt (h : HandId) (go : LaneGo) (s : State) : exec (.ecbDecrypt h go) s = execEcbDecrypt h go s := rfl
@[simp] theorem exec_cbcEncrypt (h : HandId) (go : LaneGo) (s : State) : exec (.cbcEncrypt h go) s = execCbcEncrypt h go s := rfl
@[simp] theorem exec_cbcDecrypt (h : HandId) (go : LaneGo) (s : State) : exec (.cbcDecrypt h go) s = execCbcDecrypt h go s := rfl
@[simp] theorem exec_ctrEncrypt (h : HandId) (go : LaneGo) (s : State) : exec (.ctrEncrypt h go) s = execCtrEncrypt h go s := rfl
@[simp] theorem exec_ctrDecrypt (h : HandId) (go : LaneGo) (s : State) : exec (.ctrDecrypt h go) s = execCtrDecrypt h go s := rfl
@[simp] theorem exec_gcmEncrypt (h : HandId) (go : LaneGo) (s : State) : exec (.gcmEncrypt h go) s = execGcmEncrypt h go s := rfl
@[simp] theorem exec_gcmDecrypt (h : HandId) (go : LaneGo) (s : State) : exec (.gcmDecrypt h go) s = execGcmDecrypt h go s := rfl
@[simp] theorem exec_ccmEncrypt (h : HandId) (go : LaneGo) (s : State) : exec (.ccmEncrypt h go) s = execCcmEncrypt h go s := rfl
@[simp] theorem exec_ccmDecrypt (h : HandId) (go : LaneGo) (s : State) : exec (.ccmDecrypt h go) s = execCcmDecrypt h go s := rfl
@[simp] theorem exec_cmacGenerate (h : HandId) (go : LaneGo) (s : State) : exec (.cmacGenerate h go) s = execCmacGenerate h go s := rfl
@[simp] theorem exec_cmacVerify (h : HandId) (go : LaneGo) (s : State) : exec (.cmacVerify h go) s = execCmacVerify h go s := rfl
@[simp] theorem exec_xtsEncrypt (h : HandId) (go : LaneGo) (s : State) : exec (.xtsEncrypt h go) s = execXtsEncrypt h go s := rfl
@[simp] theorem exec_xtsDecrypt (h : HandId) (go : LaneGo) (s : State) : exec (.xtsDecrypt h go) s = execXtsDecrypt h go s := rfl
@[simp] theorem exec_kwWrap (h : HandId) (go : LaneGo) (s : State) : exec (.kwWrap h go) s = execKwWrap h go s := rfl
@[simp] theorem exec_kwUnwrap (h : HandId) (go : LaneGo) (s : State) : exec (.kwUnwrap h go) s = execKwUnwrap h go s := rfl
@[simp] theorem exec_kwpWrap (h : HandId) (go : LaneGo) (s : State) : exec (.kwpWrap h go) s = execKwpWrap h go s := rfl
@[simp] theorem exec_kwpUnwrap (h : HandId) (go : LaneGo) (s : State) : exec (.kwpUnwrap h go) s = execKwpUnwrap h go s := rfl
@[simp] theorem exec_laneOpEnd (lane : Fin 16) (source : List Byte) (readOk writeOk : Bool) (s : State) : exec (.laneOpEnd lane source readOk writeOk) s = execLaneOpEnd lane source readOk writeOk s := rfl
@[simp] theorem exec_lnFlush (h : HandId) (s : State) : exec (.lnFlush h) s = execLnFlush h s := rfl
@[simp] theorem exec_keygen (h : HandId) (cmd : PkFlags) (s : State) : exec (.keygen h cmd) s = execKeygen h cmd s := rfl
@[simp] theorem exec_sign (h : HandId) (cmd : PkFlags) (s : State) : exec (.sign h cmd) s = execSign h cmd s := rfl
@[simp] theorem exec_verify (h : HandId) (cmd : PkFlags) (s : State) : exec (.verify h cmd) s = execVerify h cmd s := rfl
@[simp] theorem exec_agree (h : HandId) (cmd : PkFlags) (s : State) : exec (.agree h cmd) s = execAgree h cmd s := rfl
@[simp] theorem exec_encaps (h : HandId) (cmd : PkFlags) (s : State) : exec (.encaps h cmd) s = execEncaps h cmd s := rfl
@[simp] theorem exec_decaps (h : HandId) (cmd : PkFlags) (s : State) : exec (.decaps h cmd) s = execDecaps h cmd s := rfl
@[simp] theorem exec_pkMctl (h : HandId) (data : Word) (s : State) : exec (.pkMctl h data) s = execPkMctl h data s := rfl
@[simp] theorem exec_run (h : HandId) (len : BitVec 6) (idx : BitVec 13) (s : State) : exec (.run h len idx) s = execRun h len idx s := rfl
@[simp] theorem exec_accout (h : HandId) (len : BitVec 6) (idx : BitVec 13) (s : State) : exec (.accout h len idx) s = execAccout h len idx s := rfl
@[simp] theorem exec_accadd (h : HandId) (len : BitVec 6) (idx : BitVec 13) (s : State) : exec (.accadd h len idx) s = execAccadd h len idx s := rfl
@[simp] theorem exec_accclr (h : HandId) (s : State) : exec (.accclr h) s = execAccclr h s := rfl
@[simp] theorem exec_pkOpdata (h : HandId) (write : Option Word) (s : State) : exec (.pkOpdata h write) s = execPkOpdata h write s := rfl
@[simp] theorem exec_pkUcodeLoad (h : HandId) (s : State) : exec (.pkUcodeLoad h) s = execPkUcodeLoad h s := rfl
@[simp] theorem exec_sliceOpEnd (slice : Fin 16) (checkOk : Bool) (s : State) : exec (.sliceOpEnd slice checkOk) s = execSliceOpEnd slice checkOk s := rfl
@[simp] theorem exec_derive (h : HandId) (root : BitVec 28) (s : State) : exec (.derive h root) s = execDerive h root s := rfl
@[simp] theorem exec_info (h : HandId) (s : State) : exec (.info h) s = execInfo h s := rfl
@[simp] theorem exec_generate (h : HandId) (s : State) : exec (.generate h) s = execGenerate h s := rfl
@[simp] theorem exec_destroy (h : HandId) (s : State) : exec (.destroy h) s = execDestroy h s := rfl
@[simp] theorem exec_lockexp (h : HandId) (s : State) : exec (.lockexp h) s = execLockexp h s := rfl
@[simp] theorem exec_save (h : HandId) (s : State) : exec (.save h) s = execSave h s := rfl
@[simp] theorem exec_vaultLoad (h : HandId) (s : State) : exec (.vaultLoad h) s = execVaultLoad h s := rfl
@[simp] theorem exec_exportKey (h : HandId) (s : State) : exec (.exportKey h) s = execExportKey h s := rfl
@[simp] theorem exec_importKey (h : HandId) (s : State) : exec (.importKey h) s = execImportKey h s := rfl
@[simp] theorem exec_issue (h : HandId) (s : State) : exec (.issue h) s = execIssue h s := rfl
@[simp] theorem exec_attest (h : HandId) (s : State) : exec (.attest h) s = execAttest h s := rfl
@[simp] theorem exec_spdmSign (h : HandId) (s : State) : exec (.spdmSign h) s = execSpdmSign h s := rfl
@[simp] theorem exec_split (h : HandId) (s : State) : exec (.split h) s = execSplit h s := rfl
@[simp] theorem exec_combine (h : HandId) (s : State) : exec (.combine h) s = execCombine h s := rfl
@[simp] theorem exec_lwkRotate (h : HandId) (s : State) : exec (.lwkRotate h) s = execLwkRotate h s := rfl
@[simp] theorem exec_bbkrNew (h : HandId) (s : State) : exec (.bbkrNew h) s = execBbkrNew h s := rfl
@[simp] theorem exec_storeEscrow (h : HandId) (s : State) : exec (.storeEscrow h) s = execStoreEscrow h s := rfl
@[simp] theorem exec_storeRestore (h : HandId) (s : State) : exec (.storeRestore h) s = execStoreRestore h s := rfl
@[simp] theorem exec_vaultCommandEnd (h : HandId) (s : State) : exec (.vaultCommandEnd h) s = execVaultCommandEnd h s := rfl
@[simp] theorem exec_sourceStartupTest (source : Fin 4) (samples : BitVec 1024) (s : State) : exec (.sourceStartupTest source samples) s = execSourceStartupTest source samples s := rfl
@[simp] theorem exec_entropySourceFail (source : Fin 4) (test : HealthTest) (s : State) : exec (.entropySourceFail source test) s = execEntropySourceFail source test s := rfl
@[simp] theorem exec_seedProduced (raw : BitVec 1536) (s : State) : exec (.seedProduced raw) s = execSeedProduced raw s := rfl
@[simp] theorem exec_instanceDue (i : Fin 1024) (s : State) : exec (.instanceDue i) s = execInstanceDue i s := rfl
@[simp] theorem exec_entropyStall (i : Fin 1024) (s : State) : exec (.entropyStall i) s = execEntropyStall i s := rfl
@[simp] theorem exec_drOut (h : HandId) (s : State) : exec (.drOut h) s = execDrOut h s := rfl
@[simp] theorem exec_retry (h : HandId) (sources : BitVec 4) (s : State) : exec (.retry h sources) s = execRetry h sources s := rfl
@[simp] theorem exec_selftest (h : HandId) (s : State) : exec (.selftest h) s = execSelftest h s := rfl
@[simp] theorem exec_healthSelftestEnd (failed : BitVec 4) (katOk : Bool) (s : State) : exec (.healthSelftestEnd failed katOk) s = execHealthSelftestEnd failed katOk s := rfl
@[simp] theorem exec_entRaw (h : HandId) (samples : BitVec 32) (s : State) : exec (.entRaw h samples) s = execEntRaw h samples s := rfl
@[simp] theorem exec_patternSet (h : HandId) (sources : BitVec 4) (s : State) : exec (.patternSet h sources) s = execPatternSet h sources s := rfl
@[simp] theorem exec_patternClear (h : HandId) (sources : BitVec 4) (s : State) : exec (.patternClear h sources) s = execPatternClear h sources s := rfl
@[simp] theorem exec_acuCtrl (h : HandId) (unit : AcuUnit) (data : Word) (s : State) : exec (.acuCtrl h unit data) s = execAcuCtrl h unit data s := rfl
@[simp] theorem exec_program (h : HandId) (s : State) : exec (.program h) s = execProgram h s := rfl
@[simp] theorem exec_erase (h : HandId) (s : State) : exec (.erase h) s = execErase h s := rfl
@[simp] theorem exec_blankCheck (h : HandId) (s : State) : exec (.blankCheck h) s = execBlankCheck h s := rfl
@[simp] theorem exec_flashOpEnd (bank : Fin 2) (verifyOk : Bool) (s : State) : exec (.flashOpEnd bank verifyOk) s = execFlashOpEnd bank verifyOk s := rfl
@[simp] theorem exec_flData (h : HandId) (s : State) : exec (.flData h) s = execFlData h s := rfl
@[simp] theorem exec_eraseResume (bank : Fin 2) (s : State) : exec (.eraseResume bank) s = execEraseResume bank s := rfl
@[simp] theorem exec_flWp (h : HandId) (k : Fin 9) (data : Word) (s : State) : exec (.flWp h k data) s = execFlWp h k data s := rfl
@[simp] theorem exec_idle (port : Fin 8) (f : FlitHead) (s : State) : exec (.idle port f) s = execIdle port f s := rfl
@[simp] theorem exec_control (port : Fin 8) (f : FlitHead) (m : ControlMsg) (s : State) : exec (.control port f m) s = execControl port f m s := rfl
@[simp] theorem exec_errand (port : Fin 8) (f : FlitHead) (m : ErrandMsg) (s : State) : exec (.errand port f m) s = execErrand port f m s := rfl
@[simp] theorem exec_completion (port : Fin 8) (f : FlitHead) (m : CompletionMsg) (s : State) : exec (.completion port f m) s = execCompletion port f m s := rfl
@[simp] theorem exec_tread (port : Fin 8) (f : FlitHead) (m : TunnelMsg) (s : State) : exec (.tread port f m) s = execTread port f m s := rfl
@[simp] theorem exec_tdata (port : Fin 8) (f : FlitHead) (m : TunnelMsg) (s : State) : exec (.tdata port f m) s = execTdata port f m s := rfl
@[simp] theorem exec_twrite (port : Fin 8) (f : FlitHead) (m : TunnelMsg) (s : State) : exec (.twrite port f m) s = execTwrite port f m s := rfl
@[simp] theorem exec_remote (port : Fin 8) (f : FlitHead) (m : RemoteMsg) (s : State) : exec (.remote port f m) s = execRemote port f m s := rfl
@[simp] theorem exec_time (port : Fin 8) (f : FlitHead) (parentTally : Nat) (stepped : Bool) (s : State) : exec (.time port f parentTally stepped) s = execTime port f parentTally stepped s := rfl
@[simp] theorem exec_timeInterval (s : State) : exec .timeInterval s = execTimeInterval s := rfl
@[simp] theorem exec_retransmitTimeout (port : Fin 8) (s : State) : exec (.retransmitTimeout port) s = execRetransmitTimeout port s := rfl
@[simp] theorem exec_batonSilence (port : Fin 8) (s : State) : exec (.batonSilence port) s = execBatonSilence port s := rfl
@[simp] theorem exec_upstreamLoss (s : State) : exec .upstreamLoss s = execUpstreamLoss s := rfl
@[simp] theorem exec_signalDetect (port : Fin 8) (s : State) : exec (.signalDetect port) s = execSignalDetect port s := rfl
@[simp] theorem exec_linkTrained (port : Fin 8) (peer : BitVec 3) (peerMaster : Bool) (s : State) : exec (.linkTrained port peer peerMaster) s = execLinkTrained port peer peerMaster s := rfl
@[simp] theorem exec_trainingTimeout (port : Fin 8) (s : State) : exec (.trainingTimeout port) s = execTrainingTimeout port s := rfl
@[simp] theorem exec_failedRetrain (port : Fin 8) (s : State) : exec (.failedRetrain port) s = execFailedRetrain port s := rfl
@[simp] theorem exec_keyUpdate (port : Fin 8) (s : State) : exec (.keyUpdate port) s = execKeyUpdate port s := rfl
@[simp] theorem exec_joinOffer (offer : JoinOffer) (s : State) : exec (.joinOffer offer) s = execJoinOffer offer s := rfl
@[simp] theorem exec_joinAuthenticated (path : Word) (session : JoinSession) (s : State) : exec (.joinAuthenticated path session) s = execJoinAuthenticated path session s := rfl
@[simp] theorem exec_accept (h : HandId) (s : State) : exec (.accept h) s = execAccept h s := rfl
@[simp] theorem exec_reject (h : HandId) (s : State) : exec (.reject h) s = execReject h s := rfl
@[simp] theorem exec_joinDecisionTimeout (s : State) : exec .joinDecisionTimeout s = execJoinDecisionTimeout s := rfl
@[simp] theorem exec_memberJoined (path : Word) (almanacOk : Option (BitVec 16)) (s : State) : exec (.memberJoined path almanacOk) s = execMemberJoined path almanacOk s := rfl
@[simp] theorem exec_csCtrl (h : HandId) (data : Word) (s : State) : exec (.csCtrl h data) s = execCsCtrl h data s := rfl
@[simp] theorem exec_remoteRead (h : HandId) (s : State) : exec (.remoteRead h) s = execRemoteRead h s := rfl
@[simp] theorem exec_remoteWrite (h : HandId) (s : State) : exec (.remoteWrite h) s = execRemoteWrite h s := rfl
@[simp] theorem exec_hcReopen (devnum : BitVec 12) (s : State) : exec (.hcReopen devnum) s = execHcReopen devnum s := rfl
@[simp] theorem exec_hcSeq (s : State) : exec .hcSeq s = execHcSeq s := rfl
@[simp] theorem exec_dozeEntry (s : State) : exec .dozeEntry s = execDozeEntry s := rfl
@[simp] theorem exec_napEntry (s : State) : exec .napEntry s = execNapEntry s := rfl
@[simp] theorem exec_slumberEntry (s : State) : exec .slumberEntry s = execSlumberEntry s := rfl
@[simp] theorem exec_wakeEvent (s : State) : exec .wakeEvent s = execWakeEvent s := rfl
@[simp] theorem exec_pmeTurnOff (s : State) : exec .pmeTurnOff s = execPmeTurnOff s := rfl
@[simp] theorem exec_wakeIn (s : State) : exec .wakeIn s = execWakeIn s := rfl
@[simp] theorem exec_tjReading (sensors : List Int) (coolForOneSecond : Bool) (s : State) : exec (.tjReading sensors coolForOneSecond) s = execTjReading sensors coolForOneSecond s := rfl
@[simp] theorem exec_sprintLockExpiry (s : State) : exec .sprintLockExpiry s = execSprintLockExpiry s := rfl
@[simp] theorem exec_pwLtGlobal (data : Word64) (s : State) : exec (.pwLtGlobal data) s = execPwLtGlobal data s := rfl
@[simp] theorem exec_pwLtRing (n : RingId) (data : Word64) (s : State) : exec (.pwLtRing n data) s = execPwLtRing n data s := rfl
@[simp] theorem exec_pwGov (data : Word64) (s : State) : exec (.pwGov data) s = execPwGov data s := rfl
@[simp] theorem exec_gvCtrl (h : HandId) (data : Word) (s : State) : exec (.gvCtrl h data) s = execGvCtrl h data s := rfl
@[simp] theorem exec_lcQuery (s : State) : exec .lcQuery s = execLcQuery s := rfl
@[simp] theorem exec_challenge (s : State) : exec .challenge s = execChallenge s := rfl
@[simp] theorem exec_dbgOpen (certificate : Option (List Byte)) (s : State) : exec (.dbgOpen certificate) s = execDbgOpen certificate s := rfl
@[simp] theorem exec_dbgClose (s : State) : exec .dbgClose s = execDbgClose s := rfl
@[simp] theorem exec_trialEnter (slot : Nat) (stateCode : Byte) (preimage : List Byte) (s : State) : exec (.trialEnter slot stateCode preimage) s = execTrialEnter slot stateCode preimage s := rfl
@[simp] theorem exec_lcAdvance (by_ : LcRequester) (target : Byte) (s : State) : exec (.lcAdvance by_ target) s = execLcAdvance by_ target s := rfl
@[simp] theorem exec_fuseAdvanceEnd (s : State) : exec .fuseAdvanceEnd s = execFuseAdvanceEnd s := rfl
@[simp] theorem exec_dbgHalt (hand : HandId) (s : State) : exec (.dbgHalt hand) s = execDbgHalt hand s := rfl
@[simp] theorem exec_dbgResume (hand : HandId) (s : State) : exec (.dbgResume hand) s = execDbgResume hand s := rfl
@[simp] theorem exec_dbgStep (hand : HandId) (s : State) : exec (.dbgStep hand) s = execDbgStep hand s := rfl
@[simp] theorem exec_dbgRead (address count : Nat) (s : State) : exec (.dbgRead address count) s = execDbgRead address count s := rfl
@[simp] theorem exec_dbgWrite (address : Nat) (words : List Word) (s : State) : exec (.dbgWrite address words) s = execDbgWrite address words s := rfl
@[simp] theorem exec_trace (hand : HandId) (op : TraceOp) (s : State) : exec (.trace hand op) s = execTrace hand op s := rfl
@[simp] theorem exec_parishRead (first count : Nat) (archive : Bool) (s : State) : exec (.parishRead first count archive) s = execParishRead first count archive s := rfl
@[simp] theorem exec_flashRead (address count : Nat) (s : State) : exec (.flashRead address count) s = execFlashRead address count s := rfl
@[simp] theorem exec_powerHold (on : Bool) (s : State) : exec (.powerHold on) s = execPowerHold on s := rfl
@[simp] theorem exec_scan (chain bits : Nat) (data : List Bool) (s : State) : exec (.scan chain bits data) s = execScan chain bits data s := rfl
@[simp] theorem exec_raw (source : Fin 4) (samples : List Bool) (s : State) : exec (.raw source samples) s = execRaw source samples s := rfl
@[simp] theorem exec_status (s : State) : exec .status s = execStatus s := rfl
@[simp] theorem exec_nonceExpiry (s : State) : exec .nonceExpiry s = execNonceExpiry s := rfl
@[simp] theorem exec_sessionExpiry (s : State) : exec .sessionExpiry s = execSessionExpiry s := rfl
@[simp] theorem exec_dbgCtrl (h : HandId) (data : Word) (s : State) : exec (.dbgCtrl h data) s = execDbgCtrl h data s := rfl
@[simp] theorem exec_debugWindowClose (tests : BootTests) (s : State) : exec (.debugWindowClose tests) s = execDebugWindowClose tests s := rfl
@[simp] theorem exec_extest (s : State) : exec .extest s = execExtest s := rfl
@[simp] theorem exec_samplePreload (s : State) : exec .samplePreload s = execSamplePreload s := rfl
@[simp] theorem exec_idcode (s : State) : exec .idcode s = execIdcode s := rfl
@[simp] theorem exec_bypass (s : State) : exec .bypass s = execBypass s := rfl
@[simp] theorem exec_monitorAlarm (alarms : List (Fin 28)) (s : State) : exec (.monitorAlarm alarms) s = execMonitorAlarm alarms s := rfl
@[simp] theorem exec_watchPowerOnReset (s : State) : exec .watchPowerOnReset s = execWatchPowerOnReset s := rfl
@[simp] theorem exec_logclr (h : HandId) (s : State) : exec (.logclr h) s = execLogclr h s := rfl
@[simp] theorem exec_resume (h : HandId) (s : State) : exec (.resume h) s = execResume h s := rfl
@[simp] theorem exec_wlock (h : HandId) (s : State) : exec (.wlock h) s = execWlock h s := rfl
@[simp] theorem exec_mlock (h : HandId) (s : State) : exec (.mlock h) s = execMlock h s := rfl
@[simp] theorem exec_wtMon (h : HandId) (monitor : Fin 28) (data : Word) (s : State) : exec (.wtMon h monitor data) s = execWtMon h monitor data s := rfl
@[simp] theorem exec_monitorSelftest (h : HandId) (monitor : BitVec 5) (s : State) : exec (.monitorSelftest h monitor) s = execMonitorSelftest h monitor s := rfl
@[simp] theorem exec_monitorSelftestEnd (pass : Bool) (s : State) : exec (.monitorSelftestEnd pass) s = execMonitorSelftestEnd pass s := rfl
@[simp] theorem exec_rtcLoad (h : HandId) (data : Word) (s : State) : exec (.rtcLoad h data) s = execRtcLoad h data s := rfl
@[simp] theorem exec_rtcCapture (h : HandId) (s : State) : exec (.rtcCapture h) s = execRtcCapture h s := rfl
@[simp] theorem exec_prWrite (h : HandId) (code : Byte) (s : State) : exec (.prWrite h code) s = execPrWrite h code s := rfl
@[simp] theorem exec_prSnap (h : HandId) (code : Byte) (s : State) : exec (.prSnap h code) s = execPrSnap h code s := rfl
@[simp] theorem exec_prRdata (h : HandId) (s : State) : exec (.prRdata h) s = execPrRdata h s := rfl
@[simp] theorem exec_phRdata (s : State) : exec .phRdata s = execPhRdata s := rfl
@[simp] theorem exec_prCtrl (h : HandId) (data : Word) (s : State) : exec (.prCtrl h data) s = execPrCtrl h data s := rfl
@[simp] theorem exec_archiveFlush (s : State) : exec .archiveFlush s = execArchiveFlush s := rfl
@[simp] theorem exec_activate (h : HandId) (gate : Bool) (s : State) : exec (.activate h gate) s = execActivate h gate s := rfl
@[simp] theorem exec_deactivate (h : HandId) (gate : Bool) (s : State) : exec (.deactivate h gate) s = execDeactivate h gate s := rfl
@[simp] theorem exec_apdu (h : HandId) (gate : Bool) (txlen : BitVec 9) (s : State) : exec (.apdu h gate txlen) s = execApdu h gate txlen s := rfl
@[simp] theorem exec_seat (h : HandId) (gate : Bool) (s : State) : exec (.seat h gate) s = execSeat h gate s := rfl
@[simp] theorem exec_cardRead (h : HandId) (gate : Bool) (seat : BitVec 3) (block : BitVec 7) (s : State) : exec (.cardRead h gate seat block) s = execCardRead h gate seat block s := rfl
@[simp] theorem exec_cardWrite (h : HandId) (gate : Bool) (seat : BitVec 3) (block : BitVec 7) (s : State) : exec (.cardWrite h gate seat block) s = execCardWrite h gate seat block s := rfl
@[simp] theorem exec_sleep (h : HandId) (gate : Bool) (seat : BitVec 3) (s : State) : exec (.sleep h gate seat) s = execSleep h gate seat s := rfl
@[simp] theorem exec_cardWake (h : HandId) (gate : Bool) (seat : BitVec 3) (s : State) : exec (.cardWake h gate seat) s = execCardWake h gate seat s := rfl
@[simp] theorem exec_cardUnlock (h : HandId) (gate : Bool) (seat : BitVec 3) (s : State) : exec (.cardUnlock h gate seat) s = execCardUnlock h gate seat s := rfl
@[simp] theorem exec_cardOpEnd (gate : Bool) (answer : CardAnswer) (s : State) : exec (.cardOpEnd gate answer) s = execCardOpEnd gate answer s := rfl
@[simp] theorem exec_presChange (gate : Bool) (level : Bool) (silent : List (Fin 8)) (s : State) : exec (.presChange gate level silent) s = execPresChange gate level silent s := rfl
@[simp] theorem exec_cardSupplyFail (gate : Bool) (s : State) : exec (.cardSupplyFail gate) s = execCardSupplyFail gate s := rfl
@[simp] theorem exec_cgClaim (h : HandId) (gate : Bool) (claim : Bool) (s : State) : exec (.cgClaim h gate claim) s = execCgClaim h gate claim s := rfl
@[simp] theorem exec_cgBdata (h : HandId) (gate : Bool) (write : Option Word) (s : State) : exec (.cgBdata h gate write) s = execCgBdata h gate write s := rfl
@[simp] theorem exec_cgCtrl (h : HandId) (gate : Bool) (data : Word) (s : State) : exec (.cgCtrl h gate data) s = execCgCtrl h gate data s := rfl
@[simp] theorem exec_fieldEntry (noise : BitVec 24) (s : State) : exec (.fieldEntry noise) s = execFieldEntry noise s := rfl
@[simp] theorem exec_fieldLoss (s : State) : exec .fieldLoss s = execFieldLoss s := rfl
@[simp] theorem exec_fdHoldExpiry (s : State) : exec .fdHoldExpiry s = execFdHoldExpiry s := rfl
@[simp] theorem exec_reqa (s : State) : exec .reqa s = execReqa s := rfl
@[simp] theorem exec_wupa (s : State) : exec .wupa s = execWupa s := rfl
@[simp] theorem exec_anticollision (known : List Bool) (s : State) : exec (.anticollision known) s = execAnticollision known s := rfl
@[simp] theorem exec_select (uid : BitVec 32) (s : State) : exec (.select uid) s = execSelect uid s := rfl
@[simp] theorem exec_hlta (s : State) : exec .hlta s = execHlta s := rfl
@[simp] theorem exec_rats (s : State) : exec .rats s = execRats s := rfl
@[simp] theorem exec_pps (dri dsi : BitVec 2) (s : State) : exec (.pps dri dsi) s = execPps dri dsi s := rfl
@[simp] theorem exec_deselect (s : State) : exec .deselect s = execDeselect s := rfl
@[simp] theorem exec_getInfo (mac : List Byte) (s : State) : exec (.getInfo mac) s = execGetInfo mac s := rfl
@[simp] theorem exec_readLive (mac : List Byte) (s : State) : exec (.readLive mac) s = execReadLive mac s := rfl
@[simp] theorem exec_readPage (page : Byte) (mac : List Byte) (s : State) : exec (.readPage page mac) s = execReadPage page mac s := rfl
@[simp] theorem exec_writePage (page : Byte) (data mac : List Byte) (strong : Bool) (s : State) : exec (.writePage page data mac strong) s = execWritePage page data mac strong s := rfl
@[simp] theorem exec_fieldWriteEnd (stage : WriteStage) (s : State) : exec (.fieldWriteEnd stage) s = execFieldWriteEnd stage s := rfl
@[simp] theorem exec_authPwd (password mac : List Byte) (s : State) : exec (.authPwd password mac) s = execAuthPwd password mac s := rfl
@[simp] theorem exec_auth1 (noise : BitVec 128) (mac : List Byte) (s : State) : exec (.auth1 noise mac) s = execAuth1 noise mac s := rfl
@[simp] theorem exec_auth2 (rndR proof mac : List Byte) (s : State) : exec (.auth2 rndR proof mac) s = execAuth2 rndR proof mac s := rfl
@[simp] theorem exec_authDelayExpiry (s : State) : exec .authDelayExpiry s = execAuthDelayExpiry s := rfl
@[simp] theorem exec_logout (mac : List Byte) (s : State) : exec (.logout mac) s = execLogout mac s := rfl
@[simp] theorem exec_tagRead (h : HandId) (page : BitVec 6) (s : State) : exec (.tagRead h page) s = execTagRead h page s := rfl
@[simp] theorem exec_tagWrite (h : HandId) (page : BitVec 6) (s : State) : exec (.tagWrite h page) s = execTagWrite h page s := rfl
@[simp] theorem exec_summary (h : HandId) (s : State) : exec (.summary h) s = execSummary h s := rfl
@[simp] theorem exec_summaryAuto (s : State) : exec .summaryAuto s = execSummaryAuto s := rfl
@[simp] theorem exec_setpwd (h : HandId) (s : State) : exec (.setpwd h) s = execSetpwd h s := rfl
@[simp] theorem exec_setkey (h : HandId) (s : State) : exec (.setkey h) s = execSetkey h s := rfl
@[simp] theorem exec_clearauth (h : HandId) (s : State) : exec (.clearauth h) s = execClearauth h s := rfl
@[simp] theorem exec_setacl (h : HandId) (s : State) : exec (.setacl h) s = execSetacl h s := rfl
@[simp] theorem exec_tagCmdEnd (stage : WriteStage) (s : State) : exec (.tagCmdEnd stage) s = execTagCmdEnd stage s := rfl
@[simp] theorem exec_tagUnlock (h : HandId) (s : State) : exec (.tagUnlock h) s = execTagUnlock h s := rfl
@[simp] theorem exec_deviceReset (s : State) : exec .deviceReset s = execDeviceReset s := rfl
@[simp] theorem exec_guardPowerOnReset (s : State) : exec .guardPowerOnReset s = execGuardPowerOnReset s := rfl
@[simp] theorem exec_railsGood (s : State) : exec .railsGood s = execRailsGood s := rfl
@[simp] theorem exec_deviceResetEnd (cascRoot bootSel : Bool) (s : State) : exec (.deviceResetEnd cascRoot bootSel) s = execDeviceResetEnd cascRoot bootSel s := rfl
@[simp] theorem exec_deviceWatchdogExpiry (s : State) : exec .deviceWatchdogExpiry s = execDeviceWatchdogExpiry s := rfl
@[simp] theorem exec_service (h : HandId) (s : State) : exec (.service h) s = execService h s := rfl
@[simp] theorem exec_stewardGo (h : HandId) (s : State) : exec (.stewardGo h) s = execStewardGo h s := rfl
@[simp] theorem exec_wdLock (h : HandId) (s : State) : exec (.wdLock h) s = execWdLock h s := rfl
@[simp] theorem exec_fwReady (h : HandId) (setup : FirmwareSetup) (s : State) : exec (.fwReady h setup) s = execFwReady h setup s := rfl
@[simp] theorem exec_gcCtrlReset (h : HandId) (s : State) : exec (.gcCtrlReset h) s = execGcCtrlReset h s := rfl
@[simp] theorem exec_gcStage (h : HandId) (stage : Byte) (s : State) : exec (.gcStage h stage) s = execGcStage h stage s := rfl
@[simp] theorem exec_recoveryGo (words : BitVec 20) (s : State) : exec (.recoveryGo words) s = execRecoveryGo words s := rfl
@[simp] theorem exec_recoveryWriteEnd (image : Option (List Byte)) (flashOk : Bool) (s : State) : exec (.recoveryWriteEnd image flashOk) s = execRecoveryWriteEnd image flashOk s := rfl
@[simp] theorem exec_recoveryReset (s : State) : exec .recoveryReset s = execRecoveryReset s := rfl
@[simp] theorem exec_registerWrite (w : RegWrite) (s : State) : exec (.registerWrite w) s = execRegisterWrite w s := rfl
@[simp] theorem exec_mainSideUnpowered (s : State) : exec .mainSideUnpowered s = execMainSideUnpowered s := rfl
@[simp] theorem exec_vbatLoss (s : State) : exec .vbatLoss s = execVbatLoss s := rfl
@[simp] theorem exec_wdogWarn (core : Fin 128) (s : State) : exec (.wdogWarn core) s = execWdogWarn core s := rfl
@[simp] theorem exec_cardClockStop (gate : Bool) (s : State) : exec (.cardClockStop gate) s = execCardClockStop gate s := rfl

end Sys2Proof.Machine
end

