-- ==== Sys2Proof/Laws/State.lean ====
section
/-!
SUPPORT. Sys2Proof/Laws/State.lean: what each update of one part of the state leaves of every field, and what the
accessors of numbered parts answer after it.
-/
namespace Sys2Proof.Machine

/-! ### setHand -/

@[simp] theorem State.setHand_pending (s : State) (h : Nat) (x : Hand) : (s.setHand h x).pending = s.pending := rfl
@[simp] theorem State.setHand_out (s : State) (h : Nat) (x : Hand) : (s.setHand h x).out = s.out := rfl
@[simp] theorem State.setHand_free (s : State) (h : Nat) (x : Hand) : (s.setHand h x).free = s.free := rfl
@[simp] theorem State.setHand_hands (s : State) (h : Nat) (x : Hand) : (s.setHand h x).hands = aput s.hands h x := rfl
@[simp] theorem State.setHand_cores (s : State) (h : Nat) (x : Hand) : (s.setHand h x).cores = s.cores := rfl
@[simp] theorem State.setHand_hamlets (s : State) (h : Nat) (x : Hand) : (s.setHand h x).hamlets = s.hamlets := rfl
@[simp] theorem State.setHand_devAcu (s : State) (h : Nat) (x : Hand) : (s.setHand h x).devAcu = s.devAcu := rfl
@[simp] theorem State.setHand_link (s : State) (h : Nat) (x : Hand) : (s.setHand h x).link = s.link := rfl
@[simp] theorem State.setHand_rings (s : State) (h : Nat) (x : Hand) : (s.setHand h x).rings = s.rings := rfl
@[simp] theorem State.setHand_steward (s : State) (h : Nat) (x : Hand) : (s.setHand h x).steward = s.steward := rfl
@[simp] theorem State.setHand_store (s : State) (h : Nat) (x : Hand) : (s.setHand h x).store = s.store := rfl
@[simp] theorem State.setHand_lanes (s : State) (h : Nat) (x : Hand) : (s.setHand h x).lanes = s.lanes := rfl
@[simp] theorem State.setHand_savedLanes (s : State) (h : Nat) (x : Hand) : (s.setHand h x).savedLanes = s.savedLanes :=
  rfl
@[simp] theorem State.setHand_slices (s : State) (h : Nat) (x : Hand) : (s.setHand h x).slices = s.slices := rfl
@[simp] theorem State.setHand_savedSlices (s : State) (h : Nat) (x : Hand) :
    (s.setHand h x).savedSlices = s.savedSlices :=
  rfl
@[simp] theorem State.setHand_ucode (s : State) (h : Nat) (x : Hand) : (s.setHand h x).ucode = s.ucode := rfl
@[simp] theorem State.setHand_vault (s : State) (h : Nat) (x : Hand) : (s.setHand h x).vault = s.vault := rfl
@[simp] theorem State.setHand_entropy (s : State) (h : Nat) (x : Hand) : (s.setHand h x).entropy = s.entropy := rfl
@[simp] theorem State.setHand_flash (s : State) (h : Nat) (x : Hand) : (s.setHand h x).flash = s.flash := rfl
@[simp] theorem State.setHand_cascade (s : State) (h : Nat) (x : Hand) : (s.setHand h x).cascade = s.cascade := rfl
@[simp] theorem State.setHand_power (s : State) (h : Nat) (x : Hand) : (s.setHand h x).power = s.power := rfl
@[simp] theorem State.setHand_life (s : State) (h : Nat) (x : Hand) : (s.setHand h x).life = s.life := rfl
@[simp] theorem State.setHand_watch (s : State) (h : Nat) (x : Hand) : (s.setHand h x).watch = s.watch := rfl
@[simp] theorem State.setHand_parish (s : State) (h : Nat) (x : Hand) : (s.setHand h x).parish = s.parish := rfl
@[simp] theorem State.setHand_gateA (s : State) (h : Nat) (x : Hand) : (s.setHand h x).gateA = s.gateA := rfl
@[simp] theorem State.setHand_gateB (s : State) (h : Nat) (x : Hand) : (s.setHand h x).gateB = s.gateB := rfl
@[simp] theorem State.setHand_journal (s : State) (h : Nat) (x : Hand) : (s.setHand h x).journal = s.journal := rfl
@[simp] theorem State.setHand_tag (s : State) (h : Nat) (x : Hand) : (s.setHand h x).tag = s.tag := rfl
@[simp] theorem State.setHand_startup (s : State) (h : Nat) (x : Hand) : (s.setHand h x).startup = s.startup := rfl

/-! ### modHand -/

@[simp] theorem State.modHand_pending (s : State) (h : Nat) (f : Hand → Hand) : (s.modHand h f).pending = s.pending :=
  rfl
@[simp] theorem State.modHand_out (s : State) (h : Nat) (f : Hand → Hand) : (s.modHand h f).out = s.out := rfl
@[simp] theorem State.modHand_free (s : State) (h : Nat) (f : Hand → Hand) : (s.modHand h f).free = s.free := rfl
@[simp] theorem State.modHand_hands (s : State) (h : Nat) (f : Hand → Hand) :
    (s.modHand h f).hands = aput s.hands h (f (s.hand h)) :=
  rfl
@[simp] theorem State.modHand_cores (s : State) (h : Nat) (f : Hand → Hand) : (s.modHand h f).cores = s.cores := rfl
@[simp] theorem State.modHand_hamlets (s : State) (h : Nat) (f : Hand → Hand) : (s.modHand h f).hamlets = s.hamlets :=
  rfl
@[simp] theorem State.modHand_devAcu (s : State) (h : Nat) (f : Hand → Hand) : (s.modHand h f).devAcu = s.devAcu :=
  rfl
@[simp] theorem State.modHand_link (s : State) (h : Nat) (f : Hand → Hand) : (s.modHand h f).link = s.link := rfl
@[simp] theorem State.modHand_rings (s : State) (h : Nat) (f : Hand → Hand) : (s.modHand h f).rings = s.rings := rfl
@[simp] theorem State.modHand_steward (s : State) (h : Nat) (f : Hand → Hand) : (s.modHand h f).steward = s.steward :=
  rfl
@[simp] theorem State.modHand_store (s : State) (h : Nat) (f : Hand → Hand) : (s.modHand h f).store = s.store := rfl
@[simp] theorem State.modHand_lanes (s : State) (h : Nat) (f : Hand → Hand) : (s.modHand h f).lanes = s.lanes := rfl
@[simp] theorem State.modHand_savedLanes (s : State) (h : Nat) (f : Hand → Hand) :
    (s.modHand h f).savedLanes = s.savedLanes :=
  rfl
@[simp] theorem State.modHand_slices (s : State) (h : Nat) (f : Hand → Hand) : (s.modHand h f).slices = s.slices :=
  rfl
@[simp] theorem State.modHand_savedSlices (s : State) (h : Nat) (f : Hand → Hand) :
    (s.modHand h f).savedSlices = s.savedSlices :=
  rfl
@[simp] theorem State.modHand_ucode (s : State) (h : Nat) (f : Hand → Hand) : (s.modHand h f).ucode = s.ucode := rfl
@[simp] theorem State.modHand_vault (s : State) (h : Nat) (f : Hand → Hand) : (s.modHand h f).vault = s.vault := rfl
@[simp] theorem State.modHand_entropy (s : State) (h : Nat) (f : Hand → Hand) : (s.modHand h f).entropy = s.entropy :=
  rfl
@[simp] theorem State.modHand_flash (s : State) (h : Nat) (f : Hand → Hand) : (s.modHand h f).flash = s.flash := rfl
@[simp] theorem State.modHand_cascade (s : State) (h : Nat) (f : Hand → Hand) : (s.modHand h f).cascade = s.cascade :=
  rfl
@[simp] theorem State.modHand_power (s : State) (h : Nat) (f : Hand → Hand) : (s.modHand h f).power = s.power := rfl
@[simp] theorem State.modHand_life (s : State) (h : Nat) (f : Hand → Hand) : (s.modHand h f).life = s.life := rfl
@[simp] theorem State.modHand_watch (s : State) (h : Nat) (f : Hand → Hand) : (s.modHand h f).watch = s.watch := rfl
@[simp] theorem State.modHand_parish (s : State) (h : Nat) (f : Hand → Hand) : (s.modHand h f).parish = s.parish :=
  rfl
@[simp] theorem State.modHand_gateA (s : State) (h : Nat) (f : Hand → Hand) : (s.modHand h f).gateA = s.gateA := rfl
@[simp] theorem State.modHand_gateB (s : State) (h : Nat) (f : Hand → Hand) : (s.modHand h f).gateB = s.gateB := rfl
@[simp] theorem State.modHand_journal (s : State) (h : Nat) (f : Hand → Hand) : (s.modHand h f).journal = s.journal :=
  rfl
@[simp] theorem State.modHand_tag (s : State) (h : Nat) (f : Hand → Hand) : (s.modHand h f).tag = s.tag := rfl
@[simp] theorem State.modHand_startup (s : State) (h : Nat) (f : Hand → Hand) : (s.modHand h f).startup = s.startup :=
  rfl

/-! ### setCore -/

@[simp] theorem State.setCore_pending (s : State) (c : Nat) (x : Core) : (s.setCore c x).pending = s.pending := rfl
@[simp] theorem State.setCore_out (s : State) (c : Nat) (x : Core) : (s.setCore c x).out = s.out := rfl
@[simp] theorem State.setCore_free (s : State) (c : Nat) (x : Core) : (s.setCore c x).free = s.free := rfl
@[simp] theorem State.setCore_hands (s : State) (c : Nat) (x : Core) : (s.setCore c x).hands = s.hands := rfl
@[simp] theorem State.setCore_cores (s : State) (c : Nat) (x : Core) : (s.setCore c x).cores = aput s.cores c x := rfl
@[simp] theorem State.setCore_hamlets (s : State) (c : Nat) (x : Core) : (s.setCore c x).hamlets = s.hamlets := rfl
@[simp] theorem State.setCore_devAcu (s : State) (c : Nat) (x : Core) : (s.setCore c x).devAcu = s.devAcu := rfl
@[simp] theorem State.setCore_link (s : State) (c : Nat) (x : Core) : (s.setCore c x).link = s.link := rfl
@[simp] theorem State.setCore_rings (s : State) (c : Nat) (x : Core) : (s.setCore c x).rings = s.rings := rfl
@[simp] theorem State.setCore_steward (s : State) (c : Nat) (x : Core) : (s.setCore c x).steward = s.steward := rfl
@[simp] theorem State.setCore_store (s : State) (c : Nat) (x : Core) : (s.setCore c x).store = s.store := rfl
@[simp] theorem State.setCore_lanes (s : State) (c : Nat) (x : Core) : (s.setCore c x).lanes = s.lanes := rfl
@[simp] theorem State.setCore_savedLanes (s : State) (c : Nat) (x : Core) : (s.setCore c x).savedLanes = s.savedLanes :=
  rfl
@[simp] theorem State.setCore_slices (s : State) (c : Nat) (x : Core) : (s.setCore c x).slices = s.slices := rfl
@[simp] theorem State.setCore_savedSlices (s : State) (c : Nat) (x : Core) :
    (s.setCore c x).savedSlices = s.savedSlices :=
  rfl
@[simp] theorem State.setCore_ucode (s : State) (c : Nat) (x : Core) : (s.setCore c x).ucode = s.ucode := rfl
@[simp] theorem State.setCore_vault (s : State) (c : Nat) (x : Core) : (s.setCore c x).vault = s.vault := rfl
@[simp] theorem State.setCore_entropy (s : State) (c : Nat) (x : Core) : (s.setCore c x).entropy = s.entropy := rfl
@[simp] theorem State.setCore_flash (s : State) (c : Nat) (x : Core) : (s.setCore c x).flash = s.flash := rfl
@[simp] theorem State.setCore_cascade (s : State) (c : Nat) (x : Core) : (s.setCore c x).cascade = s.cascade := rfl
@[simp] theorem State.setCore_power (s : State) (c : Nat) (x : Core) : (s.setCore c x).power = s.power := rfl
@[simp] theorem State.setCore_life (s : State) (c : Nat) (x : Core) : (s.setCore c x).life = s.life := rfl
@[simp] theorem State.setCore_watch (s : State) (c : Nat) (x : Core) : (s.setCore c x).watch = s.watch := rfl
@[simp] theorem State.setCore_parish (s : State) (c : Nat) (x : Core) : (s.setCore c x).parish = s.parish := rfl
@[simp] theorem State.setCore_gateA (s : State) (c : Nat) (x : Core) : (s.setCore c x).gateA = s.gateA := rfl
@[simp] theorem State.setCore_gateB (s : State) (c : Nat) (x : Core) : (s.setCore c x).gateB = s.gateB := rfl
@[simp] theorem State.setCore_journal (s : State) (c : Nat) (x : Core) : (s.setCore c x).journal = s.journal := rfl
@[simp] theorem State.setCore_tag (s : State) (c : Nat) (x : Core) : (s.setCore c x).tag = s.tag := rfl
@[simp] theorem State.setCore_startup (s : State) (c : Nat) (x : Core) : (s.setCore c x).startup = s.startup := rfl

/-! ### modCore -/

@[simp] theorem State.modCore_pending (s : State) (c : Nat) (f : Core → Core) : (s.modCore c f).pending = s.pending :=
  rfl
@[simp] theorem State.modCore_out (s : State) (c : Nat) (f : Core → Core) : (s.modCore c f).out = s.out := rfl
@[simp] theorem State.modCore_free (s : State) (c : Nat) (f : Core → Core) : (s.modCore c f).free = s.free := rfl
@[simp] theorem State.modCore_hands (s : State) (c : Nat) (f : Core → Core) : (s.modCore c f).hands = s.hands := rfl
@[simp] theorem State.modCore_cores (s : State) (c : Nat) (f : Core → Core) :
    (s.modCore c f).cores = aput s.cores c (f (s.core c)) :=
  rfl
@[simp] theorem State.modCore_hamlets (s : State) (c : Nat) (f : Core → Core) : (s.modCore c f).hamlets = s.hamlets :=
  rfl
@[simp] theorem State.modCore_devAcu (s : State) (c : Nat) (f : Core → Core) : (s.modCore c f).devAcu = s.devAcu :=
  rfl
@[simp] theorem State.modCore_link (s : State) (c : Nat) (f : Core → Core) : (s.modCore c f).link = s.link := rfl
@[simp] theorem State.modCore_rings (s : State) (c : Nat) (f : Core → Core) : (s.modCore c f).rings = s.rings := rfl
@[simp] theorem State.modCore_steward (s : State) (c : Nat) (f : Core → Core) : (s.modCore c f).steward = s.steward :=
  rfl
@[simp] theorem State.modCore_store (s : State) (c : Nat) (f : Core → Core) : (s.modCore c f).store = s.store := rfl
@[simp] theorem State.modCore_lanes (s : State) (c : Nat) (f : Core → Core) : (s.modCore c f).lanes = s.lanes := rfl
@[simp] theorem State.modCore_savedLanes (s : State) (c : Nat) (f : Core → Core) :
    (s.modCore c f).savedLanes = s.savedLanes :=
  rfl
@[simp] theorem State.modCore_slices (s : State) (c : Nat) (f : Core → Core) : (s.modCore c f).slices = s.slices :=
  rfl
@[simp] theorem State.modCore_savedSlices (s : State) (c : Nat) (f : Core → Core) :
    (s.modCore c f).savedSlices = s.savedSlices :=
  rfl
@[simp] theorem State.modCore_ucode (s : State) (c : Nat) (f : Core → Core) : (s.modCore c f).ucode = s.ucode := rfl
@[simp] theorem State.modCore_vault (s : State) (c : Nat) (f : Core → Core) : (s.modCore c f).vault = s.vault := rfl
@[simp] theorem State.modCore_entropy (s : State) (c : Nat) (f : Core → Core) : (s.modCore c f).entropy = s.entropy :=
  rfl
@[simp] theorem State.modCore_flash (s : State) (c : Nat) (f : Core → Core) : (s.modCore c f).flash = s.flash := rfl
@[simp] theorem State.modCore_cascade (s : State) (c : Nat) (f : Core → Core) : (s.modCore c f).cascade = s.cascade :=
  rfl
@[simp] theorem State.modCore_power (s : State) (c : Nat) (f : Core → Core) : (s.modCore c f).power = s.power := rfl
@[simp] theorem State.modCore_life (s : State) (c : Nat) (f : Core → Core) : (s.modCore c f).life = s.life := rfl
@[simp] theorem State.modCore_watch (s : State) (c : Nat) (f : Core → Core) : (s.modCore c f).watch = s.watch := rfl
@[simp] theorem State.modCore_parish (s : State) (c : Nat) (f : Core → Core) : (s.modCore c f).parish = s.parish :=
  rfl
@[simp] theorem State.modCore_gateA (s : State) (c : Nat) (f : Core → Core) : (s.modCore c f).gateA = s.gateA := rfl
@[simp] theorem State.modCore_gateB (s : State) (c : Nat) (f : Core → Core) : (s.modCore c f).gateB = s.gateB := rfl
@[simp] theorem State.modCore_journal (s : State) (c : Nat) (f : Core → Core) : (s.modCore c f).journal = s.journal :=
  rfl
@[simp] theorem State.modCore_tag (s : State) (c : Nat) (f : Core → Core) : (s.modCore c f).tag = s.tag := rfl
@[simp] theorem State.modCore_startup (s : State) (c : Nat) (f : Core → Core) : (s.modCore c f).startup = s.startup :=
  rfl

/-! ### modHamlet -/

@[simp] theorem State.modHamlet_pending (s : State) (i : Nat) (f : Hamlet → Hamlet) :
    (s.modHamlet i f).pending = s.pending :=
  rfl
@[simp] theorem State.modHamlet_out (s : State) (i : Nat) (f : Hamlet → Hamlet) : (s.modHamlet i f).out = s.out := rfl
@[simp] theorem State.modHamlet_free (s : State) (i : Nat) (f : Hamlet → Hamlet) : (s.modHamlet i f).free = s.free :=
  rfl
@[simp] theorem State.modHamlet_hands (s : State) (i : Nat) (f : Hamlet → Hamlet) : (s.modHamlet i f).hands = s.hands :=
  rfl
@[simp] theorem State.modHamlet_cores (s : State) (i : Nat) (f : Hamlet → Hamlet) : (s.modHamlet i f).cores = s.cores :=
  rfl
@[simp] theorem State.modHamlet_hamlets (s : State) (i : Nat) (f : Hamlet → Hamlet) :
    (s.modHamlet i f).hamlets = aput s.hamlets i (f (s.hamlet i)) :=
  rfl
@[simp] theorem State.modHamlet_devAcu (s : State) (i : Nat) (f : Hamlet → Hamlet) :
    (s.modHamlet i f).devAcu = s.devAcu :=
  rfl
@[simp] theorem State.modHamlet_link (s : State) (i : Nat) (f : Hamlet → Hamlet) : (s.modHamlet i f).link = s.link :=
  rfl
@[simp] theorem State.modHamlet_rings (s : State) (i : Nat) (f : Hamlet → Hamlet) : (s.modHamlet i f).rings = s.rings :=
  rfl
@[simp] theorem State.modHamlet_steward (s : State) (i : Nat) (f : Hamlet → Hamlet) :
    (s.modHamlet i f).steward = s.steward :=
  rfl
@[simp] theorem State.modHamlet_store (s : State) (i : Nat) (f : Hamlet → Hamlet) : (s.modHamlet i f).store = s.store :=
  rfl
@[simp] theorem State.modHamlet_lanes (s : State) (i : Nat) (f : Hamlet → Hamlet) : (s.modHamlet i f).lanes = s.lanes :=
  rfl
@[simp] theorem State.modHamlet_savedLanes (s : State) (i : Nat) (f : Hamlet → Hamlet) :
    (s.modHamlet i f).savedLanes = s.savedLanes :=
  rfl
@[simp] theorem State.modHamlet_slices (s : State) (i : Nat) (f : Hamlet → Hamlet) :
    (s.modHamlet i f).slices = s.slices :=
  rfl
@[simp] theorem State.modHamlet_savedSlices (s : State) (i : Nat) (f : Hamlet → Hamlet) :
    (s.modHamlet i f).savedSlices = s.savedSlices :=
  rfl
@[simp] theorem State.modHamlet_ucode (s : State) (i : Nat) (f : Hamlet → Hamlet) : (s.modHamlet i f).ucode = s.ucode :=
  rfl
@[simp] theorem State.modHamlet_vault (s : State) (i : Nat) (f : Hamlet → Hamlet) : (s.modHamlet i f).vault = s.vault :=
  rfl
@[simp] theorem State.modHamlet_entropy (s : State) (i : Nat) (f : Hamlet → Hamlet) :
    (s.modHamlet i f).entropy = s.entropy :=
  rfl
@[simp] theorem State.modHamlet_flash (s : State) (i : Nat) (f : Hamlet → Hamlet) : (s.modHamlet i f).flash = s.flash :=
  rfl
@[simp] theorem State.modHamlet_cascade (s : State) (i : Nat) (f : Hamlet → Hamlet) :
    (s.modHamlet i f).cascade = s.cascade :=
  rfl
@[simp] theorem State.modHamlet_power (s : State) (i : Nat) (f : Hamlet → Hamlet) : (s.modHamlet i f).power = s.power :=
  rfl
@[simp] theorem State.modHamlet_life (s : State) (i : Nat) (f : Hamlet → Hamlet) : (s.modHamlet i f).life = s.life :=
  rfl
@[simp] theorem State.modHamlet_watch (s : State) (i : Nat) (f : Hamlet → Hamlet) : (s.modHamlet i f).watch = s.watch :=
  rfl
@[simp] theorem State.modHamlet_parish (s : State) (i : Nat) (f : Hamlet → Hamlet) :
    (s.modHamlet i f).parish = s.parish :=
  rfl
@[simp] theorem State.modHamlet_gateA (s : State) (i : Nat) (f : Hamlet → Hamlet) : (s.modHamlet i f).gateA = s.gateA :=
  rfl
@[simp] theorem State.modHamlet_gateB (s : State) (i : Nat) (f : Hamlet → Hamlet) : (s.modHamlet i f).gateB = s.gateB :=
  rfl
@[simp] theorem State.modHamlet_journal (s : State) (i : Nat) (f : Hamlet → Hamlet) :
    (s.modHamlet i f).journal = s.journal :=
  rfl
@[simp] theorem State.modHamlet_tag (s : State) (i : Nat) (f : Hamlet → Hamlet) : (s.modHamlet i f).tag = s.tag := rfl
@[simp] theorem State.modHamlet_startup (s : State) (i : Nat) (f : Hamlet → Hamlet) :
    (s.modHamlet i f).startup = s.startup :=
  rfl

/-! ### setRing -/

@[simp] theorem State.setRing_pending (s : State) (n : Nat) (x : Ring) : (s.setRing n x).pending = s.pending := rfl
@[simp] theorem State.setRing_out (s : State) (n : Nat) (x : Ring) : (s.setRing n x).out = s.out := rfl
@[simp] theorem State.setRing_free (s : State) (n : Nat) (x : Ring) : (s.setRing n x).free = s.free := rfl
@[simp] theorem State.setRing_hands (s : State) (n : Nat) (x : Ring) : (s.setRing n x).hands = s.hands := rfl
@[simp] theorem State.setRing_cores (s : State) (n : Nat) (x : Ring) : (s.setRing n x).cores = s.cores := rfl
@[simp] theorem State.setRing_hamlets (s : State) (n : Nat) (x : Ring) : (s.setRing n x).hamlets = s.hamlets := rfl
@[simp] theorem State.setRing_devAcu (s : State) (n : Nat) (x : Ring) : (s.setRing n x).devAcu = s.devAcu := rfl
@[simp] theorem State.setRing_link (s : State) (n : Nat) (x : Ring) : (s.setRing n x).link = s.link := rfl
@[simp] theorem State.setRing_rings (s : State) (n : Nat) (x : Ring) : (s.setRing n x).rings = aput s.rings n x := rfl
@[simp] theorem State.setRing_steward (s : State) (n : Nat) (x : Ring) : (s.setRing n x).steward = s.steward := rfl
@[simp] theorem State.setRing_store (s : State) (n : Nat) (x : Ring) : (s.setRing n x).store = s.store := rfl
@[simp] theorem State.setRing_lanes (s : State) (n : Nat) (x : Ring) : (s.setRing n x).lanes = s.lanes := rfl
@[simp] theorem State.setRing_savedLanes (s : State) (n : Nat) (x : Ring) : (s.setRing n x).savedLanes = s.savedLanes :=
  rfl
@[simp] theorem State.setRing_slices (s : State) (n : Nat) (x : Ring) : (s.setRing n x).slices = s.slices := rfl
@[simp] theorem State.setRing_savedSlices (s : State) (n : Nat) (x : Ring) :
    (s.setRing n x).savedSlices = s.savedSlices :=
  rfl
@[simp] theorem State.setRing_ucode (s : State) (n : Nat) (x : Ring) : (s.setRing n x).ucode = s.ucode := rfl
@[simp] theorem State.setRing_vault (s : State) (n : Nat) (x : Ring) : (s.setRing n x).vault = s.vault := rfl
@[simp] theorem State.setRing_entropy (s : State) (n : Nat) (x : Ring) : (s.setRing n x).entropy = s.entropy := rfl
@[simp] theorem State.setRing_flash (s : State) (n : Nat) (x : Ring) : (s.setRing n x).flash = s.flash := rfl
@[simp] theorem State.setRing_cascade (s : State) (n : Nat) (x : Ring) : (s.setRing n x).cascade = s.cascade := rfl
@[simp] theorem State.setRing_power (s : State) (n : Nat) (x : Ring) : (s.setRing n x).power = s.power := rfl
@[simp] theorem State.setRing_life (s : State) (n : Nat) (x : Ring) : (s.setRing n x).life = s.life := rfl
@[simp] theorem State.setRing_watch (s : State) (n : Nat) (x : Ring) : (s.setRing n x).watch = s.watch := rfl
@[simp] theorem State.setRing_parish (s : State) (n : Nat) (x : Ring) : (s.setRing n x).parish = s.parish := rfl
@[simp] theorem State.setRing_gateA (s : State) (n : Nat) (x : Ring) : (s.setRing n x).gateA = s.gateA := rfl
@[simp] theorem State.setRing_gateB (s : State) (n : Nat) (x : Ring) : (s.setRing n x).gateB = s.gateB := rfl
@[simp] theorem State.setRing_journal (s : State) (n : Nat) (x : Ring) : (s.setRing n x).journal = s.journal := rfl
@[simp] theorem State.setRing_tag (s : State) (n : Nat) (x : Ring) : (s.setRing n x).tag = s.tag := rfl
@[simp] theorem State.setRing_startup (s : State) (n : Nat) (x : Ring) : (s.setRing n x).startup = s.startup := rfl

/-! ### modRing -/

@[simp] theorem State.modRing_pending (s : State) (n : Nat) (f : Ring → Ring) : (s.modRing n f).pending = s.pending :=
  rfl
@[simp] theorem State.modRing_out (s : State) (n : Nat) (f : Ring → Ring) : (s.modRing n f).out = s.out := rfl
@[simp] theorem State.modRing_free (s : State) (n : Nat) (f : Ring → Ring) : (s.modRing n f).free = s.free := rfl
@[simp] theorem State.modRing_hands (s : State) (n : Nat) (f : Ring → Ring) : (s.modRing n f).hands = s.hands := rfl
@[simp] theorem State.modRing_cores (s : State) (n : Nat) (f : Ring → Ring) : (s.modRing n f).cores = s.cores := rfl
@[simp] theorem State.modRing_hamlets (s : State) (n : Nat) (f : Ring → Ring) : (s.modRing n f).hamlets = s.hamlets :=
  rfl
@[simp] theorem State.modRing_devAcu (s : State) (n : Nat) (f : Ring → Ring) : (s.modRing n f).devAcu = s.devAcu :=
  rfl
@[simp] theorem State.modRing_link (s : State) (n : Nat) (f : Ring → Ring) : (s.modRing n f).link = s.link := rfl
@[simp] theorem State.modRing_rings (s : State) (n : Nat) (f : Ring → Ring) :
    (s.modRing n f).rings = aput s.rings n (f (s.ring n)) :=
  rfl
@[simp] theorem State.modRing_steward (s : State) (n : Nat) (f : Ring → Ring) : (s.modRing n f).steward = s.steward :=
  rfl
@[simp] theorem State.modRing_store (s : State) (n : Nat) (f : Ring → Ring) : (s.modRing n f).store = s.store := rfl
@[simp] theorem State.modRing_lanes (s : State) (n : Nat) (f : Ring → Ring) : (s.modRing n f).lanes = s.lanes := rfl
@[simp] theorem State.modRing_savedLanes (s : State) (n : Nat) (f : Ring → Ring) :
    (s.modRing n f).savedLanes = s.savedLanes :=
  rfl
@[simp] theorem State.modRing_slices (s : State) (n : Nat) (f : Ring → Ring) : (s.modRing n f).slices = s.slices :=
  rfl
@[simp] theorem State.modRing_savedSlices (s : State) (n : Nat) (f : Ring → Ring) :
    (s.modRing n f).savedSlices = s.savedSlices :=
  rfl
@[simp] theorem State.modRing_ucode (s : State) (n : Nat) (f : Ring → Ring) : (s.modRing n f).ucode = s.ucode := rfl
@[simp] theorem State.modRing_vault (s : State) (n : Nat) (f : Ring → Ring) : (s.modRing n f).vault = s.vault := rfl
@[simp] theorem State.modRing_entropy (s : State) (n : Nat) (f : Ring → Ring) : (s.modRing n f).entropy = s.entropy :=
  rfl
@[simp] theorem State.modRing_flash (s : State) (n : Nat) (f : Ring → Ring) : (s.modRing n f).flash = s.flash := rfl
@[simp] theorem State.modRing_cascade (s : State) (n : Nat) (f : Ring → Ring) : (s.modRing n f).cascade = s.cascade :=
  rfl
@[simp] theorem State.modRing_power (s : State) (n : Nat) (f : Ring → Ring) : (s.modRing n f).power = s.power := rfl
@[simp] theorem State.modRing_life (s : State) (n : Nat) (f : Ring → Ring) : (s.modRing n f).life = s.life := rfl
@[simp] theorem State.modRing_watch (s : State) (n : Nat) (f : Ring → Ring) : (s.modRing n f).watch = s.watch := rfl
@[simp] theorem State.modRing_parish (s : State) (n : Nat) (f : Ring → Ring) : (s.modRing n f).parish = s.parish :=
  rfl
@[simp] theorem State.modRing_gateA (s : State) (n : Nat) (f : Ring → Ring) : (s.modRing n f).gateA = s.gateA := rfl
@[simp] theorem State.modRing_gateB (s : State) (n : Nat) (f : Ring → Ring) : (s.modRing n f).gateB = s.gateB := rfl
@[simp] theorem State.modRing_journal (s : State) (n : Nat) (f : Ring → Ring) : (s.modRing n f).journal = s.journal :=
  rfl
@[simp] theorem State.modRing_tag (s : State) (n : Nat) (f : Ring → Ring) : (s.modRing n f).tag = s.tag := rfl
@[simp] theorem State.modRing_startup (s : State) (n : Nat) (f : Ring → Ring) : (s.modRing n f).startup = s.startup :=
  rfl

/-! ### setLane -/

@[simp] theorem State.setLane_pending (s : State) (n : Nat) (x : Lane) : (s.setLane n x).pending = s.pending := rfl
@[simp] theorem State.setLane_out (s : State) (n : Nat) (x : Lane) : (s.setLane n x).out = s.out := rfl
@[simp] theorem State.setLane_free (s : State) (n : Nat) (x : Lane) : (s.setLane n x).free = s.free := rfl
@[simp] theorem State.setLane_hands (s : State) (n : Nat) (x : Lane) : (s.setLane n x).hands = s.hands := rfl
@[simp] theorem State.setLane_cores (s : State) (n : Nat) (x : Lane) : (s.setLane n x).cores = s.cores := rfl
@[simp] theorem State.setLane_hamlets (s : State) (n : Nat) (x : Lane) : (s.setLane n x).hamlets = s.hamlets := rfl
@[simp] theorem State.setLane_devAcu (s : State) (n : Nat) (x : Lane) : (s.setLane n x).devAcu = s.devAcu := rfl
@[simp] theorem State.setLane_link (s : State) (n : Nat) (x : Lane) : (s.setLane n x).link = s.link := rfl
@[simp] theorem State.setLane_rings (s : State) (n : Nat) (x : Lane) : (s.setLane n x).rings = s.rings := rfl
@[simp] theorem State.setLane_steward (s : State) (n : Nat) (x : Lane) : (s.setLane n x).steward = s.steward := rfl
@[simp] theorem State.setLane_store (s : State) (n : Nat) (x : Lane) : (s.setLane n x).store = s.store := rfl
@[simp] theorem State.setLane_lanes (s : State) (n : Nat) (x : Lane) : (s.setLane n x).lanes = aput s.lanes n x := rfl
@[simp] theorem State.setLane_savedLanes (s : State) (n : Nat) (x : Lane) : (s.setLane n x).savedLanes = s.savedLanes :=
  rfl
@[simp] theorem State.setLane_slices (s : State) (n : Nat) (x : Lane) : (s.setLane n x).slices = s.slices := rfl
@[simp] theorem State.setLane_savedSlices (s : State) (n : Nat) (x : Lane) :
    (s.setLane n x).savedSlices = s.savedSlices :=
  rfl
@[simp] theorem State.setLane_ucode (s : State) (n : Nat) (x : Lane) : (s.setLane n x).ucode = s.ucode := rfl
@[simp] theorem State.setLane_vault (s : State) (n : Nat) (x : Lane) : (s.setLane n x).vault = s.vault := rfl
@[simp] theorem State.setLane_entropy (s : State) (n : Nat) (x : Lane) : (s.setLane n x).entropy = s.entropy := rfl
@[simp] theorem State.setLane_flash (s : State) (n : Nat) (x : Lane) : (s.setLane n x).flash = s.flash := rfl
@[simp] theorem State.setLane_cascade (s : State) (n : Nat) (x : Lane) : (s.setLane n x).cascade = s.cascade := rfl
@[simp] theorem State.setLane_power (s : State) (n : Nat) (x : Lane) : (s.setLane n x).power = s.power := rfl
@[simp] theorem State.setLane_life (s : State) (n : Nat) (x : Lane) : (s.setLane n x).life = s.life := rfl
@[simp] theorem State.setLane_watch (s : State) (n : Nat) (x : Lane) : (s.setLane n x).watch = s.watch := rfl
@[simp] theorem State.setLane_parish (s : State) (n : Nat) (x : Lane) : (s.setLane n x).parish = s.parish := rfl
@[simp] theorem State.setLane_gateA (s : State) (n : Nat) (x : Lane) : (s.setLane n x).gateA = s.gateA := rfl
@[simp] theorem State.setLane_gateB (s : State) (n : Nat) (x : Lane) : (s.setLane n x).gateB = s.gateB := rfl
@[simp] theorem State.setLane_journal (s : State) (n : Nat) (x : Lane) : (s.setLane n x).journal = s.journal := rfl
@[simp] theorem State.setLane_tag (s : State) (n : Nat) (x : Lane) : (s.setLane n x).tag = s.tag := rfl
@[simp] theorem State.setLane_startup (s : State) (n : Nat) (x : Lane) : (s.setLane n x).startup = s.startup := rfl

/-! ### modLane -/

@[simp] theorem State.modLane_pending (s : State) (n : Nat) (f : Lane → Lane) : (s.modLane n f).pending = s.pending :=
  rfl
@[simp] theorem State.modLane_out (s : State) (n : Nat) (f : Lane → Lane) : (s.modLane n f).out = s.out := rfl
@[simp] theorem State.modLane_free (s : State) (n : Nat) (f : Lane → Lane) : (s.modLane n f).free = s.free := rfl
@[simp] theorem State.modLane_hands (s : State) (n : Nat) (f : Lane → Lane) : (s.modLane n f).hands = s.hands := rfl
@[simp] theorem State.modLane_cores (s : State) (n : Nat) (f : Lane → Lane) : (s.modLane n f).cores = s.cores := rfl
@[simp] theorem State.modLane_hamlets (s : State) (n : Nat) (f : Lane → Lane) : (s.modLane n f).hamlets = s.hamlets :=
  rfl
@[simp] theorem State.modLane_devAcu (s : State) (n : Nat) (f : Lane → Lane) : (s.modLane n f).devAcu = s.devAcu :=
  rfl
@[simp] theorem State.modLane_link (s : State) (n : Nat) (f : Lane → Lane) : (s.modLane n f).link = s.link := rfl
@[simp] theorem State.modLane_rings (s : State) (n : Nat) (f : Lane → Lane) : (s.modLane n f).rings = s.rings := rfl
@[simp] theorem State.modLane_steward (s : State) (n : Nat) (f : Lane → Lane) : (s.modLane n f).steward = s.steward :=
  rfl
@[simp] theorem State.modLane_store (s : State) (n : Nat) (f : Lane → Lane) : (s.modLane n f).store = s.store := rfl
@[simp] theorem State.modLane_lanes (s : State) (n : Nat) (f : Lane → Lane) :
    (s.modLane n f).lanes = aput s.lanes n (f (s.lane n)) :=
  rfl
@[simp] theorem State.modLane_savedLanes (s : State) (n : Nat) (f : Lane → Lane) :
    (s.modLane n f).savedLanes = s.savedLanes :=
  rfl
@[simp] theorem State.modLane_slices (s : State) (n : Nat) (f : Lane → Lane) : (s.modLane n f).slices = s.slices :=
  rfl
@[simp] theorem State.modLane_savedSlices (s : State) (n : Nat) (f : Lane → Lane) :
    (s.modLane n f).savedSlices = s.savedSlices :=
  rfl
@[simp] theorem State.modLane_ucode (s : State) (n : Nat) (f : Lane → Lane) : (s.modLane n f).ucode = s.ucode := rfl
@[simp] theorem State.modLane_vault (s : State) (n : Nat) (f : Lane → Lane) : (s.modLane n f).vault = s.vault := rfl
@[simp] theorem State.modLane_entropy (s : State) (n : Nat) (f : Lane → Lane) : (s.modLane n f).entropy = s.entropy :=
  rfl
@[simp] theorem State.modLane_flash (s : State) (n : Nat) (f : Lane → Lane) : (s.modLane n f).flash = s.flash := rfl
@[simp] theorem State.modLane_cascade (s : State) (n : Nat) (f : Lane → Lane) : (s.modLane n f).cascade = s.cascade :=
  rfl
@[simp] theorem State.modLane_power (s : State) (n : Nat) (f : Lane → Lane) : (s.modLane n f).power = s.power := rfl
@[simp] theorem State.modLane_life (s : State) (n : Nat) (f : Lane → Lane) : (s.modLane n f).life = s.life := rfl
@[simp] theorem State.modLane_watch (s : State) (n : Nat) (f : Lane → Lane) : (s.modLane n f).watch = s.watch := rfl
@[simp] theorem State.modLane_parish (s : State) (n : Nat) (f : Lane → Lane) : (s.modLane n f).parish = s.parish :=
  rfl
@[simp] theorem State.modLane_gateA (s : State) (n : Nat) (f : Lane → Lane) : (s.modLane n f).gateA = s.gateA := rfl
@[simp] theorem State.modLane_gateB (s : State) (n : Nat) (f : Lane → Lane) : (s.modLane n f).gateB = s.gateB := rfl
@[simp] theorem State.modLane_journal (s : State) (n : Nat) (f : Lane → Lane) : (s.modLane n f).journal = s.journal :=
  rfl
@[simp] theorem State.modLane_tag (s : State) (n : Nat) (f : Lane → Lane) : (s.modLane n f).tag = s.tag := rfl
@[simp] theorem State.modLane_startup (s : State) (n : Nat) (f : Lane → Lane) : (s.modLane n f).startup = s.startup :=
  rfl

/-! ### setSlice -/

@[simp] theorem State.setSlice_pending (s : State) (n : Nat) (x : Slice) : (s.setSlice n x).pending = s.pending := rfl
@[simp] theorem State.setSlice_out (s : State) (n : Nat) (x : Slice) : (s.setSlice n x).out = s.out := rfl
@[simp] theorem State.setSlice_free (s : State) (n : Nat) (x : Slice) : (s.setSlice n x).free = s.free := rfl
@[simp] theorem State.setSlice_hands (s : State) (n : Nat) (x : Slice) : (s.setSlice n x).hands = s.hands := rfl
@[simp] theorem State.setSlice_cores (s : State) (n : Nat) (x : Slice) : (s.setSlice n x).cores = s.cores := rfl
@[simp] theorem State.setSlice_hamlets (s : State) (n : Nat) (x : Slice) : (s.setSlice n x).hamlets = s.hamlets := rfl
@[simp] theorem State.setSlice_devAcu (s : State) (n : Nat) (x : Slice) : (s.setSlice n x).devAcu = s.devAcu := rfl
@[simp] theorem State.setSlice_link (s : State) (n : Nat) (x : Slice) : (s.setSlice n x).link = s.link := rfl
@[simp] theorem State.setSlice_rings (s : State) (n : Nat) (x : Slice) : (s.setSlice n x).rings = s.rings := rfl
@[simp] theorem State.setSlice_steward (s : State) (n : Nat) (x : Slice) : (s.setSlice n x).steward = s.steward := rfl
@[simp] theorem State.setSlice_store (s : State) (n : Nat) (x : Slice) : (s.setSlice n x).store = s.store := rfl
@[simp] theorem State.setSlice_lanes (s : State) (n : Nat) (x : Slice) : (s.setSlice n x).lanes = s.lanes := rfl
@[simp] theorem State.setSlice_savedLanes (s : State) (n : Nat) (x : Slice) :
    (s.setSlice n x).savedLanes = s.savedLanes :=
  rfl
@[simp] theorem State.setSlice_slices (s : State) (n : Nat) (x : Slice) : (s.setSlice n x).slices = aput s.slices n x :=
  rfl
@[simp] theorem State.setSlice_savedSlices (s : State) (n : Nat) (x : Slice) :
    (s.setSlice n x).savedSlices = s.savedSlices :=
  rfl
@[simp] theorem State.setSlice_ucode (s : State) (n : Nat) (x : Slice) : (s.setSlice n x).ucode = s.ucode := rfl
@[simp] theorem State.setSlice_vault (s : State) (n : Nat) (x : Slice) : (s.setSlice n x).vault = s.vault := rfl
@[simp] theorem State.setSlice_entropy (s : State) (n : Nat) (x : Slice) : (s.setSlice n x).entropy = s.entropy := rfl
@[simp] theorem State.setSlice_flash (s : State) (n : Nat) (x : Slice) : (s.setSlice n x).flash = s.flash := rfl
@[simp] theorem State.setSlice_cascade (s : State) (n : Nat) (x : Slice) : (s.setSlice n x).cascade = s.cascade := rfl
@[simp] theorem State.setSlice_power (s : State) (n : Nat) (x : Slice) : (s.setSlice n x).power = s.power := rfl
@[simp] theorem State.setSlice_life (s : State) (n : Nat) (x : Slice) : (s.setSlice n x).life = s.life := rfl
@[simp] theorem State.setSlice_watch (s : State) (n : Nat) (x : Slice) : (s.setSlice n x).watch = s.watch := rfl
@[simp] theorem State.setSlice_parish (s : State) (n : Nat) (x : Slice) : (s.setSlice n x).parish = s.parish := rfl
@[simp] theorem State.setSlice_gateA (s : State) (n : Nat) (x : Slice) : (s.setSlice n x).gateA = s.gateA := rfl
@[simp] theorem State.setSlice_gateB (s : State) (n : Nat) (x : Slice) : (s.setSlice n x).gateB = s.gateB := rfl
@[simp] theorem State.setSlice_journal (s : State) (n : Nat) (x : Slice) : (s.setSlice n x).journal = s.journal := rfl
@[simp] theorem State.setSlice_tag (s : State) (n : Nat) (x : Slice) : (s.setSlice n x).tag = s.tag := rfl
@[simp] theorem State.setSlice_startup (s : State) (n : Nat) (x : Slice) : (s.setSlice n x).startup = s.startup := rfl

/-! ### modSlice -/

@[simp] theorem State.modSlice_pending (s : State) (n : Nat) (f : Slice → Slice) : (s.modSlice n f).pending = s.pending :=
  rfl
@[simp] theorem State.modSlice_out (s : State) (n : Nat) (f : Slice → Slice) : (s.modSlice n f).out = s.out := rfl
@[simp] theorem State.modSlice_free (s : State) (n : Nat) (f : Slice → Slice) : (s.modSlice n f).free = s.free := rfl
@[simp] theorem State.modSlice_hands (s : State) (n : Nat) (f : Slice → Slice) : (s.modSlice n f).hands = s.hands :=
  rfl
@[simp] theorem State.modSlice_cores (s : State) (n : Nat) (f : Slice → Slice) : (s.modSlice n f).cores = s.cores :=
  rfl
@[simp] theorem State.modSlice_hamlets (s : State) (n : Nat) (f : Slice → Slice) : (s.modSlice n f).hamlets = s.hamlets :=
  rfl
@[simp] theorem State.modSlice_devAcu (s : State) (n : Nat) (f : Slice → Slice) : (s.modSlice n f).devAcu = s.devAcu :=
  rfl
@[simp] theorem State.modSlice_link (s : State) (n : Nat) (f : Slice → Slice) : (s.modSlice n f).link = s.link := rfl
@[simp] theorem State.modSlice_rings (s : State) (n : Nat) (f : Slice → Slice) : (s.modSlice n f).rings = s.rings :=
  rfl
@[simp] theorem State.modSlice_steward (s : State) (n : Nat) (f : Slice → Slice) : (s.modSlice n f).steward = s.steward :=
  rfl
@[simp] theorem State.modSlice_store (s : State) (n : Nat) (f : Slice → Slice) : (s.modSlice n f).store = s.store :=
  rfl
@[simp] theorem State.modSlice_lanes (s : State) (n : Nat) (f : Slice → Slice) : (s.modSlice n f).lanes = s.lanes :=
  rfl
@[simp] theorem State.modSlice_savedLanes (s : State) (n : Nat) (f : Slice → Slice) :
    (s.modSlice n f).savedLanes = s.savedLanes :=
  rfl
@[simp] theorem State.modSlice_slices (s : State) (n : Nat) (f : Slice → Slice) :
    (s.modSlice n f).slices = aput s.slices n (f (s.slice n)) :=
  rfl
@[simp] theorem State.modSlice_savedSlices (s : State) (n : Nat) (f : Slice → Slice) :
    (s.modSlice n f).savedSlices = s.savedSlices :=
  rfl
@[simp] theorem State.modSlice_ucode (s : State) (n : Nat) (f : Slice → Slice) : (s.modSlice n f).ucode = s.ucode :=
  rfl
@[simp] theorem State.modSlice_vault (s : State) (n : Nat) (f : Slice → Slice) : (s.modSlice n f).vault = s.vault :=
  rfl
@[simp] theorem State.modSlice_entropy (s : State) (n : Nat) (f : Slice → Slice) : (s.modSlice n f).entropy = s.entropy :=
  rfl
@[simp] theorem State.modSlice_flash (s : State) (n : Nat) (f : Slice → Slice) : (s.modSlice n f).flash = s.flash :=
  rfl
@[simp] theorem State.modSlice_cascade (s : State) (n : Nat) (f : Slice → Slice) : (s.modSlice n f).cascade = s.cascade :=
  rfl
@[simp] theorem State.modSlice_power (s : State) (n : Nat) (f : Slice → Slice) : (s.modSlice n f).power = s.power :=
  rfl
@[simp] theorem State.modSlice_life (s : State) (n : Nat) (f : Slice → Slice) : (s.modSlice n f).life = s.life := rfl
@[simp] theorem State.modSlice_watch (s : State) (n : Nat) (f : Slice → Slice) : (s.modSlice n f).watch = s.watch :=
  rfl
@[simp] theorem State.modSlice_parish (s : State) (n : Nat) (f : Slice → Slice) : (s.modSlice n f).parish = s.parish :=
  rfl
@[simp] theorem State.modSlice_gateA (s : State) (n : Nat) (f : Slice → Slice) : (s.modSlice n f).gateA = s.gateA :=
  rfl
@[simp] theorem State.modSlice_gateB (s : State) (n : Nat) (f : Slice → Slice) : (s.modSlice n f).gateB = s.gateB :=
  rfl
@[simp] theorem State.modSlice_journal (s : State) (n : Nat) (f : Slice → Slice) : (s.modSlice n f).journal = s.journal :=
  rfl
@[simp] theorem State.modSlice_tag (s : State) (n : Nat) (f : Slice → Slice) : (s.modSlice n f).tag = s.tag := rfl
@[simp] theorem State.modSlice_startup (s : State) (n : Nat) (f : Slice → Slice) : (s.modSlice n f).startup = s.startup :=
  rfl

/-! ### setErrand -/

@[simp] theorem State.setErrand_pending (s : State) (e : Nat) (x : Errand) : (s.setErrand e x).pending = s.pending :=
  rfl
@[simp] theorem State.setErrand_out (s : State) (e : Nat) (x : Errand) : (s.setErrand e x).out = s.out := rfl
@[simp] theorem State.setErrand_free (s : State) (e : Nat) (x : Errand) : (s.setErrand e x).free = s.free := rfl
@[simp] theorem State.setErrand_hands (s : State) (e : Nat) (x : Errand) : (s.setErrand e x).hands = s.hands := rfl
@[simp] theorem State.setErrand_cores (s : State) (e : Nat) (x : Errand) : (s.setErrand e x).cores = s.cores := rfl
@[simp] theorem State.setErrand_hamlets (s : State) (e : Nat) (x : Errand) : (s.setErrand e x).hamlets = s.hamlets :=
  rfl
@[simp] theorem State.setErrand_devAcu (s : State) (e : Nat) (x : Errand) : (s.setErrand e x).devAcu = s.devAcu := rfl
@[simp] theorem State.setErrand_link (s : State) (e : Nat) (x : Errand) : (s.setErrand e x).link = s.link := rfl
@[simp] theorem State.setErrand_rings (s : State) (e : Nat) (x : Errand) : (s.setErrand e x).rings = s.rings := rfl
@[simp] theorem State.setErrand_steward (s : State) (e : Nat) (x : Errand) :
    (s.setErrand e x).steward = { s.steward with errands := aput s.steward.errands e x } :=
  rfl
@[simp] theorem State.setErrand_store (s : State) (e : Nat) (x : Errand) : (s.setErrand e x).store = s.store := rfl
@[simp] theorem State.setErrand_lanes (s : State) (e : Nat) (x : Errand) : (s.setErrand e x).lanes = s.lanes := rfl
@[simp] theorem State.setErrand_savedLanes (s : State) (e : Nat) (x : Errand) :
    (s.setErrand e x).savedLanes = s.savedLanes :=
  rfl
@[simp] theorem State.setErrand_slices (s : State) (e : Nat) (x : Errand) : (s.setErrand e x).slices = s.slices := rfl
@[simp] theorem State.setErrand_savedSlices (s : State) (e : Nat) (x : Errand) :
    (s.setErrand e x).savedSlices = s.savedSlices :=
  rfl
@[simp] theorem State.setErrand_ucode (s : State) (e : Nat) (x : Errand) : (s.setErrand e x).ucode = s.ucode := rfl
@[simp] theorem State.setErrand_vault (s : State) (e : Nat) (x : Errand) : (s.setErrand e x).vault = s.vault := rfl
@[simp] theorem State.setErrand_entropy (s : State) (e : Nat) (x : Errand) : (s.setErrand e x).entropy = s.entropy :=
  rfl
@[simp] theorem State.setErrand_flash (s : State) (e : Nat) (x : Errand) : (s.setErrand e x).flash = s.flash := rfl
@[simp] theorem State.setErrand_cascade (s : State) (e : Nat) (x : Errand) : (s.setErrand e x).cascade = s.cascade :=
  rfl
@[simp] theorem State.setErrand_power (s : State) (e : Nat) (x : Errand) : (s.setErrand e x).power = s.power := rfl
@[simp] theorem State.setErrand_life (s : State) (e : Nat) (x : Errand) : (s.setErrand e x).life = s.life := rfl
@[simp] theorem State.setErrand_watch (s : State) (e : Nat) (x : Errand) : (s.setErrand e x).watch = s.watch := rfl
@[simp] theorem State.setErrand_parish (s : State) (e : Nat) (x : Errand) : (s.setErrand e x).parish = s.parish := rfl
@[simp] theorem State.setErrand_gateA (s : State) (e : Nat) (x : Errand) : (s.setErrand e x).gateA = s.gateA := rfl
@[simp] theorem State.setErrand_gateB (s : State) (e : Nat) (x : Errand) : (s.setErrand e x).gateB = s.gateB := rfl
@[simp] theorem State.setErrand_journal (s : State) (e : Nat) (x : Errand) : (s.setErrand e x).journal = s.journal :=
  rfl
@[simp] theorem State.setErrand_tag (s : State) (e : Nat) (x : Errand) : (s.setErrand e x).tag = s.tag := rfl
@[simp] theorem State.setErrand_startup (s : State) (e : Nat) (x : Errand) : (s.setErrand e x).startup = s.startup :=
  rfl

/-! ### emit -/

@[simp] theorem State.emit_pending (s : State) (o : Out) : (s.emit o).pending = s.pending := rfl
@[simp] theorem State.emit_out (s : State) (o : Out) : (s.emit o).out = s.out ++ [o] := rfl
@[simp] theorem State.emit_free (s : State) (o : Out) : (s.emit o).free = s.free := rfl
@[simp] theorem State.emit_hands (s : State) (o : Out) : (s.emit o).hands = s.hands := rfl
@[simp] theorem State.emit_cores (s : State) (o : Out) : (s.emit o).cores = s.cores := rfl
@[simp] theorem State.emit_hamlets (s : State) (o : Out) : (s.emit o).hamlets = s.hamlets := rfl
@[simp] theorem State.emit_devAcu (s : State) (o : Out) : (s.emit o).devAcu = s.devAcu := rfl
@[simp] theorem State.emit_link (s : State) (o : Out) : (s.emit o).link = s.link := rfl
@[simp] theorem State.emit_rings (s : State) (o : Out) : (s.emit o).rings = s.rings := rfl
@[simp] theorem State.emit_steward (s : State) (o : Out) : (s.emit o).steward = s.steward := rfl
@[simp] theorem State.emit_store (s : State) (o : Out) : (s.emit o).store = s.store := rfl
@[simp] theorem State.emit_lanes (s : State) (o : Out) : (s.emit o).lanes = s.lanes := rfl
@[simp] theorem State.emit_savedLanes (s : State) (o : Out) : (s.emit o).savedLanes = s.savedLanes := rfl
@[simp] theorem State.emit_slices (s : State) (o : Out) : (s.emit o).slices = s.slices := rfl
@[simp] theorem State.emit_savedSlices (s : State) (o : Out) : (s.emit o).savedSlices = s.savedSlices := rfl
@[simp] theorem State.emit_ucode (s : State) (o : Out) : (s.emit o).ucode = s.ucode := rfl
@[simp] theorem State.emit_vault (s : State) (o : Out) : (s.emit o).vault = s.vault := rfl
@[simp] theorem State.emit_entropy (s : State) (o : Out) : (s.emit o).entropy = s.entropy := rfl
@[simp] theorem State.emit_flash (s : State) (o : Out) : (s.emit o).flash = s.flash := rfl
@[simp] theorem State.emit_cascade (s : State) (o : Out) : (s.emit o).cascade = s.cascade := rfl
@[simp] theorem State.emit_power (s : State) (o : Out) : (s.emit o).power = s.power := rfl
@[simp] theorem State.emit_life (s : State) (o : Out) : (s.emit o).life = s.life := rfl
@[simp] theorem State.emit_watch (s : State) (o : Out) : (s.emit o).watch = s.watch := rfl
@[simp] theorem State.emit_parish (s : State) (o : Out) : (s.emit o).parish = s.parish := rfl
@[simp] theorem State.emit_gateA (s : State) (o : Out) : (s.emit o).gateA = s.gateA := rfl
@[simp] theorem State.emit_gateB (s : State) (o : Out) : (s.emit o).gateB = s.gateB := rfl
@[simp] theorem State.emit_journal (s : State) (o : Out) : (s.emit o).journal = s.journal := rfl
@[simp] theorem State.emit_tag (s : State) (o : Out) : (s.emit o).tag = s.tag := rfl
@[simp] theorem State.emit_startup (s : State) (o : Out) : (s.emit o).startup = s.startup := rfl

/-! ### modSteward -/

@[simp] theorem State.modSteward_pending (s : State) (f : Steward → Steward) : (s.modSteward f).pending = s.pending :=
  rfl
@[simp] theorem State.modSteward_out (s : State) (f : Steward → Steward) : (s.modSteward f).out = s.out := rfl
@[simp] theorem State.modSteward_free (s : State) (f : Steward → Steward) : (s.modSteward f).free = s.free := rfl
@[simp] theorem State.modSteward_hands (s : State) (f : Steward → Steward) : (s.modSteward f).hands = s.hands := rfl
@[simp] theorem State.modSteward_cores (s : State) (f : Steward → Steward) : (s.modSteward f).cores = s.cores := rfl
@[simp] theorem State.modSteward_hamlets (s : State) (f : Steward → Steward) : (s.modSteward f).hamlets = s.hamlets :=
  rfl
@[simp] theorem State.modSteward_devAcu (s : State) (f : Steward → Steward) : (s.modSteward f).devAcu = s.devAcu :=
  rfl
@[simp] theorem State.modSteward_link (s : State) (f : Steward → Steward) : (s.modSteward f).link = s.link := rfl
@[simp] theorem State.modSteward_rings (s : State) (f : Steward → Steward) : (s.modSteward f).rings = s.rings := rfl
@[simp] theorem State.modSteward_steward (s : State) (f : Steward → Steward) : (s.modSteward f).steward = f s.steward :=
  rfl
@[simp] theorem State.modSteward_store (s : State) (f : Steward → Steward) : (s.modSteward f).store = s.store := rfl
@[simp] theorem State.modSteward_lanes (s : State) (f : Steward → Steward) : (s.modSteward f).lanes = s.lanes := rfl
@[simp] theorem State.modSteward_savedLanes (s : State) (f : Steward → Steward) :
    (s.modSteward f).savedLanes = s.savedLanes :=
  rfl
@[simp] theorem State.modSteward_slices (s : State) (f : Steward → Steward) : (s.modSteward f).slices = s.slices :=
  rfl
@[simp] theorem State.modSteward_savedSlices (s : State) (f : Steward → Steward) :
    (s.modSteward f).savedSlices = s.savedSlices :=
  rfl
@[simp] theorem State.modSteward_ucode (s : State) (f : Steward → Steward) : (s.modSteward f).ucode = s.ucode := rfl
@[simp] theorem State.modSteward_vault (s : State) (f : Steward → Steward) : (s.modSteward f).vault = s.vault := rfl
@[simp] theorem State.modSteward_entropy (s : State) (f : Steward → Steward) : (s.modSteward f).entropy = s.entropy :=
  rfl
@[simp] theorem State.modSteward_flash (s : State) (f : Steward → Steward) : (s.modSteward f).flash = s.flash := rfl
@[simp] theorem State.modSteward_cascade (s : State) (f : Steward → Steward) : (s.modSteward f).cascade = s.cascade :=
  rfl
@[simp] theorem State.modSteward_power (s : State) (f : Steward → Steward) : (s.modSteward f).power = s.power := rfl
@[simp] theorem State.modSteward_life (s : State) (f : Steward → Steward) : (s.modSteward f).life = s.life := rfl
@[simp] theorem State.modSteward_watch (s : State) (f : Steward → Steward) : (s.modSteward f).watch = s.watch := rfl
@[simp] theorem State.modSteward_parish (s : State) (f : Steward → Steward) : (s.modSteward f).parish = s.parish :=
  rfl
@[simp] theorem State.modSteward_gateA (s : State) (f : Steward → Steward) : (s.modSteward f).gateA = s.gateA := rfl
@[simp] theorem State.modSteward_gateB (s : State) (f : Steward → Steward) : (s.modSteward f).gateB = s.gateB := rfl
@[simp] theorem State.modSteward_journal (s : State) (f : Steward → Steward) : (s.modSteward f).journal = s.journal :=
  rfl
@[simp] theorem State.modSteward_tag (s : State) (f : Steward → Steward) : (s.modSteward f).tag = s.tag := rfl
@[simp] theorem State.modSteward_startup (s : State) (f : Steward → Steward) : (s.modSteward f).startup = s.startup :=
  rfl

/-! ### modLink -/

@[simp] theorem State.modLink_pending (s : State) (f : HostLink → HostLink) : (s.modLink f).pending = s.pending := rfl
@[simp] theorem State.modLink_out (s : State) (f : HostLink → HostLink) : (s.modLink f).out = s.out := rfl
@[simp] theorem State.modLink_free (s : State) (f : HostLink → HostLink) : (s.modLink f).free = s.free := rfl
@[simp] theorem State.modLink_hands (s : State) (f : HostLink → HostLink) : (s.modLink f).hands = s.hands := rfl
@[simp] theorem State.modLink_cores (s : State) (f : HostLink → HostLink) : (s.modLink f).cores = s.cores := rfl
@[simp] theorem State.modLink_hamlets (s : State) (f : HostLink → HostLink) : (s.modLink f).hamlets = s.hamlets := rfl
@[simp] theorem State.modLink_devAcu (s : State) (f : HostLink → HostLink) : (s.modLink f).devAcu = s.devAcu := rfl
@[simp] theorem State.modLink_link (s : State) (f : HostLink → HostLink) : (s.modLink f).link = f s.link := rfl
@[simp] theorem State.modLink_rings (s : State) (f : HostLink → HostLink) : (s.modLink f).rings = s.rings := rfl
@[simp] theorem State.modLink_steward (s : State) (f : HostLink → HostLink) : (s.modLink f).steward = s.steward := rfl
@[simp] theorem State.modLink_store (s : State) (f : HostLink → HostLink) : (s.modLink f).store = s.store := rfl
@[simp] theorem State.modLink_lanes (s : State) (f : HostLink → HostLink) : (s.modLink f).lanes = s.lanes := rfl
@[simp] theorem State.modLink_savedLanes (s : State) (f : HostLink → HostLink) :
    (s.modLink f).savedLanes = s.savedLanes :=
  rfl
@[simp] theorem State.modLink_slices (s : State) (f : HostLink → HostLink) : (s.modLink f).slices = s.slices := rfl
@[simp] theorem State.modLink_savedSlices (s : State) (f : HostLink → HostLink) :
    (s.modLink f).savedSlices = s.savedSlices :=
  rfl
@[simp] theorem State.modLink_ucode (s : State) (f : HostLink → HostLink) : (s.modLink f).ucode = s.ucode := rfl
@[simp] theorem State.modLink_vault (s : State) (f : HostLink → HostLink) : (s.modLink f).vault = s.vault := rfl
@[simp] theorem State.modLink_entropy (s : State) (f : HostLink → HostLink) : (s.modLink f).entropy = s.entropy := rfl
@[simp] theorem State.modLink_flash (s : State) (f : HostLink → HostLink) : (s.modLink f).flash = s.flash := rfl
@[simp] theorem State.modLink_cascade (s : State) (f : HostLink → HostLink) : (s.modLink f).cascade = s.cascade := rfl
@[simp] theorem State.modLink_power (s : State) (f : HostLink → HostLink) : (s.modLink f).power = s.power := rfl
@[simp] theorem State.modLink_life (s : State) (f : HostLink → HostLink) : (s.modLink f).life = s.life := rfl
@[simp] theorem State.modLink_watch (s : State) (f : HostLink → HostLink) : (s.modLink f).watch = s.watch := rfl
@[simp] theorem State.modLink_parish (s : State) (f : HostLink → HostLink) : (s.modLink f).parish = s.parish := rfl
@[simp] theorem State.modLink_gateA (s : State) (f : HostLink → HostLink) : (s.modLink f).gateA = s.gateA := rfl
@[simp] theorem State.modLink_gateB (s : State) (f : HostLink → HostLink) : (s.modLink f).gateB = s.gateB := rfl
@[simp] theorem State.modLink_journal (s : State) (f : HostLink → HostLink) : (s.modLink f).journal = s.journal := rfl
@[simp] theorem State.modLink_tag (s : State) (f : HostLink → HostLink) : (s.modLink f).tag = s.tag := rfl
@[simp] theorem State.modLink_startup (s : State) (f : HostLink → HostLink) : (s.modLink f).startup = s.startup := rfl

/-! ### modStore -/

@[simp] theorem State.modStore_pending (s : State) (f : Store → Store) : (s.modStore f).pending = s.pending := rfl
@[simp] theorem State.modStore_out (s : State) (f : Store → Store) : (s.modStore f).out = s.out := rfl
@[simp] theorem State.modStore_free (s : State) (f : Store → Store) : (s.modStore f).free = s.free := rfl
@[simp] theorem State.modStore_hands (s : State) (f : Store → Store) : (s.modStore f).hands = s.hands := rfl
@[simp] theorem State.modStore_cores (s : State) (f : Store → Store) : (s.modStore f).cores = s.cores := rfl
@[simp] theorem State.modStore_hamlets (s : State) (f : Store → Store) : (s.modStore f).hamlets = s.hamlets := rfl
@[simp] theorem State.modStore_devAcu (s : State) (f : Store → Store) : (s.modStore f).devAcu = s.devAcu := rfl
@[simp] theorem State.modStore_link (s : State) (f : Store → Store) : (s.modStore f).link = s.link := rfl
@[simp] theorem State.modStore_rings (s : State) (f : Store → Store) : (s.modStore f).rings = s.rings := rfl
@[simp] theorem State.modStore_steward (s : State) (f : Store → Store) : (s.modStore f).steward = s.steward := rfl
@[simp] theorem State.modStore_store (s : State) (f : Store → Store) : (s.modStore f).store = f s.store := rfl
@[simp] theorem State.modStore_lanes (s : State) (f : Store → Store) : (s.modStore f).lanes = s.lanes := rfl
@[simp] theorem State.modStore_savedLanes (s : State) (f : Store → Store) : (s.modStore f).savedLanes = s.savedLanes :=
  rfl
@[simp] theorem State.modStore_slices (s : State) (f : Store → Store) : (s.modStore f).slices = s.slices := rfl
@[simp] theorem State.modStore_savedSlices (s : State) (f : Store → Store) : (s.modStore f).savedSlices = s.savedSlices :=
  rfl
@[simp] theorem State.modStore_ucode (s : State) (f : Store → Store) : (s.modStore f).ucode = s.ucode := rfl
@[simp] theorem State.modStore_vault (s : State) (f : Store → Store) : (s.modStore f).vault = s.vault := rfl
@[simp] theorem State.modStore_entropy (s : State) (f : Store → Store) : (s.modStore f).entropy = s.entropy := rfl
@[simp] theorem State.modStore_flash (s : State) (f : Store → Store) : (s.modStore f).flash = s.flash := rfl
@[simp] theorem State.modStore_cascade (s : State) (f : Store → Store) : (s.modStore f).cascade = s.cascade := rfl
@[simp] theorem State.modStore_power (s : State) (f : Store → Store) : (s.modStore f).power = s.power := rfl
@[simp] theorem State.modStore_life (s : State) (f : Store → Store) : (s.modStore f).life = s.life := rfl
@[simp] theorem State.modStore_watch (s : State) (f : Store → Store) : (s.modStore f).watch = s.watch := rfl
@[simp] theorem State.modStore_parish (s : State) (f : Store → Store) : (s.modStore f).parish = s.parish := rfl
@[simp] theorem State.modStore_gateA (s : State) (f : Store → Store) : (s.modStore f).gateA = s.gateA := rfl
@[simp] theorem State.modStore_gateB (s : State) (f : Store → Store) : (s.modStore f).gateB = s.gateB := rfl
@[simp] theorem State.modStore_journal (s : State) (f : Store → Store) : (s.modStore f).journal = s.journal := rfl
@[simp] theorem State.modStore_tag (s : State) (f : Store → Store) : (s.modStore f).tag = s.tag := rfl
@[simp] theorem State.modStore_startup (s : State) (f : Store → Store) : (s.modStore f).startup = s.startup := rfl

/-! ### modVault -/

@[simp] theorem State.modVault_pending (s : State) (f : Vault → Vault) : (s.modVault f).pending = s.pending := rfl
@[simp] theorem State.modVault_out (s : State) (f : Vault → Vault) : (s.modVault f).out = s.out := rfl
@[simp] theorem State.modVault_free (s : State) (f : Vault → Vault) : (s.modVault f).free = s.free := rfl
@[simp] theorem State.modVault_hands (s : State) (f : Vault → Vault) : (s.modVault f).hands = s.hands := rfl
@[simp] theorem State.modVault_cores (s : State) (f : Vault → Vault) : (s.modVault f).cores = s.cores := rfl
@[simp] theorem State.modVault_hamlets (s : State) (f : Vault → Vault) : (s.modVault f).hamlets = s.hamlets := rfl
@[simp] theorem State.modVault_devAcu (s : State) (f : Vault → Vault) : (s.modVault f).devAcu = s.devAcu := rfl
@[simp] theorem State.modVault_link (s : State) (f : Vault → Vault) : (s.modVault f).link = s.link := rfl
@[simp] theorem State.modVault_rings (s : State) (f : Vault → Vault) : (s.modVault f).rings = s.rings := rfl
@[simp] theorem State.modVault_steward (s : State) (f : Vault → Vault) : (s.modVault f).steward = s.steward := rfl
@[simp] theorem State.modVault_store (s : State) (f : Vault → Vault) : (s.modVault f).store = s.store := rfl
@[simp] theorem State.modVault_lanes (s : State) (f : Vault → Vault) : (s.modVault f).lanes = s.lanes := rfl
@[simp] theorem State.modVault_savedLanes (s : State) (f : Vault → Vault) : (s.modVault f).savedLanes = s.savedLanes :=
  rfl
@[simp] theorem State.modVault_slices (s : State) (f : Vault → Vault) : (s.modVault f).slices = s.slices := rfl
@[simp] theorem State.modVault_savedSlices (s : State) (f : Vault → Vault) : (s.modVault f).savedSlices = s.savedSlices :=
  rfl
@[simp] theorem State.modVault_ucode (s : State) (f : Vault → Vault) : (s.modVault f).ucode = s.ucode := rfl
@[simp] theorem State.modVault_vault (s : State) (f : Vault → Vault) : (s.modVault f).vault = f s.vault := rfl
@[simp] theorem State.modVault_entropy (s : State) (f : Vault → Vault) : (s.modVault f).entropy = s.entropy := rfl
@[simp] theorem State.modVault_flash (s : State) (f : Vault → Vault) : (s.modVault f).flash = s.flash := rfl
@[simp] theorem State.modVault_cascade (s : State) (f : Vault → Vault) : (s.modVault f).cascade = s.cascade := rfl
@[simp] theorem State.modVault_power (s : State) (f : Vault → Vault) : (s.modVault f).power = s.power := rfl
@[simp] theorem State.modVault_life (s : State) (f : Vault → Vault) : (s.modVault f).life = s.life := rfl
@[simp] theorem State.modVault_watch (s : State) (f : Vault → Vault) : (s.modVault f).watch = s.watch := rfl
@[simp] theorem State.modVault_parish (s : State) (f : Vault → Vault) : (s.modVault f).parish = s.parish := rfl
@[simp] theorem State.modVault_gateA (s : State) (f : Vault → Vault) : (s.modVault f).gateA = s.gateA := rfl
@[simp] theorem State.modVault_gateB (s : State) (f : Vault → Vault) : (s.modVault f).gateB = s.gateB := rfl
@[simp] theorem State.modVault_journal (s : State) (f : Vault → Vault) : (s.modVault f).journal = s.journal := rfl
@[simp] theorem State.modVault_tag (s : State) (f : Vault → Vault) : (s.modVault f).tag = s.tag := rfl
@[simp] theorem State.modVault_startup (s : State) (f : Vault → Vault) : (s.modVault f).startup = s.startup := rfl

/-! ### modEntropy -/

@[simp] theorem State.modEntropy_pending (s : State) (f : Entropy → Entropy) : (s.modEntropy f).pending = s.pending :=
  rfl
@[simp] theorem State.modEntropy_out (s : State) (f : Entropy → Entropy) : (s.modEntropy f).out = s.out := rfl
@[simp] theorem State.modEntropy_free (s : State) (f : Entropy → Entropy) : (s.modEntropy f).free = s.free := rfl
@[simp] theorem State.modEntropy_hands (s : State) (f : Entropy → Entropy) : (s.modEntropy f).hands = s.hands := rfl
@[simp] theorem State.modEntropy_cores (s : State) (f : Entropy → Entropy) : (s.modEntropy f).cores = s.cores := rfl
@[simp] theorem State.modEntropy_hamlets (s : State) (f : Entropy → Entropy) : (s.modEntropy f).hamlets = s.hamlets :=
  rfl
@[simp] theorem State.modEntropy_devAcu (s : State) (f : Entropy → Entropy) : (s.modEntropy f).devAcu = s.devAcu :=
  rfl
@[simp] theorem State.modEntropy_link (s : State) (f : Entropy → Entropy) : (s.modEntropy f).link = s.link := rfl
@[simp] theorem State.modEntropy_rings (s : State) (f : Entropy → Entropy) : (s.modEntropy f).rings = s.rings := rfl
@[simp] theorem State.modEntropy_steward (s : State) (f : Entropy → Entropy) : (s.modEntropy f).steward = s.steward :=
  rfl
@[simp] theorem State.modEntropy_store (s : State) (f : Entropy → Entropy) : (s.modEntropy f).store = s.store := rfl
@[simp] theorem State.modEntropy_lanes (s : State) (f : Entropy → Entropy) : (s.modEntropy f).lanes = s.lanes := rfl
@[simp] theorem State.modEntropy_savedLanes (s : State) (f : Entropy → Entropy) :
    (s.modEntropy f).savedLanes = s.savedLanes :=
  rfl
@[simp] theorem State.modEntropy_slices (s : State) (f : Entropy → Entropy) : (s.modEntropy f).slices = s.slices :=
  rfl
@[simp] theorem State.modEntropy_savedSlices (s : State) (f : Entropy → Entropy) :
    (s.modEntropy f).savedSlices = s.savedSlices :=
  rfl
@[simp] theorem State.modEntropy_ucode (s : State) (f : Entropy → Entropy) : (s.modEntropy f).ucode = s.ucode := rfl
@[simp] theorem State.modEntropy_vault (s : State) (f : Entropy → Entropy) : (s.modEntropy f).vault = s.vault := rfl
@[simp] theorem State.modEntropy_entropy (s : State) (f : Entropy → Entropy) : (s.modEntropy f).entropy = f s.entropy :=
  rfl
@[simp] theorem State.modEntropy_flash (s : State) (f : Entropy → Entropy) : (s.modEntropy f).flash = s.flash := rfl
@[simp] theorem State.modEntropy_cascade (s : State) (f : Entropy → Entropy) : (s.modEntropy f).cascade = s.cascade :=
  rfl
@[simp] theorem State.modEntropy_power (s : State) (f : Entropy → Entropy) : (s.modEntropy f).power = s.power := rfl
@[simp] theorem State.modEntropy_life (s : State) (f : Entropy → Entropy) : (s.modEntropy f).life = s.life := rfl
@[simp] theorem State.modEntropy_watch (s : State) (f : Entropy → Entropy) : (s.modEntropy f).watch = s.watch := rfl
@[simp] theorem State.modEntropy_parish (s : State) (f : Entropy → Entropy) : (s.modEntropy f).parish = s.parish :=
  rfl
@[simp] theorem State.modEntropy_gateA (s : State) (f : Entropy → Entropy) : (s.modEntropy f).gateA = s.gateA := rfl
@[simp] theorem State.modEntropy_gateB (s : State) (f : Entropy → Entropy) : (s.modEntropy f).gateB = s.gateB := rfl
@[simp] theorem State.modEntropy_journal (s : State) (f : Entropy → Entropy) : (s.modEntropy f).journal = s.journal :=
  rfl
@[simp] theorem State.modEntropy_tag (s : State) (f : Entropy → Entropy) : (s.modEntropy f).tag = s.tag := rfl
@[simp] theorem State.modEntropy_startup (s : State) (f : Entropy → Entropy) : (s.modEntropy f).startup = s.startup :=
  rfl

/-! ### modFlash -/

@[simp] theorem State.modFlash_pending (s : State) (f : Flash → Flash) : (s.modFlash f).pending = s.pending := rfl
@[simp] theorem State.modFlash_out (s : State) (f : Flash → Flash) : (s.modFlash f).out = s.out := rfl
@[simp] theorem State.modFlash_free (s : State) (f : Flash → Flash) : (s.modFlash f).free = s.free := rfl
@[simp] theorem State.modFlash_hands (s : State) (f : Flash → Flash) : (s.modFlash f).hands = s.hands := rfl
@[simp] theorem State.modFlash_cores (s : State) (f : Flash → Flash) : (s.modFlash f).cores = s.cores := rfl
@[simp] theorem State.modFlash_hamlets (s : State) (f : Flash → Flash) : (s.modFlash f).hamlets = s.hamlets := rfl
@[simp] theorem State.modFlash_devAcu (s : State) (f : Flash → Flash) : (s.modFlash f).devAcu = s.devAcu := rfl
@[simp] theorem State.modFlash_link (s : State) (f : Flash → Flash) : (s.modFlash f).link = s.link := rfl
@[simp] theorem State.modFlash_rings (s : State) (f : Flash → Flash) : (s.modFlash f).rings = s.rings := rfl
@[simp] theorem State.modFlash_steward (s : State) (f : Flash → Flash) : (s.modFlash f).steward = s.steward := rfl
@[simp] theorem State.modFlash_store (s : State) (f : Flash → Flash) : (s.modFlash f).store = s.store := rfl
@[simp] theorem State.modFlash_lanes (s : State) (f : Flash → Flash) : (s.modFlash f).lanes = s.lanes := rfl
@[simp] theorem State.modFlash_savedLanes (s : State) (f : Flash → Flash) : (s.modFlash f).savedLanes = s.savedLanes :=
  rfl
@[simp] theorem State.modFlash_slices (s : State) (f : Flash → Flash) : (s.modFlash f).slices = s.slices := rfl
@[simp] theorem State.modFlash_savedSlices (s : State) (f : Flash → Flash) : (s.modFlash f).savedSlices = s.savedSlices :=
  rfl
@[simp] theorem State.modFlash_ucode (s : State) (f : Flash → Flash) : (s.modFlash f).ucode = s.ucode := rfl
@[simp] theorem State.modFlash_vault (s : State) (f : Flash → Flash) : (s.modFlash f).vault = s.vault := rfl
@[simp] theorem State.modFlash_entropy (s : State) (f : Flash → Flash) : (s.modFlash f).entropy = s.entropy := rfl
@[simp] theorem State.modFlash_flash (s : State) (f : Flash → Flash) : (s.modFlash f).flash = f s.flash := rfl
@[simp] theorem State.modFlash_cascade (s : State) (f : Flash → Flash) : (s.modFlash f).cascade = s.cascade := rfl
@[simp] theorem State.modFlash_power (s : State) (f : Flash → Flash) : (s.modFlash f).power = s.power := rfl
@[simp] theorem State.modFlash_life (s : State) (f : Flash → Flash) : (s.modFlash f).life = s.life := rfl
@[simp] theorem State.modFlash_watch (s : State) (f : Flash → Flash) : (s.modFlash f).watch = s.watch := rfl
@[simp] theorem State.modFlash_parish (s : State) (f : Flash → Flash) : (s.modFlash f).parish = s.parish := rfl
@[simp] theorem State.modFlash_gateA (s : State) (f : Flash → Flash) : (s.modFlash f).gateA = s.gateA := rfl
@[simp] theorem State.modFlash_gateB (s : State) (f : Flash → Flash) : (s.modFlash f).gateB = s.gateB := rfl
@[simp] theorem State.modFlash_journal (s : State) (f : Flash → Flash) : (s.modFlash f).journal = s.journal := rfl
@[simp] theorem State.modFlash_tag (s : State) (f : Flash → Flash) : (s.modFlash f).tag = s.tag := rfl
@[simp] theorem State.modFlash_startup (s : State) (f : Flash → Flash) : (s.modFlash f).startup = s.startup := rfl

/-! ### modCascade -/

@[simp] theorem State.modCascade_pending (s : State) (f : Cascade → Cascade) : (s.modCascade f).pending = s.pending :=
  rfl
@[simp] theorem State.modCascade_out (s : State) (f : Cascade → Cascade) : (s.modCascade f).out = s.out := rfl
@[simp] theorem State.modCascade_free (s : State) (f : Cascade → Cascade) : (s.modCascade f).free = s.free := rfl
@[simp] theorem State.modCascade_hands (s : State) (f : Cascade → Cascade) : (s.modCascade f).hands = s.hands := rfl
@[simp] theorem State.modCascade_cores (s : State) (f : Cascade → Cascade) : (s.modCascade f).cores = s.cores := rfl
@[simp] theorem State.modCascade_hamlets (s : State) (f : Cascade → Cascade) : (s.modCascade f).hamlets = s.hamlets :=
  rfl
@[simp] theorem State.modCascade_devAcu (s : State) (f : Cascade → Cascade) : (s.modCascade f).devAcu = s.devAcu :=
  rfl
@[simp] theorem State.modCascade_link (s : State) (f : Cascade → Cascade) : (s.modCascade f).link = s.link := rfl
@[simp] theorem State.modCascade_rings (s : State) (f : Cascade → Cascade) : (s.modCascade f).rings = s.rings := rfl
@[simp] theorem State.modCascade_steward (s : State) (f : Cascade → Cascade) : (s.modCascade f).steward = s.steward :=
  rfl
@[simp] theorem State.modCascade_store (s : State) (f : Cascade → Cascade) : (s.modCascade f).store = s.store := rfl
@[simp] theorem State.modCascade_lanes (s : State) (f : Cascade → Cascade) : (s.modCascade f).lanes = s.lanes := rfl
@[simp] theorem State.modCascade_savedLanes (s : State) (f : Cascade → Cascade) :
    (s.modCascade f).savedLanes = s.savedLanes :=
  rfl
@[simp] theorem State.modCascade_slices (s : State) (f : Cascade → Cascade) : (s.modCascade f).slices = s.slices :=
  rfl
@[simp] theorem State.modCascade_savedSlices (s : State) (f : Cascade → Cascade) :
    (s.modCascade f).savedSlices = s.savedSlices :=
  rfl
@[simp] theorem State.modCascade_ucode (s : State) (f : Cascade → Cascade) : (s.modCascade f).ucode = s.ucode := rfl
@[simp] theorem State.modCascade_vault (s : State) (f : Cascade → Cascade) : (s.modCascade f).vault = s.vault := rfl
@[simp] theorem State.modCascade_entropy (s : State) (f : Cascade → Cascade) : (s.modCascade f).entropy = s.entropy :=
  rfl
@[simp] theorem State.modCascade_flash (s : State) (f : Cascade → Cascade) : (s.modCascade f).flash = s.flash := rfl
@[simp] theorem State.modCascade_cascade (s : State) (f : Cascade → Cascade) : (s.modCascade f).cascade = f s.cascade :=
  rfl
@[simp] theorem State.modCascade_power (s : State) (f : Cascade → Cascade) : (s.modCascade f).power = s.power := rfl
@[simp] theorem State.modCascade_life (s : State) (f : Cascade → Cascade) : (s.modCascade f).life = s.life := rfl
@[simp] theorem State.modCascade_watch (s : State) (f : Cascade → Cascade) : (s.modCascade f).watch = s.watch := rfl
@[simp] theorem State.modCascade_parish (s : State) (f : Cascade → Cascade) : (s.modCascade f).parish = s.parish :=
  rfl
@[simp] theorem State.modCascade_gateA (s : State) (f : Cascade → Cascade) : (s.modCascade f).gateA = s.gateA := rfl
@[simp] theorem State.modCascade_gateB (s : State) (f : Cascade → Cascade) : (s.modCascade f).gateB = s.gateB := rfl
@[simp] theorem State.modCascade_journal (s : State) (f : Cascade → Cascade) : (s.modCascade f).journal = s.journal :=
  rfl
@[simp] theorem State.modCascade_tag (s : State) (f : Cascade → Cascade) : (s.modCascade f).tag = s.tag := rfl
@[simp] theorem State.modCascade_startup (s : State) (f : Cascade → Cascade) : (s.modCascade f).startup = s.startup :=
  rfl

/-! ### modPower -/

@[simp] theorem State.modPower_pending (s : State) (f : Power → Power) : (s.modPower f).pending = s.pending := rfl
@[simp] theorem State.modPower_out (s : State) (f : Power → Power) : (s.modPower f).out = s.out := rfl
@[simp] theorem State.modPower_free (s : State) (f : Power → Power) : (s.modPower f).free = s.free := rfl
@[simp] theorem State.modPower_hands (s : State) (f : Power → Power) : (s.modPower f).hands = s.hands := rfl
@[simp] theorem State.modPower_cores (s : State) (f : Power → Power) : (s.modPower f).cores = s.cores := rfl
@[simp] theorem State.modPower_hamlets (s : State) (f : Power → Power) : (s.modPower f).hamlets = s.hamlets := rfl
@[simp] theorem State.modPower_devAcu (s : State) (f : Power → Power) : (s.modPower f).devAcu = s.devAcu := rfl
@[simp] theorem State.modPower_link (s : State) (f : Power → Power) : (s.modPower f).link = s.link := rfl
@[simp] theorem State.modPower_rings (s : State) (f : Power → Power) : (s.modPower f).rings = s.rings := rfl
@[simp] theorem State.modPower_steward (s : State) (f : Power → Power) : (s.modPower f).steward = s.steward := rfl
@[simp] theorem State.modPower_store (s : State) (f : Power → Power) : (s.modPower f).store = s.store := rfl
@[simp] theorem State.modPower_lanes (s : State) (f : Power → Power) : (s.modPower f).lanes = s.lanes := rfl
@[simp] theorem State.modPower_savedLanes (s : State) (f : Power → Power) : (s.modPower f).savedLanes = s.savedLanes :=
  rfl
@[simp] theorem State.modPower_slices (s : State) (f : Power → Power) : (s.modPower f).slices = s.slices := rfl
@[simp] theorem State.modPower_savedSlices (s : State) (f : Power → Power) : (s.modPower f).savedSlices = s.savedSlices :=
  rfl
@[simp] theorem State.modPower_ucode (s : State) (f : Power → Power) : (s.modPower f).ucode = s.ucode := rfl
@[simp] theorem State.modPower_vault (s : State) (f : Power → Power) : (s.modPower f).vault = s.vault := rfl
@[simp] theorem State.modPower_entropy (s : State) (f : Power → Power) : (s.modPower f).entropy = s.entropy := rfl
@[simp] theorem State.modPower_flash (s : State) (f : Power → Power) : (s.modPower f).flash = s.flash := rfl
@[simp] theorem State.modPower_cascade (s : State) (f : Power → Power) : (s.modPower f).cascade = s.cascade := rfl
@[simp] theorem State.modPower_power (s : State) (f : Power → Power) : (s.modPower f).power = f s.power := rfl
@[simp] theorem State.modPower_life (s : State) (f : Power → Power) : (s.modPower f).life = s.life := rfl
@[simp] theorem State.modPower_watch (s : State) (f : Power → Power) : (s.modPower f).watch = s.watch := rfl
@[simp] theorem State.modPower_parish (s : State) (f : Power → Power) : (s.modPower f).parish = s.parish := rfl
@[simp] theorem State.modPower_gateA (s : State) (f : Power → Power) : (s.modPower f).gateA = s.gateA := rfl
@[simp] theorem State.modPower_gateB (s : State) (f : Power → Power) : (s.modPower f).gateB = s.gateB := rfl
@[simp] theorem State.modPower_journal (s : State) (f : Power → Power) : (s.modPower f).journal = s.journal := rfl
@[simp] theorem State.modPower_tag (s : State) (f : Power → Power) : (s.modPower f).tag = s.tag := rfl
@[simp] theorem State.modPower_startup (s : State) (f : Power → Power) : (s.modPower f).startup = s.startup := rfl

/-! ### modLife -/

@[simp] theorem State.modLife_pending (s : State) (f : LifeCycle → LifeCycle) : (s.modLife f).pending = s.pending :=
  rfl
@[simp] theorem State.modLife_out (s : State) (f : LifeCycle → LifeCycle) : (s.modLife f).out = s.out := rfl
@[simp] theorem State.modLife_free (s : State) (f : LifeCycle → LifeCycle) : (s.modLife f).free = s.free := rfl
@[simp] theorem State.modLife_hands (s : State) (f : LifeCycle → LifeCycle) : (s.modLife f).hands = s.hands := rfl
@[simp] theorem State.modLife_cores (s : State) (f : LifeCycle → LifeCycle) : (s.modLife f).cores = s.cores := rfl
@[simp] theorem State.modLife_hamlets (s : State) (f : LifeCycle → LifeCycle) : (s.modLife f).hamlets = s.hamlets :=
  rfl
@[simp] theorem State.modLife_devAcu (s : State) (f : LifeCycle → LifeCycle) : (s.modLife f).devAcu = s.devAcu := rfl
@[simp] theorem State.modLife_link (s : State) (f : LifeCycle → LifeCycle) : (s.modLife f).link = s.link := rfl
@[simp] theorem State.modLife_rings (s : State) (f : LifeCycle → LifeCycle) : (s.modLife f).rings = s.rings := rfl
@[simp] theorem State.modLife_steward (s : State) (f : LifeCycle → LifeCycle) : (s.modLife f).steward = s.steward :=
  rfl
@[simp] theorem State.modLife_store (s : State) (f : LifeCycle → LifeCycle) : (s.modLife f).store = s.store := rfl
@[simp] theorem State.modLife_lanes (s : State) (f : LifeCycle → LifeCycle) : (s.modLife f).lanes = s.lanes := rfl
@[simp] theorem State.modLife_savedLanes (s : State) (f : LifeCycle → LifeCycle) :
    (s.modLife f).savedLanes = s.savedLanes :=
  rfl
@[simp] theorem State.modLife_slices (s : State) (f : LifeCycle → LifeCycle) : (s.modLife f).slices = s.slices := rfl
@[simp] theorem State.modLife_savedSlices (s : State) (f : LifeCycle → LifeCycle) :
    (s.modLife f).savedSlices = s.savedSlices :=
  rfl
@[simp] theorem State.modLife_ucode (s : State) (f : LifeCycle → LifeCycle) : (s.modLife f).ucode = s.ucode := rfl
@[simp] theorem State.modLife_vault (s : State) (f : LifeCycle → LifeCycle) : (s.modLife f).vault = s.vault := rfl
@[simp] theorem State.modLife_entropy (s : State) (f : LifeCycle → LifeCycle) : (s.modLife f).entropy = s.entropy :=
  rfl
@[simp] theorem State.modLife_flash (s : State) (f : LifeCycle → LifeCycle) : (s.modLife f).flash = s.flash := rfl
@[simp] theorem State.modLife_cascade (s : State) (f : LifeCycle → LifeCycle) : (s.modLife f).cascade = s.cascade :=
  rfl
@[simp] theorem State.modLife_power (s : State) (f : LifeCycle → LifeCycle) : (s.modLife f).power = s.power := rfl
@[simp] theorem State.modLife_life (s : State) (f : LifeCycle → LifeCycle) : (s.modLife f).life = f s.life := rfl
@[simp] theorem State.modLife_watch (s : State) (f : LifeCycle → LifeCycle) : (s.modLife f).watch = s.watch := rfl
@[simp] theorem State.modLife_parish (s : State) (f : LifeCycle → LifeCycle) : (s.modLife f).parish = s.parish := rfl
@[simp] theorem State.modLife_gateA (s : State) (f : LifeCycle → LifeCycle) : (s.modLife f).gateA = s.gateA := rfl
@[simp] theorem State.modLife_gateB (s : State) (f : LifeCycle → LifeCycle) : (s.modLife f).gateB = s.gateB := rfl
@[simp] theorem State.modLife_journal (s : State) (f : LifeCycle → LifeCycle) : (s.modLife f).journal = s.journal :=
  rfl
@[simp] theorem State.modLife_tag (s : State) (f : LifeCycle → LifeCycle) : (s.modLife f).tag = s.tag := rfl
@[simp] theorem State.modLife_startup (s : State) (f : LifeCycle → LifeCycle) : (s.modLife f).startup = s.startup :=
  rfl

/-! ### modWatch -/

@[simp] theorem State.modWatch_pending (s : State) (f : Watch → Watch) : (s.modWatch f).pending = s.pending := rfl
@[simp] theorem State.modWatch_out (s : State) (f : Watch → Watch) : (s.modWatch f).out = s.out := rfl
@[simp] theorem State.modWatch_free (s : State) (f : Watch → Watch) : (s.modWatch f).free = s.free := rfl
@[simp] theorem State.modWatch_hands (s : State) (f : Watch → Watch) : (s.modWatch f).hands = s.hands := rfl
@[simp] theorem State.modWatch_cores (s : State) (f : Watch → Watch) : (s.modWatch f).cores = s.cores := rfl
@[simp] theorem State.modWatch_hamlets (s : State) (f : Watch → Watch) : (s.modWatch f).hamlets = s.hamlets := rfl
@[simp] theorem State.modWatch_devAcu (s : State) (f : Watch → Watch) : (s.modWatch f).devAcu = s.devAcu := rfl
@[simp] theorem State.modWatch_link (s : State) (f : Watch → Watch) : (s.modWatch f).link = s.link := rfl
@[simp] theorem State.modWatch_rings (s : State) (f : Watch → Watch) : (s.modWatch f).rings = s.rings := rfl
@[simp] theorem State.modWatch_steward (s : State) (f : Watch → Watch) : (s.modWatch f).steward = s.steward := rfl
@[simp] theorem State.modWatch_store (s : State) (f : Watch → Watch) : (s.modWatch f).store = s.store := rfl
@[simp] theorem State.modWatch_lanes (s : State) (f : Watch → Watch) : (s.modWatch f).lanes = s.lanes := rfl
@[simp] theorem State.modWatch_savedLanes (s : State) (f : Watch → Watch) : (s.modWatch f).savedLanes = s.savedLanes :=
  rfl
@[simp] theorem State.modWatch_slices (s : State) (f : Watch → Watch) : (s.modWatch f).slices = s.slices := rfl
@[simp] theorem State.modWatch_savedSlices (s : State) (f : Watch → Watch) : (s.modWatch f).savedSlices = s.savedSlices :=
  rfl
@[simp] theorem State.modWatch_ucode (s : State) (f : Watch → Watch) : (s.modWatch f).ucode = s.ucode := rfl
@[simp] theorem State.modWatch_vault (s : State) (f : Watch → Watch) : (s.modWatch f).vault = s.vault := rfl
@[simp] theorem State.modWatch_entropy (s : State) (f : Watch → Watch) : (s.modWatch f).entropy = s.entropy := rfl
@[simp] theorem State.modWatch_flash (s : State) (f : Watch → Watch) : (s.modWatch f).flash = s.flash := rfl
@[simp] theorem State.modWatch_cascade (s : State) (f : Watch → Watch) : (s.modWatch f).cascade = s.cascade := rfl
@[simp] theorem State.modWatch_power (s : State) (f : Watch → Watch) : (s.modWatch f).power = s.power := rfl
@[simp] theorem State.modWatch_life (s : State) (f : Watch → Watch) : (s.modWatch f).life = s.life := rfl
@[simp] theorem State.modWatch_watch (s : State) (f : Watch → Watch) : (s.modWatch f).watch = f s.watch := rfl
@[simp] theorem State.modWatch_parish (s : State) (f : Watch → Watch) : (s.modWatch f).parish = s.parish := rfl
@[simp] theorem State.modWatch_gateA (s : State) (f : Watch → Watch) : (s.modWatch f).gateA = s.gateA := rfl
@[simp] theorem State.modWatch_gateB (s : State) (f : Watch → Watch) : (s.modWatch f).gateB = s.gateB := rfl
@[simp] theorem State.modWatch_journal (s : State) (f : Watch → Watch) : (s.modWatch f).journal = s.journal := rfl
@[simp] theorem State.modWatch_tag (s : State) (f : Watch → Watch) : (s.modWatch f).tag = s.tag := rfl
@[simp] theorem State.modWatch_startup (s : State) (f : Watch → Watch) : (s.modWatch f).startup = s.startup := rfl

/-! ### modParish -/

@[simp] theorem State.modParish_pending (s : State) (f : Parish → Parish) : (s.modParish f).pending = s.pending := rfl
@[simp] theorem State.modParish_out (s : State) (f : Parish → Parish) : (s.modParish f).out = s.out := rfl
@[simp] theorem State.modParish_free (s : State) (f : Parish → Parish) : (s.modParish f).free = s.free := rfl
@[simp] theorem State.modParish_hands (s : State) (f : Parish → Parish) : (s.modParish f).hands = s.hands := rfl
@[simp] theorem State.modParish_cores (s : State) (f : Parish → Parish) : (s.modParish f).cores = s.cores := rfl
@[simp] theorem State.modParish_hamlets (s : State) (f : Parish → Parish) : (s.modParish f).hamlets = s.hamlets := rfl
@[simp] theorem State.modParish_devAcu (s : State) (f : Parish → Parish) : (s.modParish f).devAcu = s.devAcu := rfl
@[simp] theorem State.modParish_link (s : State) (f : Parish → Parish) : (s.modParish f).link = s.link := rfl
@[simp] theorem State.modParish_rings (s : State) (f : Parish → Parish) : (s.modParish f).rings = s.rings := rfl
@[simp] theorem State.modParish_steward (s : State) (f : Parish → Parish) : (s.modParish f).steward = s.steward := rfl
@[simp] theorem State.modParish_store (s : State) (f : Parish → Parish) : (s.modParish f).store = s.store := rfl
@[simp] theorem State.modParish_lanes (s : State) (f : Parish → Parish) : (s.modParish f).lanes = s.lanes := rfl
@[simp] theorem State.modParish_savedLanes (s : State) (f : Parish → Parish) :
    (s.modParish f).savedLanes = s.savedLanes :=
  rfl
@[simp] theorem State.modParish_slices (s : State) (f : Parish → Parish) : (s.modParish f).slices = s.slices := rfl
@[simp] theorem State.modParish_savedSlices (s : State) (f : Parish → Parish) :
    (s.modParish f).savedSlices = s.savedSlices :=
  rfl
@[simp] theorem State.modParish_ucode (s : State) (f : Parish → Parish) : (s.modParish f).ucode = s.ucode := rfl
@[simp] theorem State.modParish_vault (s : State) (f : Parish → Parish) : (s.modParish f).vault = s.vault := rfl
@[simp] theorem State.modParish_entropy (s : State) (f : Parish → Parish) : (s.modParish f).entropy = s.entropy := rfl
@[simp] theorem State.modParish_flash (s : State) (f : Parish → Parish) : (s.modParish f).flash = s.flash := rfl
@[simp] theorem State.modParish_cascade (s : State) (f : Parish → Parish) : (s.modParish f).cascade = s.cascade := rfl
@[simp] theorem State.modParish_power (s : State) (f : Parish → Parish) : (s.modParish f).power = s.power := rfl
@[simp] theorem State.modParish_life (s : State) (f : Parish → Parish) : (s.modParish f).life = s.life := rfl
@[simp] theorem State.modParish_watch (s : State) (f : Parish → Parish) : (s.modParish f).watch = s.watch := rfl
@[simp] theorem State.modParish_parish (s : State) (f : Parish → Parish) : (s.modParish f).parish = f s.parish := rfl
@[simp] theorem State.modParish_gateA (s : State) (f : Parish → Parish) : (s.modParish f).gateA = s.gateA := rfl
@[simp] theorem State.modParish_gateB (s : State) (f : Parish → Parish) : (s.modParish f).gateB = s.gateB := rfl
@[simp] theorem State.modParish_journal (s : State) (f : Parish → Parish) : (s.modParish f).journal = s.journal := rfl
@[simp] theorem State.modParish_tag (s : State) (f : Parish → Parish) : (s.modParish f).tag = s.tag := rfl
@[simp] theorem State.modParish_startup (s : State) (f : Parish → Parish) : (s.modParish f).startup = s.startup := rfl

/-! ### modJournal -/

@[simp] theorem State.modJournal_pending (s : State) (f : Journal → Journal) : (s.modJournal f).pending = s.pending :=
  rfl
@[simp] theorem State.modJournal_out (s : State) (f : Journal → Journal) : (s.modJournal f).out = s.out := rfl
@[simp] theorem State.modJournal_free (s : State) (f : Journal → Journal) : (s.modJournal f).free = s.free := rfl
@[simp] theorem State.modJournal_hands (s : State) (f : Journal → Journal) : (s.modJournal f).hands = s.hands := rfl
@[simp] theorem State.modJournal_cores (s : State) (f : Journal → Journal) : (s.modJournal f).cores = s.cores := rfl
@[simp] theorem State.modJournal_hamlets (s : State) (f : Journal → Journal) : (s.modJournal f).hamlets = s.hamlets :=
  rfl
@[simp] theorem State.modJournal_devAcu (s : State) (f : Journal → Journal) : (s.modJournal f).devAcu = s.devAcu :=
  rfl
@[simp] theorem State.modJournal_link (s : State) (f : Journal → Journal) : (s.modJournal f).link = s.link := rfl
@[simp] theorem State.modJournal_rings (s : State) (f : Journal → Journal) : (s.modJournal f).rings = s.rings := rfl
@[simp] theorem State.modJournal_steward (s : State) (f : Journal → Journal) : (s.modJournal f).steward = s.steward :=
  rfl
@[simp] theorem State.modJournal_store (s : State) (f : Journal → Journal) : (s.modJournal f).store = s.store := rfl
@[simp] theorem State.modJournal_lanes (s : State) (f : Journal → Journal) : (s.modJournal f).lanes = s.lanes := rfl
@[simp] theorem State.modJournal_savedLanes (s : State) (f : Journal → Journal) :
    (s.modJournal f).savedLanes = s.savedLanes :=
  rfl
@[simp] theorem State.modJournal_slices (s : State) (f : Journal → Journal) : (s.modJournal f).slices = s.slices :=
  rfl
@[simp] theorem State.modJournal_savedSlices (s : State) (f : Journal → Journal) :
    (s.modJournal f).savedSlices = s.savedSlices :=
  rfl
@[simp] theorem State.modJournal_ucode (s : State) (f : Journal → Journal) : (s.modJournal f).ucode = s.ucode := rfl
@[simp] theorem State.modJournal_vault (s : State) (f : Journal → Journal) : (s.modJournal f).vault = s.vault := rfl
@[simp] theorem State.modJournal_entropy (s : State) (f : Journal → Journal) : (s.modJournal f).entropy = s.entropy :=
  rfl
@[simp] theorem State.modJournal_flash (s : State) (f : Journal → Journal) : (s.modJournal f).flash = s.flash := rfl
@[simp] theorem State.modJournal_cascade (s : State) (f : Journal → Journal) : (s.modJournal f).cascade = s.cascade :=
  rfl
@[simp] theorem State.modJournal_power (s : State) (f : Journal → Journal) : (s.modJournal f).power = s.power := rfl
@[simp] theorem State.modJournal_life (s : State) (f : Journal → Journal) : (s.modJournal f).life = s.life := rfl
@[simp] theorem State.modJournal_watch (s : State) (f : Journal → Journal) : (s.modJournal f).watch = s.watch := rfl
@[simp] theorem State.modJournal_parish (s : State) (f : Journal → Journal) : (s.modJournal f).parish = s.parish :=
  rfl
@[simp] theorem State.modJournal_gateA (s : State) (f : Journal → Journal) : (s.modJournal f).gateA = s.gateA := rfl
@[simp] theorem State.modJournal_gateB (s : State) (f : Journal → Journal) : (s.modJournal f).gateB = s.gateB := rfl
@[simp] theorem State.modJournal_journal (s : State) (f : Journal → Journal) : (s.modJournal f).journal = f s.journal :=
  rfl
@[simp] theorem State.modJournal_tag (s : State) (f : Journal → Journal) : (s.modJournal f).tag = s.tag := rfl
@[simp] theorem State.modJournal_startup (s : State) (f : Journal → Journal) : (s.modJournal f).startup = s.startup :=
  rfl

/-! ### modTag -/

@[simp] theorem State.modTag_pending (s : State) (f : Tag → Tag) : (s.modTag f).pending = s.pending := rfl
@[simp] theorem State.modTag_out (s : State) (f : Tag → Tag) : (s.modTag f).out = s.out := rfl
@[simp] theorem State.modTag_free (s : State) (f : Tag → Tag) : (s.modTag f).free = s.free := rfl
@[simp] theorem State.modTag_hands (s : State) (f : Tag → Tag) : (s.modTag f).hands = s.hands := rfl
@[simp] theorem State.modTag_cores (s : State) (f : Tag → Tag) : (s.modTag f).cores = s.cores := rfl
@[simp] theorem State.modTag_hamlets (s : State) (f : Tag → Tag) : (s.modTag f).hamlets = s.hamlets := rfl
@[simp] theorem State.modTag_devAcu (s : State) (f : Tag → Tag) : (s.modTag f).devAcu = s.devAcu := rfl
@[simp] theorem State.modTag_link (s : State) (f : Tag → Tag) : (s.modTag f).link = s.link := rfl
@[simp] theorem State.modTag_rings (s : State) (f : Tag → Tag) : (s.modTag f).rings = s.rings := rfl
@[simp] theorem State.modTag_steward (s : State) (f : Tag → Tag) : (s.modTag f).steward = s.steward := rfl
@[simp] theorem State.modTag_store (s : State) (f : Tag → Tag) : (s.modTag f).store = s.store := rfl
@[simp] theorem State.modTag_lanes (s : State) (f : Tag → Tag) : (s.modTag f).lanes = s.lanes := rfl
@[simp] theorem State.modTag_savedLanes (s : State) (f : Tag → Tag) : (s.modTag f).savedLanes = s.savedLanes := rfl
@[simp] theorem State.modTag_slices (s : State) (f : Tag → Tag) : (s.modTag f).slices = s.slices := rfl
@[simp] theorem State.modTag_savedSlices (s : State) (f : Tag → Tag) : (s.modTag f).savedSlices = s.savedSlices := rfl
@[simp] theorem State.modTag_ucode (s : State) (f : Tag → Tag) : (s.modTag f).ucode = s.ucode := rfl
@[simp] theorem State.modTag_vault (s : State) (f : Tag → Tag) : (s.modTag f).vault = s.vault := rfl
@[simp] theorem State.modTag_entropy (s : State) (f : Tag → Tag) : (s.modTag f).entropy = s.entropy := rfl
@[simp] theorem State.modTag_flash (s : State) (f : Tag → Tag) : (s.modTag f).flash = s.flash := rfl
@[simp] theorem State.modTag_cascade (s : State) (f : Tag → Tag) : (s.modTag f).cascade = s.cascade := rfl
@[simp] theorem State.modTag_power (s : State) (f : Tag → Tag) : (s.modTag f).power = s.power := rfl
@[simp] theorem State.modTag_life (s : State) (f : Tag → Tag) : (s.modTag f).life = s.life := rfl
@[simp] theorem State.modTag_watch (s : State) (f : Tag → Tag) : (s.modTag f).watch = s.watch := rfl
@[simp] theorem State.modTag_parish (s : State) (f : Tag → Tag) : (s.modTag f).parish = s.parish := rfl
@[simp] theorem State.modTag_gateA (s : State) (f : Tag → Tag) : (s.modTag f).gateA = s.gateA := rfl
@[simp] theorem State.modTag_gateB (s : State) (f : Tag → Tag) : (s.modTag f).gateB = s.gateB := rfl
@[simp] theorem State.modTag_journal (s : State) (f : Tag → Tag) : (s.modTag f).journal = s.journal := rfl
@[simp] theorem State.modTag_tag (s : State) (f : Tag → Tag) : (s.modTag f).tag = f s.tag := rfl
@[simp] theorem State.modTag_startup (s : State) (f : Tag → Tag) : (s.modTag f).startup = s.startup := rfl

/-! ### modStartup -/

@[simp] theorem State.modStartup_pending (s : State) (f : Startup → Startup) : (s.modStartup f).pending = s.pending :=
  rfl
@[simp] theorem State.modStartup_out (s : State) (f : Startup → Startup) : (s.modStartup f).out = s.out := rfl
@[simp] theorem State.modStartup_free (s : State) (f : Startup → Startup) : (s.modStartup f).free = s.free := rfl
@[simp] theorem State.modStartup_hands (s : State) (f : Startup → Startup) : (s.modStartup f).hands = s.hands := rfl
@[simp] theorem State.modStartup_cores (s : State) (f : Startup → Startup) : (s.modStartup f).cores = s.cores := rfl
@[simp] theorem State.modStartup_hamlets (s : State) (f : Startup → Startup) : (s.modStartup f).hamlets = s.hamlets :=
  rfl
@[simp] theorem State.modStartup_devAcu (s : State) (f : Startup → Startup) : (s.modStartup f).devAcu = s.devAcu :=
  rfl
@[simp] theorem State.modStartup_link (s : State) (f : Startup → Startup) : (s.modStartup f).link = s.link := rfl
@[simp] theorem State.modStartup_rings (s : State) (f : Startup → Startup) : (s.modStartup f).rings = s.rings := rfl
@[simp] theorem State.modStartup_steward (s : State) (f : Startup → Startup) : (s.modStartup f).steward = s.steward :=
  rfl
@[simp] theorem State.modStartup_store (s : State) (f : Startup → Startup) : (s.modStartup f).store = s.store := rfl
@[simp] theorem State.modStartup_lanes (s : State) (f : Startup → Startup) : (s.modStartup f).lanes = s.lanes := rfl
@[simp] theorem State.modStartup_savedLanes (s : State) (f : Startup → Startup) :
    (s.modStartup f).savedLanes = s.savedLanes :=
  rfl
@[simp] theorem State.modStartup_slices (s : State) (f : Startup → Startup) : (s.modStartup f).slices = s.slices :=
  rfl
@[simp] theorem State.modStartup_savedSlices (s : State) (f : Startup → Startup) :
    (s.modStartup f).savedSlices = s.savedSlices :=
  rfl
@[simp] theorem State.modStartup_ucode (s : State) (f : Startup → Startup) : (s.modStartup f).ucode = s.ucode := rfl
@[simp] theorem State.modStartup_vault (s : State) (f : Startup → Startup) : (s.modStartup f).vault = s.vault := rfl
@[simp] theorem State.modStartup_entropy (s : State) (f : Startup → Startup) : (s.modStartup f).entropy = s.entropy :=
  rfl
@[simp] theorem State.modStartup_flash (s : State) (f : Startup → Startup) : (s.modStartup f).flash = s.flash := rfl
@[simp] theorem State.modStartup_cascade (s : State) (f : Startup → Startup) : (s.modStartup f).cascade = s.cascade :=
  rfl
@[simp] theorem State.modStartup_power (s : State) (f : Startup → Startup) : (s.modStartup f).power = s.power := rfl
@[simp] theorem State.modStartup_life (s : State) (f : Startup → Startup) : (s.modStartup f).life = s.life := rfl
@[simp] theorem State.modStartup_watch (s : State) (f : Startup → Startup) : (s.modStartup f).watch = s.watch := rfl
@[simp] theorem State.modStartup_parish (s : State) (f : Startup → Startup) : (s.modStartup f).parish = s.parish :=
  rfl
@[simp] theorem State.modStartup_gateA (s : State) (f : Startup → Startup) : (s.modStartup f).gateA = s.gateA := rfl
@[simp] theorem State.modStartup_gateB (s : State) (f : Startup → Startup) : (s.modStartup f).gateB = s.gateB := rfl
@[simp] theorem State.modStartup_journal (s : State) (f : Startup → Startup) : (s.modStartup f).journal = s.journal :=
  rfl
@[simp] theorem State.modStartup_tag (s : State) (f : Startup → Startup) : (s.modStartup f).tag = s.tag := rfl
@[simp] theorem State.modStartup_startup (s : State) (f : Startup → Startup) : (s.modStartup f).startup = f s.startup :=
  rfl

/-! ### Numbered parts -/

@[simp] theorem State.hand_setHand (s : State) (h j : Nat) (x : Hand) :
    (s.setHand h x).hand j = if h = j then x else s.hand j := aget_aput _ _ _ _ _
@[simp] theorem State.hand_modHand (s : State) (h j : Nat) (f : Hand → Hand) :
    (s.modHand h f).hand j = if h = j then f (s.hand h) else s.hand j := aget_aput _ _ _ _ _
@[simp] theorem State.hand_modCore (s : State) (c j : Nat) (f : Core → Core) : (s.modCore c f).hand j = s.hand j := rfl
@[simp] theorem State.core_setCore (s : State) (c j : Nat) (x : Core) :
    (s.setCore c x).core j = if c = j then x else s.core j := aget_aput _ _ _ _ _
@[simp] theorem State.core_modCore (s : State) (c j : Nat) (f : Core → Core) :
    (s.modCore c f).core j = if c = j then f (s.core c) else s.core j := aget_aput _ _ _ _ _
@[simp] theorem State.core_setHand (s : State) (h j : Nat) (x : Hand) : (s.setHand h x).core j = s.core j := rfl
@[simp] theorem State.core_modHand (s : State) (h j : Nat) (f : Hand → Hand) : (s.modHand h f).core j = s.core j := rfl
@[simp] theorem State.hamlet_modHamlet (s : State) (i j : Nat) (f : Hamlet → Hamlet) :
    (s.modHamlet i f).hamlet j = if i = j then f (s.hamlet i) else s.hamlet j := aget_aput _ _ _ _ _
@[simp] theorem State.ring_modRing (s : State) (n j : Nat) (f : Ring → Ring) :
    (s.modRing n f).ring j = if n = j then f (s.ring n) else s.ring j := aget_aput _ _ _ _ _
@[simp] theorem State.lane_modLane (s : State) (n j : Nat) (f : Lane → Lane) :
    (s.modLane n f).lane j = if n = j then f (s.lane n) else s.lane j := aget_aput _ _ _ _ _
@[simp] theorem State.slice_modSlice (s : State) (n j : Nat) (f : Slice → Slice) :
    (s.modSlice n f).slice j = if n = j then f (s.slice n) else s.slice j := aget_aput _ _ _ _ _
@[simp] theorem State.contract_modContract (s : State) (n j : Nat) (f : Contract → Contract) :
    (s.modContract n f).contract j = if n = j then f (s.contract n) else s.contract j := aget_aput _ _ _ _ _
@[simp] theorem State.port_modPort (s : State) (p j : Nat) (f : BatonPort → BatonPort) :
    (s.modPort p f).port j = if p = j then f (s.port p) else s.port j := aget_aput _ _ _ _ _
@[simp] theorem State.source_modSource (s : State) (i j : Nat) (f : NoiseSource → NoiseSource) :
    (s.modSource i f).source j = if i = j then f (s.source i) else s.source j := aget_aput _ _ _ _ _
@[simp] theorem State.drbg_modDrbg (s : State) (i j : Nat) (f : Drbg → Drbg) :
    (s.modDrbg i f).drbg j = if i = j then f (s.drbg i) else s.drbg j := aget_aput _ _ _ _ _
@[simp] theorem State.gate_modGate (s : State) (b c : Bool) (f : Gate → Gate) :
    (s.modGate b f).gate c = if b = c then f (s.gate b) else s.gate c := by cases b <;> cases c <;> rfl

end Sys2Proof.Machine
end

