-- ==== Sys2Proof/Laws/Hands.lean ====
section
/-!
SUPPORT. Sys2Proof/Laws/Hands.lean: everything the operations that instructions share can do: writing a register (R69),
completing an instruction (R82, R85), bringing the cores' Hands in line (R27, R175) and changing one word of memory.
-/
namespace Sys2Proof.Machine

/-! ### General registers -/

/-- w0 reads 0, whatever is written (R69). -/
@[simp] theorem Hand.reg_zero (x : Hand) : x.reg 0 = 0 := rfl

theorem Hand.reg_setReg (x : Hand) (r q : BitVec 5) (v : Word) :
    (x.setReg r v).reg q = if r = q ∧ q ≠ 0 then v else x.reg q := by
  by_cases hq : q = 0
  · rw [if_neg (by simp [hq]), hq]; rfl
  · by_cases hr : r = 0
    · rw [if_neg (fun h : r = q ∧ q ≠ 0 => hq (h.1 ▸ hr)), Hand.setReg, if_pos hr]
    · simp only [Hand.setReg, Hand.reg, if_neg hr, if_neg hq, aget_aset]
      by_cases h : r = q
      · rw [if_pos (by rw [h]), if_pos ⟨h, hq⟩]
      · rw [if_neg (mt BitVec.eq_of_toNat_eq h), if_neg (fun e : r = q ∧ q ≠ 0 => h e.1)]

/-- A register write changes nothing of a Hand but its general registers. -/
theorem Hand.setReg_eq (x : Hand) (r : BitVec 5) (v : Word) : x.setReg r v = { x with regs := (x.setReg r v).regs } := by
  unfold Hand.setReg; split <;> rfl

/-! ### Completing an instruction -/

/-- What completing an instruction can change of a Hand: its registers, the load in its delay slot, the PC, the count of
a pending imprecise exception, and what a debug step set. -/
theorem Hand.retire_eq (x : Hand) (dst load : Option (BitVec 5 × Word)) (pc : BitVec 16) :
    x.retire dst load pc = { x with
      regs := (x.retire dst load pc).regs, delay := load, pc := pc
      imp := x.imp.map fun i => { i with left := i.left - 1 }
      halted := x.halted || x.stepOne, stepOne := false } := by
  obtain ⟨_, _⟩ | ⟨r, v⟩ := dst
  · unfold Hand.retire
    cases x.delay with
    | none => rfl
    | some p =>
      simp only
      split
      · rfl
      · rw [Hand.setReg_eq x p.1 p.2]
  · unfold Hand.retire
    cases x.delay with
    | none => simp only; rw [Hand.setReg_eq x r v]
    | some p =>
      simp only
      split
      · rw [Hand.setReg_eq x r v]
      · rw [Hand.setReg_eq (x.setReg p.1 p.2) r v, Hand.setReg_eq x p.1 p.2]

/-- An instruction with no load in its slot that writes one register leaves every other register. -/
theorem Hand.reg_retire (x : Hand) (r q : BitVec 5) (v : Word) (pc : BitVec 16) (h : x.delay = none) :
    (x.retire (some (r, v)) none pc).reg q = if r = q ∧ q ≠ 0 then v else x.reg q := by
  simp only [Hand.retire, h]
  exact Hand.reg_setReg x r q v

/-! ### Bringing the cores' Hands in line -/

/-- What settling may change: Hands' states, and which Hand a core ran last. -/
def Settled (s t : State) : Prop :=
  t = { s with hands := t.hands, cores := t.cores } ∧
  (∀ h, ∃ st, t.hand h = { s.hand h with state := st }) ∧
  ∀ c, ∃ l, t.core c = { s.core c with lastHand := l }

theorem Settled.refl (s : State) : Settled s s := ⟨rfl, fun _ => ⟨_, rfl⟩, fun _ => ⟨_, rfl⟩⟩

theorem Settled.trans {s t u : State} (a : Settled s t) (b : Settled t u) : Settled s u := by
  refine ⟨?_, fun h => ?_, fun c => ?_⟩
  · rw [b.1, a.1]
  · obtain ⟨p, hp⟩ := a.2.1 h
    obtain ⟨q, hq⟩ := b.2.1 h
    exact ⟨q, by rw [hq, hp]⟩
  · obtain ⟨p, hp⟩ := a.2.2 c
    obtain ⟨q, hq⟩ := b.2.2 c
    exact ⟨q, by rw [hq, hp]⟩

theorem settled_modHand (s : State) (h : Nat) (st : HandState) : Settled s (s.modHand h fun x => { x with state := st }) :=
  ⟨rfl, fun j => by
    rw [State.hand_modHand]
    split
    · next e => subst e; exact ⟨st, rfl⟩
    · exact ⟨_, rfl⟩, fun c => ⟨_, rfl⟩⟩

theorem settled_giveCore (s : State) (c h : Nat) : Settled s (s.giveCore c h) := by
  refine (settled_modHand s h .running).trans ⟨rfl, fun j => ⟨_, rfl⟩, fun d => ?_⟩
  unfold State.giveCore
  rw [State.core_modCore]
  split
  · next e => subst e; exact ⟨_, rfl⟩
  · exact ⟨_, rfl⟩

theorem settled_wakeHand (s : State) (h : Nat) : Settled s (s.wakeHand h) := by
  unfold State.wakeHand
  split
  · split
    · exact settled_modHand s h .ready
    · exact .refl s
  · exact .refl s

theorem settled_restHand (s : State) (h : Nat) : Settled s (s.restHand h) := by
  unfold State.restHand
  split
  · exact settled_modHand s h .ready
  · exact .refl s

theorem settled_foldl {α : Type} (f : State → α → State) (hf : ∀ s a, Settled s (f s a)) (l : List α) (s : State) :
    Settled s (l.foldl f s) := by
  induction l generalizing s with
  | nil => exact .refl s
  | cons a l ih => exact (hf s a).trans (ih _)

theorem settled_settleCore (s : State) (c : Nat) : Settled s (s.settleCore c) := by
  have h0 := settled_foldl (fun t h => (t.wakeHand h).restHand h)
    (fun t h => (settled_wakeHand t h).trans (settled_restHand _ h)) (handsOf c) s
  unfold State.settleCore
  simp only
  generalize (handsOf c).foldl (fun t h => (t.wakeHand h).restHand h) s = t at *
  split
  · exact h0.trans (settled_giveCore t c _)
  · split
    · exact h0.trans ((settled_modHand t _ .ready).trans (settled_giveCore _ c _))
    · exact h0
  · exact h0

/-- Settling changes Hands' states and which Hand each core ran last, and nothing else. -/
theorem settled_settle (s : State) : Settled s s.settle := settled_foldl _ (fun t _ => settled_settleCore t _) _ s

/-! ### One word of memory -/

/-- Reading back what was just put at a place; a page's frame must be there. -/
theorem State.readLoc_pokeLoc (s : State) (l : Loc) (v : Word) (h : s.missing l = none) : (s.pokeLoc l v).readLoc l = v := by
  cases l with
  | workspace c i => simp [State.pokeLoc, State.readLoc]
  | commons m i => simp [State.pokeLoc, State.readLoc]
  | frame p i => simp [State.pokeLoc, State.readLoc, amod, afind_aput]
  | window h i => simp [State.pokeLoc, State.readLoc]

/-- Every other place reads as before, where it has a page. -/
theorem State.readLoc_pokeLoc_ne (s : State) (l k : Loc) (v : Word) (hm : s.missing l = none) (h : l ≠ k) :
    (s.pokeLoc l v).readLoc k = s.readLoc k := by
  cases l <;> cases k <;> try rfl
  · next c i d j =>
    simp only [State.pokeLoc, State.readLoc, State.core_modCore]
    split
    · next e =>
      subst e
      rw [aget_aset, if_neg (fun e => h (by rw [e]))]
    · rfl
  · next c i d j =>
    simp only [State.pokeLoc, State.readLoc, State.hamlet_modHamlet]
    split
    · next e =>
      subst e
      rw [aget_aset, if_neg (fun e => h (by rw [e]))]
    · rfl
  · next p i q j =>
    simp only [State.pokeLoc, State.readLoc, State.modStore_store, amod, afind_aput]
    by_cases e : p = q
    · subst e
      simp only [if_true]
      simp only [State.missing] at hm
      cases hf : afind s.store.frames p with
      | none => simp [hf] at hm
      | some f =>
        have hg : aget {} s.store.frames p = f := by rw [aget, hf]; rfl
        simp only [hg]
        rw [aget_aset, if_neg (fun e => h (by rw [e]))]
    · simp only [if_neg e]
  · next c i d j =>
    simp only [State.pokeLoc, State.readLoc, State.hand_modHand]
    split
    · next e =>
      subst e
      rw [aget_aset, if_neg (fun e => h (by rw [e]))]
    · rfl

end Sys2Proof.Machine
end

