-- ==== Sys2Proof/Laws/Issue.lean ====
section
/-!
SUPPORT. Sys2Proof/Laws/Issue.lean: what the shared entry points of the meanings do once their checks
pass: an instruction issued, a register access permitted, a host write that arrives.
-/
namespace Sys2Proof.Machine

/-- An instruction that issues carries out its own act. -/
theorem issueOn_of_issues {s : State} {h : Nat} {drain : Bool} {body : State → Hand → Act} (hi : s.issues h = true) :
    issueOn h drain body s = s.perform h (body s (s.hand h)) := by
  simp only [State.issues, Bool.and_eq_true, Option.isNone_iff_eq_none, Bool.not_eq_true',
    decide_eq_true_eq] at hi
  obtain ⟨⟨⟨⟨⟨h0, h1⟩, h2⟩, h3⟩, h4⟩, h5⟩ := hi
  simp [issueOn, h0, h1, h2, h3, h4, h5]

/-- A Hand that issues holds no pending imprecise exception. -/
theorem imp_of_issues {s : State} {h : Nat} (hi : s.issues h = true) : (s.hand h).imp = none := by
  simp only [State.issues, Bool.and_eq_true, Option.isNone_iff_eq_none] at hi
  exact hi.2

/-- A permitted register access has its effect, or raises as its block answers. -/
theorem regAccess_of_permits {s : State} {h addr need : Nat} {write : Bool} {k : State → IoRes}
    (hp : s.permits h addr write need) :
    regAccess h addr write need k s = match k s with
      | .done _ t => .next t
      | .stall t => .next t
      | .fault t faa => .next (accessFault h faa 5 s t)
      | .reserved t => .next (accessFault h addr 4 s t)
      | .block t => .next t := by
  obtain ⟨h0, h1, h2, h3, h4, h5, h6, h7⟩ := hp
  simp only [regAccess, accessOn, ioChecks, h3, h4, h6, h7]
  rw [h0, h1, h2]
  cases k s <;> simp [h5]

/-- A permitted register write changes the state as its register says. -/
theorem regWrite_of_permits {s : State} {h addr need : Nat} {f : State → State} (hp : s.permits h addr true need) :
    regWrite h addr need f s = .next (f s) := by
  simp only [regWrite]
  rw [regAccess_of_permits hp]

/-- A host write that arrives with its reserved bits 0 has its effect, and is a wake event. -/
theorem hostWrite_of_ok {s : State} {reserved data : Word64} {f : State → Res} (hk : s.hostOk)
    (hd : data &&& reserved = 0) : hostWrite reserved data f s = f s.owesWake := by
  simp [hostWrite, hostWriteIn, hk.1, hk.2, hd]

/-- A wake event owed changes nothing but the power state's note of it. -/
theorem owesWake_eq (s : State) : s.owesWake = s ∨ s.owesWake = { s with power := { s.power with wakeOwed := true } } := by
  unfold State.owesWake
  split
  · exact .inl rfl
  · exact .inr rfl

end Sys2Proof.Machine
end

