-- ==== Sys2Proof/Laws/Retire.lean ====
section
/-!
SUPPORT. Sys2Proof/Laws/Retire.lean: what completing an instruction can change of the whole machine (R82, R85, R296),
and what a change of trace can.
-/
namespace Sys2Proof.Machine

/-- A trace grows, and nothing else changes (log 47). -/
theorem State.traceTo_eq (s : State) (h : Nat) (a b : BitVec 16) :
    s.traceTo h a b = { s with life := { s.life with traces := (s.traceTo h a b).life.traces } } := by
  unfold State.traceTo
  split <;> rfl

theorem SameButHands.refl (s : State) : SameButHands s s := ⟨rfl, fun _ => rfl, rfl⟩

theorem SameButHands.trans {s t u : State} (a : SameButHands s t) (b : SameButHands t u) : SameButHands s u := by
  refine ⟨?_, fun c => ?_, ?_⟩
  · rw [b.1, a.1]
  · rw [b.2.1 c, a.2.1 c]
  · rw [b.2.2, a.2.2]

theorem sameButHands_modHand (s : State) (h : Nat) (f : Hand → Hand) : SameButHands s (s.modHand h f) :=
  ⟨rfl, fun _ => rfl, rfl⟩

theorem sameButHands_traceTo (s : State) (h : Nat) (a b : BitVec 16) : SameButHands s (s.traceTo h a b) := by
  unfold State.traceTo
  split <;> exact ⟨rfl, fun _ => rfl, rfl⟩

/-- Completing an instruction changes its Hand, its core's watchdog count and its trace, and nothing else. -/
theorem sameButHands_retire (s : State) (h : Nat) (dst load : Option (BitVec 5 × Word)) (pc : BitVec 16) :
    SameButHands s (s.retire h dst load pc) := by
  have hc (t : State) (c : Nat) : SameButHands t (t.modCore c fun k => { k with wdCount := 0 }) :=
    ⟨rfl, fun d => by
      rw [State.core_modCore]
      split
      · next e => subst e; rfl
      · rfl, rfl⟩
  have h1 := (sameButHands_modHand s h fun x => x.retire dst load pc).trans (hc _ (coreOf h))
  unfold State.retire
  simp only
  split
  · exact h1
  · exact h1.trans (sameButHands_traceTo _ _ _ _)

/-- The Hand after an instruction completes. -/
theorem State.hand_retire (s : State) (h : Nat) (dst load : Option (BitVec 5 × Word)) (pc : BitVec 16) :
    (s.retire h dst load pc).hand h = (s.hand h).retire dst load pc := by
  have ht (t : State) (a b : BitVec 16) : (t.traceTo h a b).hand h = t.hand h := by
    unfold State.traceTo; split <;> rfl
  unfold State.retire
  simp only
  split
  · simp
  · rw [ht]; simp

end Sys2Proof.Machine
end

