-- ==== Sys2Proof/Laws/Sealed.lean ====
section
/-!
SUPPORT. Sys2Proof/Laws/Sealed.lean: what opening a sealed page answers when its octets are a ciphertext, the tag of
that ciphertext and a trailer (R306 to R308), and when a checkpoint record's line is a record and its MAC (R340).
-/
namespace Sys2Proof.Machine

theorem length_leOctets (n x : Nat) : (leOctets n x).length = n := by
  induction n generalizing x with
  | zero => rfl
  | succ n ih => simp [leOctets, ih]

theorem length_trailerOctets (page version epoch : Nat) (warden : Bool) :
    (trailerOctets page version epoch warden).length = 48 := by
  simp [trailerOctets, length_leOctets]

/-- A tag is 16 octets when the cipher's block is. -/
theorem length_gcmTag (key iv aad c : List Byte) (h : (aesEnc key (iv.take 12 ++ [0, 0, 0, 1])).length = 16) :
    (gcmTag key iv aad c).length = 16 := by
  simp only [gcmTag, xorOctets, List.length_zipWith, length_beOctets, h]
  rfl

/-- A page whose tag holds, with a trailer that names the page, its version and a live epoch, opens. -/
theorem openPage_parts (keyOf : Nat → Option (List Byte)) (page version epoch : Nat) (warden : Bool)
    (key c : List Byte) (hc : c.length = 4032)
    (hl : (aesEnc key ((pageIv page version).take 12 ++ [0, 0, 0, 1])).length = 16)
    (he : leNat (((trailerOctets page version epoch warden).drop 8).take 4) = epoch)
    (hv : leNat ((trailerOctets page version epoch warden).take 7) = version)
    (hp : leNat (((trailerOctets page version epoch warden).drop 12).take 4) = page)
    (hf : leNat (((trailerOctets page version epoch warden).drop 7).take 1) = b2n warden)
    (hz : ((trailerOctets page version epoch warden).drop 16).all (· == 0) = true) (hk : keyOf epoch = some key) :
    openPage keyOf page version (c ++ gcmTag key (pageIv page version) (trailerOctets page version epoch warden) c
        ++ trailerOctets page version epoch warden) =
      some (epoch, warden, packIn .dense (gcmCrypt key (pageIv page version) c)) := by
  have ht := length_gcmTag key (pageIv page version) (trailerOctets page version epoch warden) c hl
  have hn := length_trailerOctets page version epoch warden
  generalize htag : gcmTag key (pageIv page version) (trailerOctets page version epoch warden) c = tag at *
  generalize haad : trailerOctets page version epoch warden = aad at *
  have h1 : (c ++ tag ++ aad).take 4032 = c := by rw [List.append_assoc, List.take_left' hc]
  have h2 : (c ++ tag ++ aad).drop 4032 = tag ++ aad := by rw [List.append_assoc, List.drop_left' hc]
  have h3 : (c ++ tag ++ aad).drop 4048 = aad := List.drop_left' (by simp [hc, ht])
  have h4 : aad.take 48 = aad := List.take_of_length_le (by omega)
  have h5 : (tag ++ aad).take 16 = tag := List.take_left' ht
  have h6 : (b2n warden == 1) = warden := by cases warden <;> rfl
  have h7 : b2n warden ≤ 1 := by cases warden <;> decide
  simp only [openPage, h1, h2, h3, h4, h5, he, hk, hv, hp, hf, hz, htag, h6]
  simp [hc, ht, hn, h7]

/-- A line that is a record's words and their MAC is that record. -/
theorem recordOf_words (key : List Byte) (ws : List Word) (h : ws.length = 15) :
    (recordOf key (ws ++ [recordMac key ws])).isSome = true := by
  have h1 : (ws ++ [recordMac key ws]).getD 15 0 = recordMac key ws := by simp [List.getD, h]
  have h2 : (ws ++ [recordMac key ws]).take 15 = ws := List.take_left' h
  rw [recordOf, h1, h2, if_neg (fun h => h rfl)]
  rfl

end Sys2Proof.Machine
end

