-- ==== Sys2Proof/Laws/Tag.lean ====
section
/-!
SUPPORT. Sys2Proof/Laws/Tag.lean: what a page of the tag reads as when one slot holds octets and their marker (R675, R676).
-/
namespace Sys2Proof.Machine

theorem length_tagMarker (page seq : Nat) (d : List Byte) : (tagMarker page seq d).length = 8 := by
  simp [tagMarker, length_beOctets]

/-- The first slot holds octets with their marker of SEQ 1, the second is erased: the first is current. -/
theorem current_first (t : Tag) (page : Nat) (d : List Byte) (hd : d.length = 120)
    (h1 : t.slot page false = d ++ tagMarker page 1 d) (h2 : t.slot page true = List.replicate 128 0xFF#8) :
    t.current page = some (false, 1) := by
  have e1 : t.slotSeq page false = some 1 := by
    simp only [Tag.slotSeq, h1, List.take_left' hd, List.drop_left' hd]
    have ht : (tagMarker page 1 d).take 4 = [0, 0, 0, 1] := rfl
    have ha : (tagMarker page 1 d).any (· != 0xFF#8) = true := rfl
    rw [ht, ha, show beNat [0, 0, 0, 1] = 1 from rfl]
    simp
  have e2 : t.slotSeq page true = none := by simp [Tag.slotSeq, h2]
  simp only [Tag.current, e1, e2]

/-- So the page reads as those octets. -/
theorem readPage_first (t : Tag) (page : Nat) (d : List Byte) (hd : d.length = 120)
    (h1 : t.slot page false = d ++ tagMarker page 1 d) (h2 : t.slot page true = List.replicate 128 0xFF#8) :
    t.readPage page = d := by
  simp only [Tag.readPage, current_first t page d hd h1 h2, h1]
  exact List.take_left' hd

/-- What the tag holds in its system pages, by what they read as. -/
theorem pwdFails_page (t : Tag) (d : List Byte) (h : t.readPage 61 = d) : t.pwdFails = (d.getD 0 0).toNat % 16 := by
  rw [← h]; rfl
theorem key_page (t : Tag) (d : List Byte) (h : t.readPage 60 = d) :
    t.pwdSet = (d.getD 0 0).getLsbD 0 ∧ t.keySet = (d.getD 0 0).getLsbD 1 ∧ t.password = (d.drop 1).take 8 ∧
    t.key = (d.drop 9).take 16 := by
  rw [← h]; exact ⟨rfl, rfl, rfl, rfl⟩
theorem storedAcl_page (t : Tag) (k : Nat) (d : List Byte) (c : Bool × Nat) (hc : t.current 62 = some c)
    (h : t.readPage 62 = d) : t.storedAcl k = beNat ((d.drop (4 * k)).take 4) := by
  rw [← h]; simp [Tag.storedAcl, hc]

end Sys2Proof.Machine
end

