-- ==== Sys2Proof/Laws/Transfer.lean ====
section
/-!
SUPPORT. Sys2Proof/Laws/Transfer.lean: when the check of a run of D-space words passes, and that it then changes
nothing (R368, R428, R471).
-/
namespace Sys2Proof.Machine

/-- What lets one word of a run pass: its region, and the ACUs that guard it. -/
def wordPasses (s : State) (v : AcuView) (h level start : Nat) (write : Bool) (a : Nat) : Bool :=
  let p : Probe := { addr := a, start := start, write := write }
  let q : Probe := { p with addr := s.fabricAddr h a, start := s.fabricAddr h start }
  decide (a < 2 ^ 24) && decide (dRegion (s.hand h) a write = .ok) && v.core.allows .core (dmaAccessor h level) p
    && (!inCommons a || v.hamlet.allows .hamlet (dmaAccessor h level) p)
    && (decide (0x28000 ≤ a) || v.device.allows .device (dmaAccessor h level) q)

theorem wordPasses_spec (s : State) (v : AcuView) (h level start : Nat) (write : Bool) (a code : Nat)
    (ok : wordPasses s v h level start write a = true) : State.runCore v h level start write s a = (true, s) ∧
      State.runHamlet v h level start write s a = (true, s) ∧
      State.runDevice v h level start write code s a = (true, s) := by
  simp only [wordPasses, Bool.and_eq_true, decide_eq_true_eq, Bool.or_eq_true, Bool.not_eq_true'] at ok
  obtain ⟨⟨⟨⟨h1, h2⟩, h3⟩, h4⟩, h5⟩ := ok
  refine ⟨?_, ?_, ?_⟩
  · rw [State.runCore, if_neg (by omega), h2]
    simp [State.coreCheck, h3]
  · rw [State.runHamlet, State.hamletCheck, if_neg]
    rcases h4 with h4 | h4 <;> simp [h4]
  · simp only [State.runDevice, State.deviceCheck]
    split
    · rcases h5 with h5 | h5
      · omega
      · rw [if_pos h5]
    · rfl

/-- Words that each pass leave the state as it is. -/
theorem checkWords_passes (check : State → Nat → Bool × State) (n a : Nat) (s : State)
    (ok : ∀ i < n, check s (a + i) = (true, s)) : checkWords check n a s = (true, s) := by
  induction n generalizing a with
  | zero => rfl
  | succ n ih =>
    rw [checkWords, show check s a = (true, s) from ok 0 (by omega)]
    exact ih (a + 1) fun i hi => by rw [show a + 1 + i = a + (i + 1) by omega]; exact ok (i + 1) (by omega)

/-- Words of which the one after n that pass is refused, with no change. -/
theorem checkWords_leaves (check : State → Nat → Bool × State) (n m a : Nat) (s : State)
    (ok : ∀ i < n, check s (a + i) = (true, s)) (hd : check s (a + n) = (false, s)) :
    checkWords check (n + m + 1) a s = (false, s) := by
  induction n generalizing a with
  | zero => rw [Nat.zero_add, checkWords, show check s a = (false, s) from hd]
  | succ n ih =>
    rw [show n + 1 + m + 1 = (n + m + 1) + 1 by omega, checkWords, show check s a = (true, s) from ok 0 (by omega)]
    exact ih (a + 1) (fun i hi => by rw [show a + 1 + i = a + (i + 1) by omega]; exact ok (i + 1) (by omega))
      (by rw [show a + 1 + n = a + (n + 1) by omega]; exact hd)

/-- A run whose every word passes is allowed with no change. -/
theorem checkRun_passes (v : AcuView) (h level a n : Nat) (write : Bool) (code : Nat) (s : State) (hn : n ≤ 0x28001)
    (ok : ∀ i < n, wordPasses s v h level a write (a + i) = true) :
    s.checkRun v h level a n write code = (true, s) := by
  have w := fun i hi => wordPasses_spec s v h level a write (a + i) code (ok i hi)
  simp only [State.checkRun, Nat.min_eq_left hn]
  rw [checkWords_passes _ n a s fun i hi => (w i hi).1]
  simp only
  rw [checkWords_passes _ n a s fun i hi => (w i hi).2.1]
  simp only
  exact checkWords_passes _ n a s fun i hi => (w i hi).2.2

/-- A run that leaves its region after n words that pass is refused with no change. -/
theorem checkRun_leaves (v : AcuView) (h level a n m : Nat) (write : Bool) (code : Nat) (s : State)
    (hn : n + m + 1 ≤ 0x28001) (ok : ∀ i < n, wordPasses s v h level a write (a + i) = true)
    (hd : dRegion (s.hand h) (a + n) write ≠ .ok) : s.checkRun v h level a (n + m + 1) write code = (false, s) := by
  simp only [State.checkRun, Nat.min_eq_left hn]
  rw [checkWords_leaves _ n m a s (fun i hi => (wordPasses_spec s v h level a write (a + i) code (ok i hi)).1)]
  rw [State.runCore]
  split
  · rfl
  · split
    · next e => exact absurd e hd
    · rfl

/-- One run of a Vault command passes its range check. -/
theorem vaultRange_passes (s : State) (h a n : Nat) (write : Bool) (ha : (s.acuView h).2 = s) (hn : n ≤ 0x28001)
    (ok : ∀ i < n, wordPasses s (s.acuView h).1 h (s.hand h).level a write (a + i) = true) :
    s.vaultRange h [(a, n, write)] = (true, s) := by
  simp only [State.vaultRange, checkRuns, ha]
  rw [checkRun_passes _ _ _ _ _ _ _ _ hn ok]

theorem vaultRange_leaves (s : State) (h a n m : Nat) (write : Bool) (ha : (s.acuView h).2 = s)
    (hn : n + m + 1 ≤ 0x28001) (hd : dRegion (s.hand h) (a + n) write ≠ .ok)
    (ok : ∀ i < n, wordPasses s (s.acuView h).1 h (s.hand h).level a write (a + i) = true) :
    s.vaultRange h [(a, n + m + 1, write)] = (false, s) := by
  simp only [State.vaultRange, checkRuns, ha]
  rw [checkRun_leaves _ _ _ _ _ _ _ _ _ hn ok hd]

/-- Only the Hand of the state counts, and what the ACUs decide with. -/
theorem wordPasses_congr (s t : State) (v : AcuView) (h level start : Nat) (write : Bool) (a : Nat)
    (e : s.hand h = t.hand h) : wordPasses s v h level start write a = wordPasses t v h level start write a := by
  simp only [wordPasses, State.fabricAddr, e]

/-- The first words of a run. -/
theorem readRun_take (s : State) (h a n m : Nat) (hm : m ≤ n) : (s.readRun h a n).take m = s.readRun h a m := by
  simp [State.readRun, ← List.map_take, List.take_range, Nat.min_eq_left hm]

end Sys2Proof.Machine
end

