-- ==== Sys2Proof/Machine/Flits.lean ====
section
/-!
DEFINITION. Sys2Proof/Machine/Flits.lean: the 256 octets a flit is on its link: HEADER, PAYLOAD, TAG and CRC
(R512, R513).
-/
namespace Sys2Proof.Machine

/-- HEADER (Flit header table). -/
def Flit.header (f : Flit) : Nat :=
  f.type % 16 * 2 ^ 44 + f.cls % 4 * 2 ^ 42 + f.seq % 1024 * 2 ^ 32 + f.ack % 1024 * 2 ^ 22 + f.payload.length % 256 * 2 ^ 14
    + b2n f.more * 2 ^ 13

/-- HEADER's six octets. -/
def Flit.headerOctets (f : Flit) : List Byte := leOctets 6 f.header

/-- PAYLOAD in clear: the message, then zeros. -/
def Flit.clear (f : Flit) : List Byte := (padTo 234 f.payload).take 234

/-- The IV of a flit: the direction constant, 1 from the end nearer the master and 2 from the other, then the
count of non-IDLE flits (R513; log 105). -/
def Flit.iv (f : Flit) (up : Bool) : List Byte := beOctets 4 (if up then 1 else 2) ++ beOctets 8 f.count

/-- PAYLOAD and TAG as sent: an OPEN link has both in clear and zero; on a KEYED one the PAYLOAD is encrypted, but
of an IDLE flit only the header is authenticated, with no plaintext (R513). -/
def Flit.body (f : Flit) (key : List Byte) (up : Bool) : List Byte :=
  if !f.keyed then f.clear ++ List.replicate 12 0#8
  else
    let c := if f.type = 0 then [] else gcmCrypt key (f.iv up) f.clear
    let sent := if f.type = 0 then f.clear else c
    sent ++ (gcmTag key (f.iv up) f.headerOctets c).take 12

/-- Octets 00h to FBh, which the CRC covers. -/
def Flit.covered (f : Flit) (key : List Byte) (up : Bool) : List Byte := f.headerOctets ++ f.body key up

/-- The flit's 256 octets (R512). -/
def Flit.octets (f : Flit) (key : List Byte) (up : Bool) : List Byte :=
  f.covered key up ++ leOctets 4 (crc32c (f.covered key up)).toNat

/-- A flit as a port puts it on its link: under the key of the direction it sends, ports 1 to 7 being the ends
nearer the master (R509, R513). -/
def State.wireOctets (s : State) (p : Nat) (f : Flit) : List Byte := f.octets (s.port p).txKey (p != 0)

end Sys2Proof.Machine
end

