-- ==== Sys2Proof/WellFormed.lean ====
section
/-!
DEFINITION. Sys2Proof/WellFormed.lean: what the outside world may send: the lengths and ranges the
spec gives a command's operands beyond what their types say.
-/
namespace Sys2Proof

/-- The check holds of what is present. -/
def optAll {α : Type} (p : α → Bool) (x : Option α) : Bool := x.elim true p

/-- Every tree node read from the Store Window is 64 octets (R306). -/
def nodesOk (nodes : List (Option (List Byte))) : Bool := nodes.all (optAll fun n => n.length == 64)

/-- The command's operands have the lengths and ranges the spec gives them: descriptors of 64 octets, at
most 8 a read (R238, R268); pages of 4,096 octets and nodes of 64 (R306); a certificate of 256 octets
(R584); a token preimage of 32 (R581); a measurement hash of 48 (R521); 16 sensors (R562); challenges of
16 octets (R672); the counts of the debug mailbox; and for RESERVED_OPCODE a word no instruction has. -/
def Instr.wellFormed (i : Instr) : Bool :=
  match i with
  | .nop .. => true
  | .mfence .. => true
  | .iofence .. => true
  | .pfence .. => true
  | .eret .. => true
  | .ret .. => true
  | .jr .. => true
  | .callr .. => true
  | .mfs .. => true
  | .mts .. => true
  | .done .. => true
  | .yield .. => true
  | .wait .. => true
  | .syscall .. => true
  | .brk .. => true
  | .pkclr .. => true
  | .add .. => true
  | .addv .. => true
  | .sub .. => true
  | .subv .. => true
  | .adc .. => true
  | .sbc .. => true
  | .and .. => true
  | .or .. => true
  | .xor .. => true
  | .andn .. => true
  | .sll .. => true
  | .srl .. => true
  | .sra .. => true
  | .ror .. => true
  | .slt .. => true
  | .sltu .. => true
  | .seq .. => true
  | .clz .. => true
  | .mul .. => true
  | .mulh .. => true
  | .mulhu .. => true
  | .mulv .. => true
  | .div .. => true
  | .divu .. => true
  | .rem .. => true
  | .remu .. => true
  | .dadd .. => true
  | .dsub .. => true
  | .dadc .. => true
  | .dsbc .. => true
  | .dcvtBd .. => true
  | .dcvtDb .. => true
  | .ext .. => true
  | .ins .. => true
  | .addi .. => true
  | .addiv .. => true
  | .andi .. => true
  | .ori .. => true
  | .xori .. => true
  | .lui .. => true
  | .slti .. => true
  | .sltiu .. => true
  | .slli .. => true
  | .srli .. => true
  | .srai .. => true
  | .rori .. => true
  | .ld .. => true
  | .st .. => true
  | .lwr .. => true
  | .swc .. => true
  | .ild .. => true
  | .inp .. => true
  | .out .. => true
  | .jmp .. => true
  | .call .. => true
  | .beq .. => true
  | .bne .. => true
  | .blt .. => true
  | .bge .. => true
  | .bltu .. => true
  | .bgeu .. => true
  | .wmov .. => true
  | .wfill .. => true
  | .wsumCrc .. => true
  | .wsumAdd .. => true
  | .macn .. => true
  | .reservedOpcode _ word => !Machine.assignedWord word
  | .interrupt .. => true
  | .impreciseException .. => true
  | .handTimerExpiry .. => true
  | .icSwi .. => true
  | .perstN => true
  | .hotReset => true
  | .dlDown => true
  | .d3cold => true
  | .d3hot => true
  | .d0 => true
  | .linkUp .. => true
  | .configRequest .. => true
  | .readinessTimeout => true
  | .fastStatusRead _ len => 1 ≤ len && len ≤ 4096
  | .hlCtrl .. => true
  | .msixUnmask .. => true
  | .doeRequest .. => true
  | .ideInsecure => true
  | .ideSecure .. => true
  | .ptmInterval => true
  | .ptmResponse .. => true
  | .completionTimeout .. => true
  | .rgSqBase .. => true
  | .rgCqBase .. => true
  | .rgSize .. => true
  | .rgCtrl .. => true
  | .rgResetSq .. => true
  | .sqResetDone .. => true
  | .rgResetCq .. => true
  | .cqResetDone .. => true
  | .doorbellSqTail .. => true
  | .doorbellCqHead .. => true
  | .descriptorFetch => true
  | .descriptorArrival _ _ data => optAll (fun ds => decide (ds.length ≤ 8) && ds.all fun d => d.length == 64) data
  | .handAllocate => true
  | .errandStart .. => true
  | .completionWrite .. => true
  | .load .. => true
  | .unload .. => true
  | .unloadComplete .. => true
  | .checkpoint .. => true
  | .swIsubmit .. => true
  | .swIcpl7Read .. => true
  | .grantLane .. => true
  | .grantSliceSeq .. => true
  | .grantSliceMac .. => true
  | .grantRb .. => true
  | .grantDrbg .. => true
  | .releaseLane .. => true
  | .releaseSlice .. => true
  | .releaseRb .. => true
  | .releaseDrbg .. => true
  | .grantDeliver .. => true
  | .handback .. => true
  | .handbackRestore .. => true
  | .coreNsOverrun .. => true
  | .swStop .. => true
  | .swSliceMode .. => true
  | .sliceModeChange .. => true
  | .coreOutOfService .. => true
  | .coreReturn .. => true
  | .coreWatchdogExpiry .. => true
  | .set .. => true
  | .remove .. => true
  | .ctMemlat .. => true
  | .deadlinePassed .. => true
  | .memlatExceeded .. => true
  | .memlatCauseClear => true
  | .storeOpen => true
  | .storeOpenNew => true
  | .storeClose => true
  | .shareOpenComplete .. => true
  | .stMapOwner .. => true
  | .sopen .. => true
  | .sclose .. => true
  | .pin .. => true
  | .unpin .. => true
  | .pageInStart .. => true
  | .pageInComplete _ data nodes => optAll (fun d => d.length == 4096) data && nodesOk nodes
  | .writeBack _ nodes => nodesOk nodes
  | .ckCtrl .. => true
  | .checkpointInterval => true
  | .checkpointStart => true
  | .checkpointReady => true
  | .ckAck .. => true
  | .checkpointDone => true
  | .checkpointAbandoned => true
  | .pfwNFall => true
  | .pfwNResume => true
  | .rotate => true
  | .sweepPage data nodes => optAll (fun d => d.length == 4096) data && nodesOk nodes
  | .ecbEncrypt .. => true
  | .ecbDecrypt .. => true
  | .cbcEncrypt .. => true
  | .cbcDecrypt .. => true
  | .ctrEncrypt .. => true
  | .ctrDecrypt .. => true
  | .gcmEncrypt .. => true
  | .gcmDecrypt .. => true
  | .ccmEncrypt .. => true
  | .ccmDecrypt .. => true
  | .cmacGenerate .. => true
  | .cmacVerify .. => true
  | .xtsEncrypt .. => true
  | .xtsDecrypt .. => true
  | .kwWrap .. => true
  | .kwUnwrap .. => true
  | .kwpWrap .. => true
  | .kwpUnwrap .. => true
  | .laneOpEnd .. => true
  | .lnFlush .. => true
  | .keygen .. => true
  | .sign .. => true
  | .verify .. => true
  | .agree .. => true
  | .encaps .. => true
  | .decaps .. => true
  | .pkMctl .. => true
  | .run .. => true
  | .accout .. => true
  | .accadd .. => true
  | .accclr .. => true
  | .pkOpdata .. => true
  | .pkUcodeLoad .. => true
  | .sliceOpEnd .. => true
  | .derive .. => true
  | .info .. => true
  | .generate .. => true
  | .destroy .. => true
  | .lockexp .. => true
  | .save .. => true
  | .vaultLoad .. => true
  | .exportKey .. => true
  | .importKey .. => true
  | .issue .. => true
  | .attest .. => true
  | .spdmSign .. => true
  | .split .. => true
  | .combine .. => true
  | .lwkRotate .. => true
  | .bbkrNew .. => true
  | .storeEscrow .. => true
  | .storeRestore .. => true
  | .vaultCommandEnd .. => true
  | .sourceStartupTest .. => true
  | .entropySourceFail .. => true
  | .seedProduced .. => true
  | .instanceDue .. => true
  | .entropyStall .. => true
  | .drOut .. => true
  | .retry .. => true
  | .selftest .. => true
  | .healthSelftestEnd .. => true
  | .entRaw .. => true
  | .patternSet .. => true
  | .patternClear .. => true
  | .acuCtrl .. => true
  | .program .. => true
  | .erase .. => true
  | .blankCheck .. => true
  | .flashOpEnd .. => true
  | .flData .. => true
  | .eraseResume .. => true
  | .flWp .. => true
  | .idle .. => true
  | .control .. => true
  | .errand .. => true
  | .completion .. => true
  | .tread .. => true
  | .tdata .. => true
  | .twrite .. => true
  | .remote .. => true
  | .time .. => true
  | .timeInterval => true
  | .retransmitTimeout .. => true
  | .batonSilence .. => true
  | .upstreamLoss => true
  | .signalDetect .. => true
  | .linkTrained .. => true
  | .trainingTimeout .. => true
  | .failedRetrain .. => true
  | .keyUpdate .. => true
  | .joinOffer .. => true
  | .joinAuthenticated _ session => session.meas.length == 48
  | .accept .. => true
  | .reject .. => true
  | .joinDecisionTimeout => true
  | .memberJoined .. => true
  | .csCtrl .. => true
  | .remoteRead .. => true
  | .remoteWrite .. => true
  | .hcReopen .. => true
  | .hcSeq => true
  | .dozeEntry => true
  | .napEntry => true
  | .slumberEntry => true
  | .wakeEvent => true
  | .pmeTurnOff => true
  | .wakeIn => true
  | .tjReading sensors _ => sensors.length == 16
  | .sprintLockExpiry => true
  | .pwLtGlobal .. => true
  | .pwLtRing .. => true
  | .pwGov .. => true
  | .gvCtrl .. => true
  | .lcQuery => true
  | .challenge => true
  | .dbgOpen certificate => optAll (fun c => c.length == 256) certificate
  | .dbgClose => true
  | .trialEnter _ _ preimage => preimage.length == 32
  | .lcAdvance .. => true
  | .fuseAdvanceEnd => true
  | .dbgHalt .. => true
  | .dbgResume .. => true
  | .dbgStep .. => true
  | .dbgRead _ count => 1 ≤ count && count ≤ 256
  | .dbgWrite _ words => 1 ≤ words.length && words.length ≤ 256
  | .trace .. => true
  | .parishRead first count _ => first < 16384 && 1 ≤ count && count ≤ 4096
  | .flashRead _ count => 1 ≤ count && count ≤ 4096
  | .powerHold .. => true
  | .scan .. => true
  | .raw .. => true
  | .status => true
  | .nonceExpiry => true
  | .sessionExpiry => true
  | .dbgCtrl .. => true
  | .debugWindowClose .. => true
  | .extest => true
  | .samplePreload => true
  | .idcode => true
  | .bypass => true
  | .monitorAlarm .. => true
  | .watchPowerOnReset => true
  | .logclr .. => true
  | .resume .. => true
  | .wlock .. => true
  | .mlock .. => true
  | .wtMon .. => true
  | .monitorSelftest .. => true
  | .monitorSelftestEnd .. => true
  | .rtcLoad .. => true
  | .rtcCapture .. => true
  | .prWrite .. => true
  | .prSnap .. => true
  | .prRdata .. => true
  | .phRdata => true
  | .prCtrl .. => true
  | .archiveFlush => true
  | .activate .. => true
  | .deactivate .. => true
  | .apdu .. => true
  | .seat .. => true
  | .cardRead .. => true
  | .cardWrite .. => true
  | .sleep .. => true
  | .cardWake .. => true
  | .cardUnlock .. => true
  | .cardOpEnd .. => true
  | .presChange .. => true
  | .cardSupplyFail .. => true
  | .cgClaim .. => true
  | .cgBdata .. => true
  | .cgCtrl .. => true
  | .fieldEntry .. => true
  | .fieldLoss => true
  | .fdHoldExpiry => true
  | .reqa => true
  | .wupa => true
  | .anticollision .. => true
  | .select .. => true
  | .hlta => true
  | .rats => true
  | .pps .. => true
  | .deselect => true
  | .getInfo .. => true
  | .readLive .. => true
  | .readPage .. => true
  | .writePage .. => true
  | .fieldWriteEnd .. => true
  | .authPwd .. => true
  | .auth1 .. => true
  | .auth2 rndR proof _ => rndR.length == 16 && proof.length == 16
  | .authDelayExpiry => true
  | .logout .. => true
  | .tagRead .. => true
  | .tagWrite .. => true
  | .summary .. => true
  | .summaryAuto => true
  | .setpwd .. => true
  | .setkey .. => true
  | .clearauth .. => true
  | .setacl .. => true
  | .tagCmdEnd .. => true
  | .tagUnlock .. => true
  | .deviceReset => true
  | .guardPowerOnReset => true
  | .railsGood => true
  | .deviceResetEnd .. => true
  | .deviceWatchdogExpiry => true
  | .service .. => true
  | .stewardGo .. => true
  | .wdLock .. => true
  | .fwReady .. => true
  | .gcCtrlReset .. => true
  | .gcStage .. => true
  | .recoveryGo .. => true
  | .recoveryWriteEnd .. => true
  | .recoveryReset => true
  | .registerWrite .. => true
  | .mainSideUnpowered => true
  | .vbatLoss => true
  | .wdogWarn .. => true
  | .cardClockStop .. => true

end Sys2Proof
end

