-- ==== Sys2Proof/Tests/Slice0.lean ====
section
/-!
SUPPORT. Sys2Proof/Tests/Slice0.lean: states that meet the hypotheses of the statements, clause by clause, terms that
the checks of WellFormed refuse, and small tests of single commands against the spec's own words.
-/
namespace Sys2Proof.Tests
open Sys2Proof Sys2Proof.Machine
set_option Elab.async false

/-! ### States -/

/-- A device that is up: rails good, the link up with Bus Master, firmware ready, the Steward started. -/
def dev : State := { State.reset with
  startup := { State.reset.startup with inReset := false, rails := true }
  link := { State.reset.link with perst := false, dlUp := true, fwReady := true, busMaster := true, mode := 1 }
  steward := { State.reset.steward with started := true } }

/-- A Hand at the Warden supervisor level. -/
def wsHand : Hand := { state := .running, boot := true, pc := 100, st := 0xC00000000#36 }

/-- The device with one Hand, Hand 0. -/
def one (x : Hand) : State := { dev with hands := [(0, x)] }

/-- Hand 0 at WS with w1 = 5, w2 = 7 and w3 = 0. -/
def ws : State := one { wsHand with regs := [(1, 5), (2, 7)] }

/-- Hand 0 at WS with PRECISE 1. -/
def wsPrecise : State := one { wsHand with st := wsetBit 0xC00000000#36 32 true, regs := [(1, 0x7FFFFFFFF), (2, 1)] }

/-- Hand 0 at WS with the largest and the smallest word. -/
def wsEnds : State := one { wsHand with regs := [(1, 0x7FFFFFFFF#36), (2, 1), (3, 0x800000000#36), (4, 0xFFFFFFFFF#36)] }

/-- Hand 0 at the Common supervisor level. -/
def csHand : Hand := { wsHand with st := 0x400000000#36 }
def cs : State := one { csHand with regs := [(1, 5), (2, 7)] }

/-- Hand 0 at the Warden and at the Common user level. -/
def wu : State := one { wsHand with st := 0x800000000#36 }
def cu : State := one { wsHand with st := 0 }

/-! ### The queue and results -/

theorem witness_idle_tick :
    dev.pending = [] ∧ dev.clocked = true ∧ dev.link.perst = false ∧ dev.link.slew = 0 ∧
      dev.startup.wdRest < 99999 ∧ dev.watch.sampleClock < 99 ∧ dev.store.state = .closed ∧
      dev.store.ckPhase = .idle ∧ dev.store.topOwed = false ∧ dev.vault.formOwed = false ∧
      dev.steward.ctBusy = none ∧ dev.cascade.rwait = none ∧ dev.cascade.held = [] ∧ dev.power.wakeOwed = false ∧
      dev.power.turnOffOwed = false ∧ (∀ h, (dev.hand h).htRun = false) ∧ ∀ c, (dev.core c).period = 0 :=
  ⟨rfl, by decide, rfl, rfl, by decide, by decide, rfl, rfl, rfl, rfl, rfl, rfl, rfl, rfl, rfl, fun _ => rfl,
      fun _ => rfl⟩
theorem witness_issues :
    ws.issues 0 = true ∧ cs.issues 0 = true ∧ wu.issues 0 = true ∧ cu.issues 0 = true := by decide
theorem witness_checked_in_range :
    ws.issues 0 = true ∧ (-2 ^ 35 ≤ (ws.rg 0 1).toInt + (ws.rg 0 2).toInt ∧
      (ws.rg 0 1).toInt + (ws.rg 0 2).toInt < 2 ^ 35) ∧ (ws.rg 0 1).toInt * (ws.rg 0 2).toInt < 2 ^ 35 := by decide
theorem witness_checked_overflow :
    wsPrecise.issues 0 = true ∧ 2 ^ 35 ≤ (wsPrecise.rg 0 1).toInt + (wsPrecise.rg 0 2).toInt ∧
      preciseOf (wsPrecise.status 0) = true := by decide
theorem witness_checked_overflow_imprecise :
    wsEnds.issues 0 = true ∧ 2 ^ 35 ≤ (wsEnds.rg 0 1).toInt + (wsEnds.rg 0 2).toInt ∧
      preciseOf (wsEnds.status 0) = false := by decide
theorem witness_checked_subtract_overflow :
    -2 ^ 35 > (wsEnds.rg 0 3).toInt - (wsEnds.rg 0 2).toInt ∧
      2 ^ 35 ≤ (wsEnds.rg 0 1).toInt * (wsEnds.rg 0 1).toInt ∧
      2 ^ 35 ≤ (wsEnds.rg 0 1).toInt + ((1#18).signExtend 36).toInt := by decide
theorem witness_divide_by_zero : ws.issues 0 = true ∧ ws.rg 0 3 = 0 := by decide
theorem witness_divide :
    wsEnds.issues 0 = true ∧ wsEnds.rg 0 4 ≠ 0 ∧ wsEnds.rg 0 3 = 0x800000000#36 ∧
      wsEnds.rg 0 4 = 0xFFFFFFFFF#36 := by decide
theorem witness_fields :
    ws.issues 0 = true ∧ (0#6).toNat + (35#6).toNat + 1 ≤ 36 ∧ (35#6).toNat + (0#6).toNat + 1 ≤ 36 := by decide
theorem witness_immediate_shift :
    ws.issues 0 = true ∧ (35#18).toNat < 36 ∧ (36#18).toNat ≥ 36 ∧ 36 < (36#6).toNat + (0#6).toNat + 1 := by decide
theorem witness_no_instruction : assignedWord 0xFFFFFFFFF#36 = false := by decide
theorem witness_special_levels :
    specialLevel 1 = some 0 ∧ specialLevel 12 = some 1 ∧ specialLevel 20 = some 3 ∧ specialLevel 3 = none ∧
      specialLevel 21 = none ∧ levelOk 3 (ws.hand 0).level = true ∧ levelOk 1 (wu.hand 0).level = false ∧
      levelOk 3 (cs.hand 0).level = false := by decide
theorem witness_depth_beyond :
    wsEnds.issues 0 = true ∧ specialLevel 11 = some 1 ∧ specialLevel 19 = some 3 ∧
      levelOk 3 (wsEnds.hand 0).level = true ∧ 16 < (wsEnds.rg 0 1).toNat % 32 ∧
      (ws.rg 0 1).toNat % 32 ≤ 16 := by decide
theorem witness_user_level : (wu.hand 0).level % 2 = 0 ∧ (cu.hand 0).level % 2 = 0 := by decide


/-! ### Memory -/

/-- Hand 0 at WS with one granule of Workspace: w1 = 8 addresses it, w2 = 7 is data, w3 = 2 a count, w4 = 16
another place, w5 = 2^24 no place, w6 = 120000q reserved. -/
def mem : State := { one { wsHand with
    regs := [(1, 8), (2, 7), (3, 2), (4, 16), (5, 0x1000000), (6, 0x28000), (7, 0x7FFF), (8, 0x100)], wsSize := 1024, wsBase := 1024 } with
  cores := [(0, { workspace := [(1032, 3), (1033, 0xFFFFFFFFF#36)] })] }

/-- `mem` with a reservation on word 8. -/
def memResv : State := { mem with
  hands := [(0, { mem.hand 0 with resv := some { ea := 8, loc := .workspace 0 1032 } }),
    (4, { wsHand with resv := some { ea := 8, loc := .workspace 0 1032 } })] }

theorem witness_reach :
    mem.issues 0 = true ∧ mem.reaches 0 (mem.rg 0 1 + (0#18).signExtend 36) false ∧
      mem.reaches 0 (mem.rg 0 1 + (0#18).signExtend 36) true ∧
      mem.reaches 0 (mem.rg 0 0 + (1023#18).signExtend 36) true ∧ (mem.hand 0).posted = [] := by
  unfold State.reaches
  decide
theorem witness_load_delay : (3#5) ≠ 0 ∧ (mem.hand 0).delay = none ∧ (4#5) ≠ 3 := by decide
theorem witness_reserved_by_this_hand :
    memResv.issues 0 = true ∧ memResv.reaches 0 (memResv.rg 0 1 + (0#18).signExtend 36) true ∧
      (memResv.hand 0).resv.map Reservation.ea = some 8 := by
  unfold State.reaches
  decide
theorem witness_ordered_store :
    (mem.acuView 0).1.relaxed (handAccessor 0 (mem.hand 0)) { addr := 8, start := 8, write := true } = false ∧
      mem.present (.workspace 0 1032) = true := by decide
theorem witness_no_address :
    mem.issues 0 = true ∧ 2 ^ 24 ≤ (mem.rg 0 5).toNat ∧
      dRegion (mem.hand 0) (mem.rg 0 6).toNat false = .reserved ∧
      dRegion (mem.hand 0) (mem.rg 0 6).toNat true = .reserved ∧ (mem.rg 0 7).toNat < 2 ^ 24 ∧
      dRegion (mem.hand 0) (mem.rg 0 7).toNat false = .fault ∧
      dRegion (mem.hand 0) (mem.rg 0 7).toNat true = .fault := by decide
theorem witness_block_count_zero :
    mem.issues 0 = true ∧ (1#5) ≠ 2 ∧ (2#5) ≠ 9 ∧ (1#5) ≠ 9 ∧ mem.rg 0 9 = 0 := by decide

/-- `mem` holding MAC slice 1. -/
def mac : State := { mem with
  hands := [(0, { mem.hand 0 with sliceHeld := true, slice := some 1, sliceMac := true })]
  slices := [(1, { holder := some 0 })] }

theorem witness_block_count_zero_macn :
    mac.issues 0 = true ∧ (mac.hand 0).sliceHeld = true ∧ (mac.hand 0).sliceMac = true ∧ mac.rg 0 9 = 0 := by decide
theorem witness_block_run :
    mem.issues 0 = true ∧ (1#5) ≠ 4 ∧ (4#5) ≠ 3 ∧ (1#5) ≠ 3 ∧ (mem.acuView 0).2 = mem ∧
      (mem.hand 0).delay = none ∧ mem.rg 0 3 ≠ 0 ∧
      checkProbes (mem.acuView 0).1 0 (mem.hand 0) ((mem.hand 0).runList 2 [1] [4]) mem = none ∧
      checkProbes (mem.acuView 0).1 0 (mem.hand 0) ((mem.hand 0).runList 2 [] [4]) mem = none ∧
      checkProbes (mem.acuView 0).1 0 (mem.hand 0) ((mem.hand 0).runList 2 [1] []) mem = none ∧ ∀ i,
      i < 2 → mem.missing (mem.place 0 ((mem.hand 0).runAddr 1 i).toNat) = none ∧
      mem.missing (mem.place 0 ((mem.hand 0).runAddr 4 i).toNat) = none :=
  by decide
theorem witness_block_register_twice : mem.issues 0 = true ∧ (1#5) = 1 := by decide
theorem witness_block_roles :
    (1#5) = 1 ∧ (mem.acuView 0).2 = mem ∧ (mem.hand 0).delay = none ∧ mem.rg 0 3 ≠ 0 ∧
      checkProbes (mem.acuView 0).1 0 (mem.hand 0) ((mem.hand 0).runList 2 [1] [1]) mem = none ∧
      mem.present (.workspace 0 1040) = true := by decide
theorem witness_slice_instructions :
    mac.issues 0 = true ∧ (mac.hand 0).sliceHeld = true ∧ (mac.hand 0).slice = some 1 ∧
      (mac.slice 1).regs.op = none ∧ mac.rg 0 3 ≠ 0 ∧ (mac.acuView 0).2 = mac ∧ (mac.hand 0).delay = none ∧
      macnCheck (mac.acuView 0).1 0 (mac.hand 0) 8 1 2 mac = none ∧ (∀ i,
      i < 2 → mac.missing (mac.place 0 ((mac.hand 0).runAddr 1 i).toNat) = none) ∧ mac.pkRoom 0 0x7F 0 = none :=
  by decide


/-! ### Control transfer, system and exceptions -/

theorem witness_jumps :
    ws.issues 0 = true ∧ ws.rg 0 1 ≠ ws.rg 0 2 ∧ (ws.rg 0 1).toInt < (ws.rg 0 2).toInt := by decide

/-- Hand 0 with its Warden return stack at DEPTH 15, and full, under WRAP and under TRAP. -/
def stack15 : State := one { wsHand with rsW := { entries := [(15, 77)], top := 15, depth := 15 } }
def stackFull : State := one { wsHand with rsW := { entries := [(15, 77)], top := 15, depth := 16 } }
def stackTrap : State := one { wsHand with st := wsetBit 0xC00000000#36 31 true, rsW := { top := 15, depth := 16 } }
def stackEmptyTrap : State := one { wsHand with st := wsetBit 0xC00000000#36 31 true }

theorem witness_call : stack15.issues 0 = true ∧ (stack15.hand 0).bank.depth < 16 := by decide
theorem witness_stack_full :
    stackFull.issues 0 = true ∧ (stackFull.hand 0).bank.depth = 16 ∧
      (stackFull.hand 0).trapStack = false := by decide
theorem witness_stack_full_trap :
    stackTrap.issues 0 = true ∧ (stackTrap.hand 0).bank.depth = 16 ∧
      (stackTrap.hand 0).trapStack = true := by decide
theorem witness_stack_empty :
    ws.issues 0 = true ∧ (ws.hand 0).bank.depth = 0 ∧ (ws.hand 0).trapStack = false := by decide
theorem witness_stack_empty_trap :
    stackEmptyTrap.issues 0 = true ∧ (stackEmptyTrap.hand 0).bank.depth = 0 ∧
      (stackEmptyTrap.hand 0).trapStack = true := by decide
theorem witness_fences :
    ws.issues 0 = true ∧ (ws.hand 0).posted = [] ∧ (ws.hand 0).level % 2 = 1 ∧ wu.issues 0 = true ∧
      (wu.hand 0).level % 2 = 0 := by decide

/-- A descriptor that calls Verb 0 of Almanac 1 on core 0 of this device. -/
def raw : List Byte := List.replicate 64 0

/-- Hand 0 runs errand 3 of ring 0. -/
def running : State := { one { wsHand with errand := some 3, regs := [(1, 0x80), (2, 7)] } with
  steward := { dev.steward with errands := [(3, { src := .ring 0, raw := raw, phase := .placed 0, dtag := some 9 })], nextErrand := 4 } }

theorem witness_done_ends :
    running.issues 0 = true ∧ (running.hand 0).errand = some 3 ∧
      (running.errand? 3).map Errand.phase = some (.placed 0) := by decide
theorem witness_done_without_errand : ws.issues 0 = true ∧ (ws.hand 0).errand = none := by decide

/-- Hand 0 with a latched TIMER event, and with a running timer. -/
def waits : State := one { wsHand with regs := [(2, 4)], timerEvents := 3 }
def waitsTimer : State := one { wsHand with regs := [(2, 4)], htRun := true, htCount := 9 }
def waitsNone : State := one { wsHand with regs := [(2, 4)] }

theorem witness_yield : ws.issues 0 = true := by decide
theorem witness_wait_latched :
    waits.issues 0 = true ∧ waitSel (waits.rg 0 2) = some .timer ∧
      (waits.hand 0).latched .timer = some 0x800000003#36 := by decide
theorem witness_wait_nothing :
    waitsNone.issues 0 = true ∧ waitSel (waitsNone.rg 0 2) = some .timer ∧
      (waitsNone.hand 0).latched .timer = none ∧ waitsNone.outstanding 0 .timer = false := by decide
theorem witness_wait_blocks :
    waitsTimer.issues 0 = true ∧ waitSel (waitsTimer.rg 0 2) = some .timer ∧
      (waitsTimer.hand 0).latched .timer = none ∧ waitsTimer.outstanding 0 .timer = true := by decide

/-- `ws` under a debug session with HALT_WARDEN. -/
def debugged : State := { ws with life := { ws.life with session := .opened, rights := 0x3FF } }
/-- Hand 0 at CS with a saved status of a user level, and with a forged one. -/
def csSaved : State := one { csHand with eraC := 44, estC := 0x100000001#36, gc := true, gw := true }
def csForged : State := one { csHand with eraC := 44, estC := 0x800000001#36, gc := true }
/-- Hand 0 at WS with a saved status. -/
def wsSaved : State := one { wsHand with eraW := 44, estW := 0x540000001#36, gw := true, gc := true }

theorem witness_syscall : ws.issues 0 = true := by decide
theorem witness_brk_halts :
    debugged.issues 0 = true ∧ debugged.mayHalt ((debugged.hand 0).st.getLsbD 35) = true := by decide
theorem witness_brk_traps : ws.issues 0 = true ∧ ws.mayHalt ((ws.hand 0).st.getLsbD 35) = false := by decide
theorem witness_eret_warden : wsSaved.issues 0 = true ∧ (wsSaved.hand 0).level = 3 := by decide
theorem witness_eret_common :
    csSaved.issues 0 = true ∧ (csSaved.hand 0).level = 1 ∧ (csSaved.hand 0).estC.getLsbD 35 = false := by decide
theorem witness_eret_forged :
    csForged.issues 0 = true ∧ (csForged.hand 0).level = 1 ∧ (csForged.hand 0).estC.getLsbD 35 = true := by decide
theorem witness_eret_user :
    wu.issues 0 = true ∧ (wu.hand 0).level = 2 ∧ cu.issues 0 = true ∧ (cu.hand 0).level = 0 := by decide
theorem witness_entry_ws :
    ws.goesToWs 0 2 = true ∧ (ws.hand 0).gw = false ∧ cs.goesToWs 0 12 = true ∧ (cs.hand 0).gw = false ∧
      (cs.hand 0).delay = none := by decide
theorem witness_entry_cs : cs.goesToWs 0 2 = false ∧ (cs.hand 0).gc = false ∧ cs.goesToWs 0 31 = false := by decide
theorem witness_nest_fault :
    csForged.goesToWs 0 2 = false ∧ (csForged.hand 0).gc = true ∧ (csForged.hand 0).gw = false := by decide
/-- `running` with the WS guard set. -/
def guarded : State := { running with hands := [(0, { running.hand 0 with gw := true })] }
theorem witness_hand_fault :
    guarded.goesToWs 0 2 = true ∧ (guarded.hand 0).gw = true ∧ (guarded.hand 0).errand = some 3 ∧
      (guarded.errand? 3).map Errand.phase = some (.placed 0) := by decide

/-- Hand 0 with interrupts enabled, source 5 routed to it and pending. -/
def interrupted : State := { one { wsHand with st := 0x200000000#36 } with
  cores := [(0, { icPend := 0x20, icRoute := [(5, 1)] })] }
def timedOut : State := one { wsHand with st := 0x200000000#36, htInten := true, htExpired := true }
def impreciseNow : State := one { wsHand with imp := some { cause := 8, addr := 50, left := 0 } }
theorem witness_interrupt_ws :
    interrupted.atBoundary 0 = true ∧ interrupted.impreciseDue 0 = false ∧
      interrupted.wsTakeable 0 = some 5 := by decide
/-- A timer due on a Hand of a Common errand, which goes to CS. -/
def timedOutCs : State := { timedOut with
  hands := [(0, { timedOut.hand 0 with errand := some 3 })]
  steward := { dev.steward with
    errands := [(3, { src := .ring 0, raw := raw.set 0 0, phase := .placed 0, dtag := some 9 })], nextErrand := 4 } }
theorem witness_interrupt_timer :
    timedOutCs.atBoundary 0 = true ∧ timedOutCs.impreciseDue 0 = false ∧ timedOutCs.wsTakeable 0 = none ∧
      timedOutCs.csTakeable 0 = some 0 := by decide
theorem witness_imprecise_due :
    impreciseNow.atBoundary 0 = true ∧ impreciseNow.impreciseDue 0 = true ∧
      (impreciseNow.hand 0).imp = some { cause := 8, addr := 50, left := 0 } := by decide
theorem witness_timer_runs : (waitsTimer.hand 0).htRun = true ∧ (waitsTimer.hand 0).htCount ≠ 0 := by decide
/-- Hand 0 at WS with IO addresses in w1 (HT_COUNT), w2 (170000q) and w3 (VEC_C). -/
def io : State := one { wsHand with regs := [(1, 64), (2, 0xF000), (3, 8)], htCount := 55 }
theorem witness_in_core_local :
    io.permits 0 64 false 0 ∧ io.permits 0 8 true 3 ∧ (coreLocalReg io 0 64).map IoReg.readLv = some 0 ∧
      (coreLocalReg io 0 64).map IoReg.value = some 55 ∧ (coreLocalReg io 0 8).map IoReg.writeLv = some 3 ∧
      io.cascade.rwait = none ∧ (io.rg 0 3 + (0#18).zeroExtend 36).toNat = 8 := by
  unfold State.permits
  decide
theorem witness_in_and_out :
    io.issues 0 = true ∧ (io.rg 0 1 + (0#18).zeroExtend 36).toNat < 0xF000 ∧ ioNeed io 0 64 false = some 0 ∧
      io.permits 0 64 false 0 ∧ 0xF000 ≤ (io.rg 0 2 + (0#18).zeroExtend 36).toNat := by
  unfold State.permits
  decide
theorem witness_in_reads :
    ioRead 0 64 io = .done 55 io :=
  rfl
theorem witness_out_writes :
    ∃ t, ioAccess 0 8 (some 64) io = .done 0 t :=
  ⟨_, rfl⟩
theorem witness_core_local :
    ws.cascade.rwait = none ∧ ws.permits 0 64 true 0 ∧ ws.permits 0 65 true 0 ∧ ws.permits 0 8 true 3 ∧
      ws.permits 0 9 true 3 := by
  unfold State.permits
  and_intros <;> decide
theorem witness_core_local_acu :
    ws.permits 0 129 true 3 ∧ ws.permits 0 320 true 3 ∧ ws.permits 0 328 true 3 ∧ ws.permits 0 336 true 3 := by
  unfold State.permits
  and_intros <;> decide
/-- The core ACU lets every level read and write. -/
def openAcu : Acu := { rules := { ctrl := 0x1020FF#36 }, old := { ctrl := 0x1020FF#36 } }
/-- Hand 0 at CS behind an ACU that allows everything. -/
def csOpen : State := { cs with cores := [(0, { acu := openAcu })] }
theorem witness_privileged :
    csOpen.power.state = .run ∧ csOpen.boundary 0 = none ∧ (csOpen.hand 0).imp = none ∧
      (csOpen.hand 0).state = .running ∧ (csOpen.frozen 0 && !csOpen.thawed 0) = false ∧
      (csOpen.hand 0).level ≠ 3 ∧ (csOpen.acuView 0).2 = csOpen ∧
      csOpen.acuCheck (csOpen.acuView 0).1 0 (handAccessor 0 (csOpen.hand 0)) { io := true, addr := 0xC001, start := 0xC001, write := true } = (true, csOpen) ∧ csOpen.acuCheck (csOpen.acuView 0).1 0 (handAccessor 0 (csOpen.hand 0)) { io := true, addr := 129, start := 129, write := true } = (true, csOpen) := by decide


/-! ### The host link and the rings -/

def devD3 : State := { dev with link := { dev.link with d3hot := true } }
def devRetry : State := { dev with link := { dev.link with fwReady := false } }
def devFlit : State := { dev with link := { dev.link with flitMode := true } }
def devBusy : State := { dev with steward := running.steward }

theorem witness_link_up :
    dev.linkAwake = true ∧ devD3.linkAwake = true ∧ devFlit.linkAwake = true ∧ devRetry.linkAwake = true ∧
      dev.link.perst = false ∧ dev.startup.inReset = false ∧ dev.link.dlUp = true ∧ dev.link.fwReady = true ∧
      dev.link.d3hot = false ∧ dev.steward.errands = [] ∧ dev.link.ideSecure = false ∧
      devRetry.link.fwReady = false ∧ devRetry.link.retryEnded = false ∧ devRetry.link.dlUp = true ∧
      devD3.link.d3hot = true ∧ devBusy.steward.errands ≠ [] ∧ dev.link.flitMode = false ∧
      devFlit.link.flitMode = true := by decide
theorem witness_link_partners :
    highest (openRates 0x7F true) = some 6 ∧ highest (openRates 0x7F false) = some 4 ∧
      highest (0x1F#5) = some 4 ∧ highest (1#5) = some 0 := by decide
/-- PTM enabled and a request outstanding, before and after the first exchange. -/
def ptm : State := { dev with link := { dev.link with ptmEnable := true, ptmPending := true, tally := 5 } }
def ptmLater : State := { ptm with link := { ptm.link with ptmDone := true } }
theorem witness_ptm :
    ptm.link.dlUp = true ∧ ptm.link.ptmEnable = true ∧ ptm.link.ptmAlign = true ∧ ptm.link.ptmPending = true ∧
      ptm.link.ptmDone = false ∧ ptm.link.tally < 100 / 10 ∧ keysWf ptm.steward.contracts = true ∧
      ptmLater.link.ptmDone = true := by decide
theorem witness_ptm_unbound :
    ∀ n, (ptm.contract n).bound = false :=
  fun _ => rfl
/-- A masked vector with its message pending. -/
def masked : State := { dev with link := { dev.link with msixEnable := true, msix := [(256, { pending := true })] } }
theorem witness_link_requests :
    dev.hostOk ∧ (7#64).toNat < 8 ∧ dev.hostReach = true ∧ masked.hostReach = true ∧
      (aget {} masked.link.msix 256).pending = true ∧ masked.link.dmaOk = true ∧ masked.link.msixEnable = true ∧
      masked.link.msixMask = false ∧ keysWf masked.link.msix = true ∧
      (aget {} dev.link.msix 256).pending = false ∧ dev.link.cplTimeout ≠ .disabled ∧
      devRetry.link.fwReady = false := by
  unfold State.hostOk
  decide

/-! ### Resets -/

theorem witness_resets :
    dev.cascade.master = true ∧ dev.watch.mainDark = false ∧ dev.link.dlUp = true ∧ devD3.link.d3hot = true ∧
      devD3.cascade.master = true ∧ dev.awake ∧ dev.power.state ≠ .dormant ∧ ws.permits 0 0xE041 true 3 := by
  unfold State.permits State.awake
  decide
/-- Recovery done. -/
def recovered : State := { dev with startup := { dev.startup with rcvState := 2 } }
theorem witness_recovery_done : recovered.startup.rcvState = 2 := by decide

/-! ### Rings -/

/-- Ring 1 disabled with its registers written; with its CQ active; with both active. -/
def ringOff : State := { dev with rings := [(1, { sqBase := 4096, cqBase := 8192, sqDepth := 16, cqDepth := 16 })] }
def ringCq : State := { dev with
  rings := [(1, { sqBase := 4096, cqBase := 8192, sqDepth := 16, cqDepth := 16, cqEn := true, cqState := .active, cqSel := 1 })] }
def ringOn : State := { dev with
  rings := [(1, { sqBase := 4096, cqBase := 8192, sqDepth := 16, cqDepth := 16, cqEn := true, cqState := .active, cqSel := 1
                  sqEn := true, sqState := .active, sqTail := 3 })] }
def ringResetting : State := { dev with
  rings := [(1, { (ringOn.ring 1) with sqState := .resetting, cqState := .resetting })] }
theorem witness_ring_setup :
    ringOff.hostOk ∧ (ringOff.ring 1).sqState = .disabled ∧ (ringOff.ring 1).inFlight = 0 ∧
      (ringOff.ring 1).cqState = .disabled ∧ (ringOff.ring 1).cqEn = false ∧ (ringOff.ring 1).sqEn = false ∧
      (0x1000000010000#64) &&& 0xFFFE0000FFFE0000#64 = 0 ∧ (ringOff.ring 1).cqBase.toNat % 64 = 0 ∧
      depthOk (ringOff.ring 1).cqDepth = true := by
  unfold State.hostOk
  decide
theorem witness_ring_enable_sq :
    ringCq.hostOk ∧ (ringCq.ring 1).cqState = .active ∧ (ringCq.ring 1).cqEn = true ∧
      (ringCq.ring 1).sqState = .disabled ∧ (ringCq.ring 1).sqEn = false ∧ (ringCq.ring 1).inFlight = 0 ∧
      (ringCq.ring 1).sqBase.toNat % 64 = 0 ∧ depthOk (ringCq.ring 1).sqDepth = true := by
  unfold State.hostOk
  decide
theorem witness_ring_reset :
    ringOn.hostOk ∧ (ringOn.ring 1).reads = [] ∧ (∀ kv, kv ∈ ringOn.steward.errands → kv.2.src ≠ .ring 1) ∧
      ringCq.cqInUse 1 = false ∧ (ringCq.ring 1).cqState = .active ∧
      (ringResetting.ring 1).sqState = .resetting ∧ (ringResetting.ring 1).cqState = .resetting :=
  by unfold State.hostOk; decide +kernel
/-- The IDE rule in force with no Secure stream. -/
def devIde : State := { dev with link := { dev.link with ideRequired := true } }
theorem witness_doorbells :
    ringOn.hostOk ∧ ringOn.doorbellDead (ringOn.ring 1).sqState = false ∧
      (15#16).toNat < (ringOn.ring 1).sqDepth ∧ (ringOn.ring 1).sqState = .active ∧
      (ringOn.ring 1).sqDepth ≤ (16#16).toNat ∧ ringOn.doorbellDead (ringOn.ring 1).cqState = false ∧
      (15#16).toNat < (ringOn.ring 1).cqDepth := by
  unfold State.hostOk
  decide
theorem witness_bar_writes :
    ws.permits 0 0xB002 true 3 ∧ ws.cascade.rwait = none ∧ ringOn.hostReach = true ∧
      ringOn.link.ideRefuses false = false ∧ barSizeOk (7 % 65536) 3 = false ∧
      barSizeOk (0xA010 % 65536) 8 = true ∧ (0xFFFFFFFF#64).getLsbD 32 = false ∧
      (0xFFFFFFFF#64).getLsbD 33 = false ∧ (0xFFFFFFFF#64).toNat < 2 ^ 34 ∧ devIde.hostReach = true ∧
      devIde.link.ideRefuses false = true := by
  unfold State.permits
  decide
/-- Ring 1 with one descriptor read outstanding. -/
def ringRead : State := { dev with
  rings := [(1, { (ringOn.ring 1) with reads := [{ id := 4, first := 0, count := 1, cq := 1 }], sqFetch := 1 })] }
theorem witness_descriptor_fetch :
    ringOn.mayFetch = true ∧ ringOn.nextSq = some (1, false) ∧ ((ringRead.ring 1).reads.map FetchRead.id) = [4] ∧
      (ringRead.ring 1).reads.all (fun r => r.data.isNone && r.count == 1) = true ∧
      ringRead.cascade.master = true ∧ [raw].length = 1 := by decide


/-! ### Errands, grants and contracts -/

/-- A Verb of a Common Almanac 1, entered at word 5 of its image. -/
def verb : VerbDecl :=
  { precise := true, host := true, entry := 5, coreNs := 1000, workspace := 100, argWords := 8, laneBytes := 4096
    rbKib := 8, apertures := 2, storeMisses := 4, pk5 := (0, 0, 0), pk6 := (0, 0, 0) }
def almanac : Almanac := { warden := false, name := 0, version := 0, verbs := [verb], size := 64, image := [] }

/-- A descriptor that calls Verb 0 of Almanac 1 on core 0, with a buffer 0 of 8 octets to read. -/
def call : List Byte := ((raw.set 4 1).set 9 0x30).set 0x30 8 |>.set 0x33 4
def waitingCall : Errand := { src := .ring 1, raw := call, dtag := some 9 }
/-- The device with that Almanac on core 0 and errand 3 of ring 1 waiting. -/
def placing : State := { dev with
  steward := { dev.steward with
    almanacs := [(1, almanac)]
    errands := [(3, waitingCall)]
    nextErrand := 4 }
  cores := [(0, { regions := [{ base := 64, size := 64, kind := .almanac 1 }] })] }

theorem witness_placeable :
    placing.firstPlaceable = some 3 ∧ placing.placeable waitingCall = some (verb, 0) ∧
      placing.errand? 3 = some waitingCall ∧ (∀ kv,
      kv ∈ placing.steward.errands → placing.mustLeave kv.2 = false) ∧ waitingCall.wantsBuf0 = true ∧
      placing.dmaReady = true :=
  by decide +kernel

/-- Errand 3 placed on Hand 0, which waits for buffer 0; and run by it. -/
def placed : State := { placing with
  hands := [(0, { state := .loading, errand := some 3, wsBase := 0, wsSize := 1024, argWords := 8, scrW := 6, regs := [(4, 4)] })]
  steward := { placing.steward with
    errands := [(3, { src := .ring 1, raw := call, dtag := some 9, phase := .placed 0, deadline := some 50, cq := 1 })] } }

/-- The same call with a page of a share that is CLOSED as its Store page. -/
def closedPage : State := { placed with
  store := { dev.store with pages := 10, map := [(0, { valid := true, count := 10, path := 0x1000 })] }
  steward := { placed.steward with
    errands := [(3, { src := .ring 1, raw := (call.set 0x13 0x80), dtag := some 9, phase := .placed 0, cq := 1 })] } }
theorem witness_errand_start_judged :
    (placed.errandOf 0).map (fun y => y.2.phase) = some (.placed 0) ∧
      ((placed.errandOf 0).bind fun y => placed.startRefusal y.2 (some (List.replicate 8 1))) = none := by decide
theorem witness_errand_start :
    (placed.hand 0).state = .loading ∧ (placed.errandOf 0).isSome = true ∧ placed.verbOf 0 = some verb ∧
      placed.almanacOf 0 = some almanac ∧ bufDir call 0 ≠ 0 ∧ bufLen call 0 ≠ 0 := by decide

/-- Errand 3 of ring 1 ended on Hand 0, its CQ active at the last entry. -/
def ended : State := { placed with
  hands := [(0, { placed.hand 0 with state := .releasing })]
  rings := [(1, { (ringOn.ring 1) with cqTail := 15 })]
  steward := { placed.steward with
    errands := [(3, { src := .ring 1, raw := call, dtag := some 9, phase := .ending (some 0), cq := 1, done := true })] } }

theorem witness_completion :
    (ended.errand? 3).map ended.mayReport = some true ∧
      (ended.errand? 3).map Errand.phase = some (.ending (some 0)) ∧ ended.engineIdle 0 = true ∧
      ended.link.dmaOk = true ∧ (ended.errand? 3).map Errand.dropped = some false ∧
      (ended.ring 1).cqState = .active ∧ 2 ≤ (ended.ring 1).cqDepth := by decide

/-- A LOAD, an UNLOAD of Almanac 1 and a CHECKPOINT of ring 1, in the Steward's service. -/
def served (kind : Byte) : State := { placing with
  steward := { placing.steward with
    errands := [(3, { src := .ring 1, raw := call.set 3 kind, dtag := some 9, phase := .service })] } }
/-- The CHECKPOINT with the Store OPEN. -/
def servedOpen : State := { served 1 with store := { dev.store with state := .opened } }

theorem witness_load_refused :
    ((served 2).errand? 3).map Errand.phase = some .service ∧ descKind (call.set 3 2) = 2 ∧
      (served 2).joinUnderWay = false := by decide
theorem witness_load_bad_image :
    (served 2).checkImage (bufPack (call.set 3 2) 1) (bufLen (call.set 3 2) 1) (padTo 0 (([] : List Byte).take 0)) = .error (0x0C, 0xFFFFFFFF) :=
  rfl
/-- The words of a Common image with one Verb and six words of code, its signature last, and the key that made it. -/
def imageOf : List Word :=
  [0x361B8C26D, 0x40000001, 6, 0, 0x53, 0, 0x728F0B1F7, 0, 0xC00000005, 0x3E8, 0x1900008, 0x1000, 0x8040004, 0,
   0, 0, 0, 0, 0, 0, 0, 0]
  ++
  [0xAA87CA22, 0xBE8B0537, 0x8EB1C71E, 0xF320AD74, 0x6E1D3B62, 0x8BA79B98, 0x59F741E0, 0x82542A38, 0x5502F25D,
   0xBF55296C, 0x3A545E38, 0x72760AB7, 0x60BD547B, 0x6ABC2CF6, 0xE7A1B0E1, 0x60591ED8, 0xCDE21968, 0x7FA905BC,
   0xC57A2DBB, 0xAED9E8C3, 0x84DAEE9, 0xC01791E6, 0xA75BE8D4, 0xBAC0F768]
def codeSlot : KeyObj := { attr := 0x2D880000, material := [2], pub :=
    [8, 0xD9, 0x99, 5, 0x7B, 0xA3, 0xD2, 0xD9, 0x69, 0x26, 0, 0x45, 0xC5, 0x5B, 0x97, 0xF0, 0x89, 2, 0x59, 0x59,
     0xA6, 0xF4, 0x34, 0xD6, 0x51, 0xD2, 7, 0xD1, 0x9F, 0xB9, 0x6E, 0x9E, 0x4F, 0xE0, 0xE8, 0x6E, 0xBE, 0xE,
     0x64, 0xF8, 0x5B, 0x96, 0xA9, 0xC7, 0x52, 0x95, 0xDF, 0x61]
    ++
    [0x8E, 0x80, 0xF1, 0xFA, 0x5B, 0x1B, 0x3C, 0xED, 0xB7, 0xBF, 0xE8, 0xDF, 0xFD, 0x6D, 0xBA, 0x74, 0xB2, 0x75,
     0xD8, 0x75, 0xBC, 0x6C, 0xC4, 0x3E, 0x90, 0x4E, 0x50, 0x5F, 0x25, 0x6A, 0xB4, 0x25, 0x5F, 0xFD, 0x43, 0xE9,
     0x4D, 0x39, 0xE2, 0x2D, 0x61, 0x50, 0x1E, 0x70, 0xA, 0x94, 0xE, 0x80] }
def loadCall : List Byte := (((call.set 3 2).set 0x34 0x70).set 0x35 1).set 0x37 6
/-- The LOAD of that image onto core 0, with room; the core full; a member with room below port 1, for a whole device. -/
def loading : State := { placing with
  vault := { dev.vault with slots := [(5, codeSlot)] }
  steward := { placing.steward with
    errands := [(3, { src := .ring 1, raw := loadCall, dtag := some 9, phase := .service })], nextAlmanac := 2 } }
def loadingFull : State := { loading with cores := [(0, { regions := [{ base := 0, size := 65536, kind := .almanac 1 }] })] }
def loadingDown : State := { loading with
  cascade := { loading.cascade with
    entries := [(1, { state := .present, path := 0x200001000, cores := 128 })] }
  steward := { loading.steward with
    errands := [(3, { src := .ring 1, raw := loadCall.set 9 0, dtag := some 9, phase := .service })] } }
theorem image_words : imageWords (padTo 368 ((packOut .raw36 imageOf 368).take 368)) = imageOf := by decide +kernel
theorem image_shape : imageFault 2 368 imageOf = none := by decide +kernel
theorem image_key : loading.codeKey (imageOf.getD 6 0) (bitOf (imageOf.getD 1 0).toNat 29) = some codeSlot := by
  decide +kernel
/-- The image checks, given that its signature verifies: the kernel's own evaluation of that takes minutes, so it
stands as the premise `hs`. -/
theorem witness_load_good_image
    (hs : ecVerify p384 codeSlot.pub (sha384 (words40 (imageOf.take 22))) (packOut .loose (imageOf.drop 22) 96) = true) :
    ∃ a code relocs, loading.checkImage (bufPack loadCall 1) (bufLen loadCall 1)
      (padTo (bufLen loadCall 1) ((packOut .raw36 imageOf 368).take (bufLen loadCall 1))) = .ok (a, code, relocs) := by
  have hl : bufLen loadCall 1 = 368 := by decide
  have hp : bufPack loadCall 1 = 2 := by decide
  have h22 : (shapeOf imageOf).sig = 22 := by decide +kernel
  rw [hl, hp]
  unfold State.checkImage
  simp only [image_words, image_shape, image_key, h22, hs]
  exact ⟨_, _, _, rfl⟩
theorem witness_load_conditions :
    (loading.errand? 3).map Errand.phase = some .service ∧ ((loading.errand? 3).bind Errand.dtag).isSome = true ∧
      (loading.errand? 3).map Errand.awaits = some [] ∧ descKind loadCall = 2 ∧ loading.joinUnderWay = false ∧
      loading.loadUnderWay = false ∧ loading.dmaReady = true ∧ loading.cascade.master = true ∧
      loading.steward.nextAlmanac ≤ 65535 ∧ loading.membersIn (descTarget loadCall) = [] ∧
      loadingFull.membersIn (descTarget loadCall) = [] ∧
      loadingFull.noRoomHere (descTarget loadCall) 6 = some 0 := by decide
theorem witness_load_room :
    (∀ c, c ∈ loading.coresIn (descTarget loadCall) → loading.inService c = true → ((loading.core c).imageGap 6).isSome = true) ∧ (∀ c, c ∈ loadingDown.coresIn (descTarget (loadCall.set 9 0)) → loadingDown.inService c = true → ((loadingDown.core c).imageGap 6).isSome = true) ∧ loadingDown.membersIn (descTarget (loadCall.set 9 0)) ≠ [] :=
  by decide +kernel
/-- The UNLOAD with Almanac 1 on that member too. -/
def unloadingDown : State := { served 3 with
  cascade := loadingDown.cascade
  steward := { (served 3).steward with almanacs := [(1, { almanac with devices := [0x200001000] })] } }
theorem witness_unload_member :
    unloadingDown.cascade.master = true ∧ unloadingDown.holders 1 ≠ [] ∧ unloadingDown.earlierUsers 3 1 = false ∧
      (served 3).holders 1 = [] ∧
      ((served 3).errand? 3).map (fun y => (y.dtag, y.awaits, y.ckWait)) = some (some 9, [], none) := by decide
theorem witness_unload :
    descKind (call.set 3 3) = 3 ∧ (served 3).joinUnderWay = false ∧
      afind (served 3).steward.almanacs (descAlmanac (call.set 3 3)) = some almanac ∧
      (served 3).earlierUsers 3 1 = false := by decide
theorem witness_checkpoint_errand :
    descKind (call.set 3 1) = 1 ∧ (served 1).store.state = .closed ∧ servedOpen.store.state = .opened := by decide
theorem witness_internal_errand :
    ws.permits 0 0x1050 true 3 ∧ ws.internalLoad < 256 ∧ ws.permits 0 0x105F false 3 := by
  unfold State.permits
  decide
/-- 256 internal completions wait. -/
def internalFull : State := { ws with steward := { ws.steward with icpl := List.replicate 256 [] } }
theorem witness_internal_full :
    internalFull.permits 0 0x1050 true 3 :=
  by unfold State.permits; decide +kernel
theorem witness_internal_full_load :
    256 ≤ internalFull.internalLoad :=
  by decide +kernel

/-! ### Grants -/

/-- Hand 0 runs errand 3 at WS; every lane is held; lane 2 holds Hand 0's grant. -/
def granting : State := { placed with
  hands := [(0, { placed.hand 0 with state := .running, boot := true, st := 0xC00000000#36 })] }
def lanesFull : State := { granting with lanes := (List.range 16).map fun i => (i, { holder := some 9 }) }
def holding : State := { granting with
  hands := [(0, { granting.hand 0 with
    laneHeld := true, lane := some 2, sliceHeld := true, slice := some 1, sliceMac := true, rbBase := some 0, rbGranules := 2
    drbg := some 7 })]
  lanes := [(2, { holder := some 0 })]
  slices := [(1, { holder := some 0 })]
  entropy := { dev.entropy with drbgs := [(7, { live := true })] } }

theorem witness_grant_refused : ws.refuseReason 0 1 0 = some 3 ∧ holding.refuseReason 0 1 0 = some 2 := by decide
theorem witness_grant_given_nobody_waits : ∀ k, granting.waitsFor k 1 = false := by
  intro k
  by_cases h : 0 = k
  · subst h; decide
  · simp [State.waitsFor, State.restoreWaits, State.hand, granting, aget, afind, h]
theorem witness_grant_given :
    granting.refuseReason 0 1 0 = none ∧ granting.refuseReason 0 4 8 = none ∧ granting.verbOf 0 = some verb ∧
      (granting.hand 0).rbUsed + 8 ≤ verb.rbKib ∧ (granting.unitFor 0 1 0).isSome ∧
      (granting.unitFor 0 4 2).isSome ∧ granting.permits 0 0x1000 true 0 :=
  by unfold State.permits; decide +kernel
theorem witness_grant_waits :
    lanesFull.refuseReason 0 1 0 = none ∧ lanesFull.unitFor 0 1 0 = none ∧ lanesFull.permits 0 0x1000 true 0 := by
  unfold State.permits
  decide
theorem witness_release :
    holding.permits 0 0x1001 true 0 ∧ (holding.hand 0).errand ≠ none ∧ holding.laneBusy 0 = false ∧
      holding.sliceBusy 0 = false ∧ (holding.hand 0).laneHeld = true ∧ (holding.hand 0).lane = some 2 := by
  unfold State.permits
  decide
/-- Hand 0 waits for a lane and one is free. -/
def asking : State := { granting with hands := [(0, { granting.hand 0 with request := some (1, 0) })] }
theorem witness_grant_deliver :
    kindIn .lane 1 = true ∧ kindIn .slice 3 = true ∧ kindIn .slice 2 = true ∧ asking.firstWaiting 1 = some 0 ∧
      (asking.hand 0).request = some (1, 0) ∧ (asking.unitFor 0 1 0).isSome = true := by decide
/-- `holding` in LIMP, where the engines' second units are without power. -/
def trimmed : State := { holding with
  power := { dev.power with gov := .limp }
  lanes := (List.range 16).map fun i => (i, { holder := some 0 })
  slices := (List.range 16).map fun i => (i, { holder := some 0 }) }
theorem witness_handback :
    (trimmed.lane 1).maySave = true ∧ (trimmed.lane 1).holder = some 0 ∧ trimmed.laneTrimmed 1 = true ∧
      (trimmed.slice 9).holder = some 0 ∧ (trimmed.slice 9).regs.op = none ∧
      trimmed.sliceTrimmed 9 = true := by decide
/-- Hand 0 waits for a lane that was taken from it; and for a slice. -/
def tookLane : State := { granting with
  hands := [(0, { granting.hand 0 with laneHeld := true, state := .blocked (.unit false) })]
  savedLanes := [(0, {})] }
def tookSlice : State := { granting with
  hands := [(0, { granting.hand 0 with sliceHeld := true, sliceMac := true, state := .blocked (.unit true) })]
  savedSlices := [(0, {})] }
theorem witness_handback_restore :
    (tookLane.hand 0).laneHeld = true ∧ (tookLane.hand 0).lane = none ∧
      (tookLane.hand 0).state = .blocked (.unit false) ∧ (tookLane.hand 0).request = none ∧
      tookLane.firstWaiting 1 = some 0 ∧ (tookLane.unitFor 0 1 0).isSome = true ∧
      afind tookLane.savedLanes 0 = some {} ∧ (tookSlice.hand 0).sliceHeld = true ∧
      (tookSlice.hand 0).slice = none ∧ (tookSlice.hand 0).state = .blocked (.unit true) ∧
      (tookSlice.hand 0).sliceMac = true ∧ (tookSlice.hand 0).request = none ∧
      tookSlice.firstWaiting 3 = some 0 ∧ (tookSlice.unitFor 0 3 0).isSome = true ∧
      afind tookSlice.savedSlices 0 = some {} := by decide
/-- Slice 0 is to become a sequencer slice. -/
def modeAsked : State := { dev with steward := { dev.steward with sliceMode := 1 } }
theorem witness_slice_mode :
    ws.permits 0 0x1009 true 3 ∧ (modeAsked.slice 0).holder = none ∧ (modeAsked.slice 0).regs.op = none ∧
      (modeAsked.slice 0).seqMode ≠ modeAsked.steward.sliceMode.getLsbD 0 := by
  unfold State.permits
  decide

/-! ### The Steward's stops and contracts -/

/-- Core 0's watchdog runs. -/
def watched : State := { ws with cores := [(0, { period := 5 })] }
/-- Errand 3's deadline, 50, has passed. -/
def lateErrand : State := { granting with link := { granting.link with tally := 51 } }
theorem witness_steward_stops :
    (granting.hand 0).errand = some 3 ∧ (granting.hand 0).state = .running ∧
      (granting.errand? 3).map Errand.phase = some (.placed 0) ∧ granting.permits 0 0x1008 true 3 ∧
      ((granting.steward.errands.find? fun kv => decide (kv.2.dtag = some (9#12).toNat)).map (·.1)) = some 3 ∧
      granting.permits 0 0x10FF true 3 ∧ watched.watchdogCounts 0 = true ∧
      (lateErrand.errand? 3).map Errand.phase = some (.placed 0) ∧
      ((lateErrand.errand? 3).bind Errand.deadline) = some 50 ∧ 50 < lateErrand.link.tally ∧
      (lateErrand.hand 0).state = .running := by
  unfold State.permits
  decide

/-- A contract on Verb 0 of Almanac 1 for the whole device is staged; with room in time and without. -/
def offered : State := { placing with steward := { placing.steward with
  ctTarget := 0x1000, ctShape := 0x100000001, ctDeadline := 1000000, ctVerb := [(0, 0x8000000000010000)] } }
def tight : State := { offered with steward := { offered.steward with ctDeadline := 100 } }
/-- The staged contract in force for ring 2, ADMITTED; and AT_RISK with cause 2. -/
def bound : State := { offered with steward := { offered.steward with
  contracts := [(2, { offered.stagedContract with serial := 1, fill := 100000000, state := .admitted })] } }
def atRisk : State := { offered with steward := { offered.steward with
  contracts := [(2, { offered.stagedContract with serial := 1, fill := 100000000, state := .atRisk, cause := 2 })] } }
/-- A contract command is under way. -/
def ctRunning : State := { offered with steward := { offered.steward with ctBusy := some (1, 3) } }
/-- `bound` for the whole tree, with a member below port 1. -/
def boundMember : State := { bound with
  steward := { bound.steward with contracts := [(2, { bound.contract 2 with target := 0 })] }
  cascade := { bound.cascade with
  entries := [(1, { state := .present, path := 0x200001000, gov := 1, cores := 128, lanes := 16, seqSlices := 8, macSlices := 8, frames := 16000 })] } }
theorem witness_contracts_member :
    keysWf boundMember.steward.contracts = true ∧ boundMember.memberPresent 0x200001000 = true ∧
      (boundMember.contract 2).state = .admitted := by decide
theorem witness_contracts :
    offered.hostOk ∧ offered.steward.ctBusy = none ∧ ctRunning.hostOk ∧ ctRunning.steward.ctBusy.isSome = true ∧
      dev.badContract dev.stagedContract = true ∧ offered.badContract offered.stagedContract = false := by
  unfold State.hostOk
  decide
theorem witness_contracts_tests :
    offered.admissionTest (2, offered.stagedContract) (offered.boundContracts 2) = none ∧
      (tight.admissionTest (2, tight.stagedContract) (tight.boundContracts 2)).isSome ∧
      keysWf bound.steward.contracts = true ∧ (bound.contract 2).state = .admitted ∧
      bound.poolsOn (bound.contract 2) bound.devicePath = true ∧ atRisk.steward.contracts = [(2,
      atRisk.contract 2)] ∧ (atRisk.contract 2).state = .atRisk ∧ (atRisk.contract 2).cause = 2 ∧
      atRisk.admissionTest (2, atRisk.contract 2) [] = none :=
  by decide +kernel
theorem witness_contracts_pools :
    boundMember.poolsOn (boundMember.contract 2) 0x200001000 = true :=
  by decide +kernel


/-! ### The Granary and the Store -/

/-- The device with its own share, pages 0 to 99, in an OPEN Store whose first epoch is live: pages 7 (clean), 8
(dirty) and 9 (a Warden page) are resident; page 5 has been written once. -/
def storeOpen : Store := { dev.store with
  state := .opened, own := some 0, pages := 100, map := [(0, { valid := true, count := 100, state := .opened })]
  gen := 1, epoch := 1, treeKey := some (List.replicate 32 1), epochKeys := [(1, List.replicate 32 2)], tokens := 1
  frames := [(7, {}), (8, { dirty := true, words := [(0, 3)] }), (9, { world := some true })]
  nodes := [(nodeKey 1 0, { counters := [0, 0, 0, 0, 0, 2 ^ 40 + 1, 0, 0], dirty := true })] }
def stored : State := { dev with store := storeOpen }

/-- Hand 0 runs errand 3 at WS over that Store, GR_PAGE naming a page; and at CS. -/
def granary (page : Nat) : State := { granting with
  store := storeOpen, hands := [(0, { granting.hand 0 with grPage := page, slots := [(1, { page := 7, readOnly := false, warden := false })] })] }
def granaryCs (page : Nat) : State := { granary page with
  cores := csOpen.cores
  hands := [(0, { (granary page).hand 0 with st := 0x400000000#36 })] }

theorem witness_sopen :
    (granary 7).permits 0 0x6000 true 0 ∧ (granary 7).verbOf 0 = some verb ∧
      ((granary 7).hand 0).slots.length < 2 ∧ afind ((granary 7).hand 0).slots 1 ≠ none ∧
      afind ((granary 7).hand 0).slots 63 = none ∧ (granary 7).sopenPage 0 3 = none ∧
      (granary 100).sopenPage 0 2 = some 100 ∧ (granary 100).standing 100 = .range ∧
      (granaryCs 9).permits 0 0x6000 true 0 ∧ (granaryCs 9).standing 9 = .good ∧
      (afind (granaryCs 9).store.frames 9).map Frame.world = some (some true) ∧
      ((granaryCs 9).hand 0).st.getLsbD 35 = false ∧
      (afind (granaryCs 7).store.frames 7).map Frame.world = some none ∧ (granaryCs 7).permits 0 0x6000 true 0 ∧
      (granary 7).standing 7 = .good ∧ (granary 6).standing 6 = .good ∧ afind (granary 6).store.frames 6 = none ∧
      ((granary 6).errandOf 0).map (fun y => y.2.misses) = some 0 := by
  unfold State.permits
  and_intros <;> decide
theorem witness_sclose : (granary 7).permits 0 0x6001 true 0 := by
  unfold State.permits
  decide
theorem witness_sopen_again :
    (afind (granary 9).store.frames 9).map Frame.world = some (some true) ∧
      ((granary 9).hand 0).st.getLsbD 35 = true ∧ (granary 9).standing 9 = .good := by decide
theorem witness_pin :
    (granary 7).permits 0 0x6008 true 3 ∧ (granary 7).standing 100 ≠ .good ∧ (granary 7).standing 99 = .good ∧
      (granary 7).store.pins.contains 99 = false ∧
      (granary 7).reservedFrames + (granary 7).store.pins.length + 1 ≤ 15872 ∧
      (granary 7).permits 0 0x6009 true 3 :=
  by unfold State.permits; decide

/-- Page 6, never written, asked for by a CS Hand, before its page-in starts and after; page 5 under way. -/
def asked6 : State := { stored with store := { storeOpen with queue := [{ page := 6 }] } }
def under6 : State := { stored with store := { storeOpen with queue := [{ page := 6, started := true }] } }
def under6c : State := { stored with store := { storeOpen with queue := [{ page := 6, started := true, opener := some true }] } }
def under5 : State := { stored with store := { storeOpen with queue := [{ page := 5, started := true }] } }
theorem witness_page_in_start :
    asked6.firstQueued = some { page := 6 } ∧ asked6.store.under < 64 ∧ asked6.store.powerFail = false ∧
      asked6.dmaReady = true ∧ asked6.store.frames.length + asked6.store.under < 16384 :=
  by decide
theorem witness_page_never_written :
    (under6.store.queue.find? fun r => r.page == 6 && r.started) = some { page := 6, started := true } ∧
      (under6.bringNodes (under6.localPage 6) 1 []).2 = .ok ∧
      ((under6.bringNodes (under6.localPage 6) 1 []).1.store.parentCounter 0 6).getD 0 = 0 :=
  by decide +kernel
theorem witness_page_written :
    (under5.store.queue.find? fun r => r.page == 5 && r.started) = some { page := 5, started := true } ∧
      (under5.bringNodes (under5.localPage 5) 1 []).2 = .ok ∧
      ((under5.bringNodes (under5.localPage 5) 1 []).1.store.parentCounter 0 5).getD 0 = 2 ^ 40 + 1 ∧
      afind under5.store.frames 5 = none ∧
      openPage (under5.bringNodes (under5.localPage 5) 1 []).1.store.liveKey 5 (2 ^ 40 + 1) [] = none :=
  by decide +kernel
/-- Page 5 as the host holds it: a ciphertext of zeros, its tag and its trailer. -/
def page5 : List Byte := List.replicate 4032 0#8
  ++ gcmTag (List.replicate 32 2) (pageIv 5 (2 ^ 40 + 1)) (trailerOctets 5 (2 ^ 40 + 1) 1 true) (List.replicate 4032 0#8)
  ++ trailerOctets 5 (2 ^ 40 + 1) 1 true
theorem witness_page_verifies : (openPage under5.store.liveKey 5 (2 ^ 40 + 1) page5).isSome = true :=
  Option.isSome_of_eq_some (openPage_parts under5.store.liveKey 5 (2 ^ 40 + 1) 1 true (List.replicate 32 2) _
    List.length_replicate (by decide +kernel) (by decide) (by decide) (by decide) (by decide) (by decide) (by decide))
theorem witness_write_back :
    stored.mayWriteBack = true ∧ (afind stored.store.frames 8).map Frame.dirty = some true ∧
      (stored.bringNodes (stored.localPage 8) 1 []).2 = .ok ∧
      nextCounter (stored.bringNodes (stored.localPage 8) 1 []).1.store.gen (((stored.bringNodes (stored.localPage 8) 1 []).1.store.parentCounter 0 8).getD 0) = some (2 ^ 40 + 1) ∧ stored.cascade.master = true :=
  by decide +kernel
theorem witness_write_back_node :
    stored.store.nodes.length < 65536 ∧ (afind stored.store.nodes (nodeKey 1 0)).map Node.dirty = some true ∧
      (stored.bringNodes (0 * 8 ^ 1) 2 []).2 = .ok ∧
      nextCounter (stored.bringNodes (0 * 8 ^ 1) 2 []).1.store.gen (((stored.bringNodes (0 * 8 ^ 1) 2 []).1.store.parentCounter 1 0).getD 0) = some (2 ^ 40 + 1) :=
  by decide +kernel
/-- A rotation: epochs 1 and 2 are live and the sweep is at the share's last page. -/
def rotated : State := { stored with store := { storeOpen with
  epoch := 2, prevLive := true, sweepDone := false, sweepNext := 99
  epochKeys := [(1, List.replicate 32 2), (2, List.replicate 32 3)] } }
def sweepAt (q : Nat) : State := { rotated with store := { rotated.store with sweepNext := q } }
def sweepBad : State := { sweepAt 99 with store := { (sweepAt 99).store with quarantine := [99] } }
def sweepRd : State := { sweepAt 5 with store := { (sweepAt 5).store with sweepRead := some (some (2 ^ 40 + 1)) } }
def sweepRes : State := { sweepAt 5 with store := { (sweepAt 5).store with frames := [(5, { world := some true })] } }
theorem witness_sweep :
    rotated.sweepMayRun = true ∧ sweepBad.quarantined 99 = true ∧ rotated.quarantined 99 = false ∧
      (sweepAt 7).store.parentCounter 0 7 = some 0 ∧ (sweepAt 7).quarantined 7 = false ∧
      sweepRd.quarantined 5 = false ∧ sweepRd.store.parentCounter 0 5 = some (2 ^ 40 + 1) ∧
      afind sweepRd.store.frames 5 = none ∧ (sweepAt 5).store.sweepRead = none ∧
      nextCounter sweepRd.store.gen (2 ^ 40 + 1) = some (2 ^ 40 + 2) ∧ sweepRd.cascade.master = true ∧
      sweepRd.store.epoch ≠ 1 := by decide
theorem witness_sweep_reads :
    (sweepRd.bringNodes 5 1 []).2 = .ok ∧
      (sweepRd.bringNodes 5 1 []).1.store.parentCounter 0 5 = some (2 ^ 40 + 1) ∧
      (sweepRes.bringNodes 5 1 []).2 = .ok ∧ (sweepRes.bringNodes 5 1 []).1.store.parentCounter 0 5 ≠ some 0 ∧
      (afind sweepRes.store.frames 5).map Frame.dirty = some false :=
  by decide +kernel
theorem witness_sweep_verifies : (openPage sweepRd.store.liveKey 5 (2 ^ 40 + 1) page5).isSome = true :=
  Option.isSome_of_eq_some (openPage_parts sweepRd.store.liveKey 5 (2 ^ 40 + 1) 1 true (List.replicate 32 2) _
    List.length_replicate (by decide +kernel) (by decide) (by decide) (by decide) (by decide) (by decide) (by decide))
/-- The sweeper's read of a page already under the current epoch; of one that a contract bars from its frame. -/
def sweepOne : State := { sweepRd with store := { sweepRd.store with epoch := 1, prevLive := true } }
def sweepBarred : State := { sweepRd with
  steward := { dev.steward with
    ctMemlat := 699
    errands := [(3, { src := .ring 1, raw := call, dtag := some 9, deadline := some 50, phase := .waiting })] } }
theorem witness_sweep_epochs :
    sweepRd.sweepMayLock = true ∧ sweepBarred.sweepMayLock = false ∧ sweepBarred.sweepMayRun = true ∧
      (sweepBarred.bringNodes 5 1 []).2 = .ok ∧ (sweepOne.bringNodes 5 1 []).1.store.epoch = 1 ∧
      (sweepBarred.bringNodes 5 1 []).1.store.epoch = 2 ∧ (sweepOne.bringNodes 5 1 []).2 = .ok :=
  by decide +kernel
theorem witness_sweep0 :
    rotated.ownShare = some { valid := true, count := 100, state := .opened } ∧ rotated.store.sweepDone = false ∧
      rotated.store.prevLive = true ∧ rotated.mayWriteBack = true := by decide

/-- A CLOSED Store with a good map, and with none. -/
def mapped : State := { dev with store := { dev.store with pages := 100, map := [(0, { valid := true, count := 100, path := 0x1000 })] } }
theorem witness_store_states :
    mapped.hostOk ∧ mapped.store.state = .closed ∧ mapped.store.mapOk = true ∧ dev.store.mapOk = false ∧
      dev.store.state = .closed ∧ (0xFFFFFFFFF#64) &&& 0xFFFFFF1000000000#64 = 0 ∧
      (0xEFFFFFFFFF#64) &&& 0xFFFFFF1000000000#64 = 0 ∧ stored.hostOk ∧ stored.store.state = .opened :=
  by unfold State.hostOk; decide +kernel
theorem witness_store_owner :
    (∃ kv, kv ∈ mapped.store.shares ∧ (mapped.ownDevice kv.2.path || mapped.memberPresent kv.2.path) = true) :=
  ⟨(0, { valid := true, count := 100, path := 0x1000 }), by decide, by decide⟩
/-- This device's share is the last to report, with a FINAL record in flash; a member's share is. -/
def lastRecord : CkRecord :=
  { root := List.replicate 8 0, gen := 1, final := true, prevLive := false, kind := 0, seq := 4, epoch := 1 }
def openingWith (m : Word) : State := { stored with
  store := { storeOpen with
    state := .opening, unreported := [0], frames := [], nodes := [], map := [(0, { valid := true, count := 100, path := 0x1000 })]
    openFinal := true }
  vault := { dev.vault with recordKey := some (List.replicate 32 4) }
  flash := { dev.flash with
    words := List.zipWith (fun i w => (32768 + i, w)) (List.range 16)
      (lastRecord.words ++ [m]) } }
def opening : State := openingWith (recordMac (List.replicate 32 4) lastRecord.words)
def openingMember : State := { opening with store := { opening.store with unreported := [0, 1] } }
theorem witness_share_opens :
    opening.store.topOwed = false ∧ opening.flash.recordQueued = false ∧ opening.store.state = .opening ∧
      opening.store.unreported = [0] ∧ opening.store.own = some 0 ∧ opening.store.openNew = false ∧
      (aget {} opening.store.map 0).valid = true ∧
      (verifyTop (opening.store.treeKey.getD []) (aget {} opening.store.map 0).count (fun k => ([] : List (List Byte)).getD k []) (topNodes (aget {} opening.store.map 0).count) opening.store).isSome :=
  by decide +kernel
theorem lines_of_opening (m : Word) : (((openingWith m).flash.words.filter fun kv =>
    decide (8 * 4096 ≤ kv.1) && decide (kv.1 < 16 * 4096)).map fun kv => kv.1 / 16).eraseDups = [2048] := by
  have h : ((openingWith m).flash.words.filter fun kv => decide (8 * 4096 ≤ kv.1) && decide (kv.1 < 16 * 4096)) =
      (openingWith m).flash.words := by
    simp [openingWith, lastRecord, CkRecord.words, List.range_succ]
  have k : (openingWith m).flash.words.map (fun kv => kv.1 / 16) = List.replicate 16 2048 := by
    simp [openingWith, lastRecord, CkRecord.words, List.range_succ]
  rw [h, k]
  decide
theorem line_of_opening (m : Word) :
    agetRun erasedWord (openingWith m).flash.words (16 * 2048) 16 = lastRecord.words ++ [m] := rfl
theorem record_of_opening (m : Word) (r : CkRecord)
    (hr : recordOf (List.replicate 32 4) (lastRecord.words ++ [m]) = some r) :
    (openingWith m).newestRecord = some r := by
  have hk : (openingWith m).vault.recordKey = some (List.replicate 32 4) := rfl
  have hs : ((openingWith m).flash.landed.seen (openingWith m).free).words = (openingWith m).flash.words := rfl
  simp only [State.newestRecord, hk, hs, lines_of_opening, List.filterMap_cons, List.filterMap_nil, line_of_opening, hr]
  rfl
theorem witness_share_record : opening.newestRecord.isSome = true := by
  obtain ⟨r, hr⟩ := Option.isSome_iff_exists.mp (recordOf_words (List.replicate 32 4) lastRecord.words (by decide))
  rw [opening, record_of_opening _ r hr]
  rfl
def openingFresh : State := { openingMember with
  store := { openingMember.store with map := openingMember.store.map ++ [(1, { valid := true, count := 9, path := 0x200001000 })] }
  cascade := { openingMember.cascade with entries := [(1, { state := .present, path := 0x200001000, newDevice := true })] } }
theorem witness_share_of_a_member :
    openingFresh.store.unreported.contains 1 = true ∧ openingFresh.store.openNew = false ∧
      openingFresh.store.own ≠ some 1 ∧ openingFresh.store.state ≠ .closed ∧
      openingMember.store.state ≠ .closed ∧ openingMember.store.unreported.contains 1 = true ∧
      openingMember.store.own ≠ some 1 := by decide

/-- Checkpoint 5 in progress over a Store with nothing dirty, READY, and acknowledged; the FINAL one likewise. -/
def settled : Store := { storeOpen with frames := [(7, {})], nodes := [], ckSeq := 5, lastSeq := 5 }
def ckAt (p : CkPhase) : State := { stored with store := { settled with ckPhase := p } }
def ckFinalAt (p : CkPhase) : State := { stored with
  store := { settled with ckPhase := p, ckIsFinal := true, state := .closing } }
def ckOver : State := { stored with store := { storeOpen with ckInterval := 1, ckClock := 10000000 } }
def ckWarned : State := { ckAt .ready with store := { (ckAt .ready).store with powerFail := true } }
theorem witness_checkpoint_steps :
    stored.hostOk ∧ (0x1F400000064#64) &&& 0xFFFF0000FFFF0000#64 = 0 ∧ stored.store.live = true ∧
      ckOver.store.live = true ∧ ckOver.store.intervalOver = true ∧ (ckAt .ready).store.powerFail = false ∧
      ckWarned.hostOk ∧ ckWarned.store.ckPhase = .ready ∧ ckWarned.store.powerFail = true ∧
      (ckAt .ready).hostOk ∧ (5#64) &&& 0xFFFFFFFF00000000#64 = 0 ∧ (ckAt .ready).store.ckPhase = .ready ∧
      (ckAt .ready).store.ckSeq = (5#64).toNat ∧ (ckAt .ready).store.ckSeq ≠ (6#64).toNat :=
  by unfold State.hostOk; decide
def ckWanted : State := { ckAt .idle with store := { (ckAt .idle).store with ckDue := true } }
def ckFinalReady : State := ckFinalAt .idle
theorem witness_checkpoint_settled :
    (ckAt .acked).store.ckMembers = [] ∧ (ckAt .acked).flash.recordQueued = false ∧
      ckWanted.cascade.master = true ∧ ckFinalReady.cascade.master = true ∧
      (ckAt .preparing).store.powerFail = false ∧ (ckAt .preparing).dmaReady = true ∧
      (ckAt .preparing).store.ckIsFinal = false := by decide
theorem witness_checkpoint_phases :
    ckWanted.store.live = true ∧ ckWanted.store.ckPhase = .idle ∧ ckWanted.allTokens = true ∧
      ckWanted.cascade.master = true ∧ ckFinalReady.store.live = true ∧ ckFinalReady.anySlotOpen = false ∧
      ckFinalReady.store.state = .closing ∧ ckFinalReady.allTokens = true ∧ ckWanted.store.powerFail = false ∧
      ckWanted.store.ckDue = true ∧ (ckAt .preparing).store.clean = true ∧
      (ckAt .preparing).store.ckOwners = [] ∧ (ckAt .acked).store.ckPhase = .acked ∧
      (ckFinalAt .acked).store.ckIsFinal = true ∧ (ckFinalAt .ready).store.ckPhase = .ready := by decide
/-- The acknowledgement has been missing for CK_TIMEOUT. -/
def overdue (s : State) : State := { s with store := { s.store with ckWait := 50000000 } }
theorem witness_checkpoint_overdue :
    (overdue (ckAt .ready)).cascade.master = true ∧ (overdue (ckAt .ready)).store.ckPhase = .ready ∧
      (overdue (ckAt .ready)).store.ackOverdue = true ∧ (overdue (ckFinalAt .ready)).store.ackOverdue = true ∧
      (overdue (ckFinalAt .ready)).store.ckIsFinal = true := by decide
/-- Warned of a power failure; able to rotate with a seed in the pool. -/
def warned : State := { dev with startup := { dev.startup with pfw := true } }
def seeded : State := { stored with
  store := { settled with ckSeq := 0 }, vault := opening.vault, flash := opening.flash
  entropy := { dev.entropy with pool := [List.replicate 64 1] } }
theorem witness_power_fail_and_epochs :
    warned.startup.pfw = true ∧ warned.startup.rails = true ∧ warned.link.bootStage ≠ 1 ∧ seeded.hostOk ∧
      seeded.store.state = .opened ∧ seeded.sweeping = false ∧ seeded.store.draw.busy = false ∧
      seeded.ownShare.map Share.state = some .opened ∧ seeded.entropy.pool = List.replicate 64 1 :: [] ∧
      rotated.hostOk ∧ rotated.sweeping = true ∧ dev.hostOk ∧ dev.store.state ≠ .opened :=
  by unfold State.hostOk; decide


/-! ### Cipher lanes -/

/-- The blob in staging slot 0 of Hand 0 for a purpose and a KEYLEN, and the key it stands for. -/
def blobFor (purpose keylen : Nat) : List Word :=
  wd (2 ^ 32 + keylen * 2 ^ 29 + purpose * 2 ^ 26 + 3 * 2 ^ 24) :: List.replicate 23 0
def laneOctets (keylen : Nat) : List Byte := List.replicate (if keylen = 3 then 32 else 16) 7
/-- Hand 0 holds lane 2, set up for a D-space operation over `len` octets with the key in its cache, and 2 granules of
the Release Buffer. -/
def laneSet (purpose keylen len : Nat) : State := { holding with
  hands := [(0, { holding.hand 0 with rbGranules := 2 })]
  lanes := [(2, {
    holder := some 0, cache := [{ blob := (blobFor purpose keylen).take 22, key := laneOctets keylen }]
    regs := { key := 0x800000000#36, src := 0, dst := 512, len := BitVec.ofNat 24 len, status := 0x61, octets := 5 } })]
  vault := { dev.vault with staging := [(0, blobFor purpose keylen)] } }
/-- The words of a GO over D-space. -/
def goSpace (taglen nonce : BitVec 4) (dst : BitVec 2) : LaneGo :=
  { afcont := true, taglen := taglen, nonce := nonce, pack := 0, dst := dst, srck := 0, words := 0 }
/-- The checks of R381 all pass. -/
def laneChecks (s : State) (h : HandId) (l : Nat) (w : Word) (n : Nat) (k : List Byte) : Bool :=
  let r := (s.lane l).regs
  (s.hand h).laneHeld && decide ((s.hand h).lane = some l) && r.op.isNone && goFieldsOk w r.key
    && decide (goPayload w r.len.toNat = some n) && goLengthOk w n
    && (goHeld w n).all (fun p => decide (p ≤ 2 ^ 20) && decide ((p + 4095) / 4096 ≤ (s.hand h).rbGranules))
    && decide (s.goRange h w r n = (true, s))
    && decide ((s.errandOf h).map (fun e => e.2.laneBytes) = some 0)
    && decide ((s.verbOf h).map VerbDecl.laneBytes = some 4096) && decide (goInput w n r.aad.toNat ≤ 4096)
    && decide (s.blobMissing h r.key = none)
    && decide ((s.laneKey h l w r.key ((s.hand h).st.getLsbD 35)).1 = .key k)
/-- A case for each command: mode, direction, TAGLEN, NONCE, DST, PURPOSE, KEYLEN, length. -/
def laneCases : List (Nat × Bool × BitVec 4 × BitVec 4 × BitVec 2 × Nat × Nat × Nat) :=
  [(0, false, 0, 0, 0, 0, 0, 16), (0, true, 0, 0, 0, 1, 0, 16), (1, false, 0, 0, 0, 0, 0, 32), (1, true, 0, 0, 0, 1, 0, 32),
    (2, false, 0, 0, 0, 0, 0, 1), (2, true, 0, 0, 0, 1, 0, 1), (3, false, 0, 0, 0, 0, 0, 7), (3, true, 12, 0, 0, 1, 0, 7),
    (4, false, 4, 7, 0, 0, 0, 9), (4, true, 4, 13, 0, 1, 0, 9), (5, false, 4, 0, 3, 3, 0, 5), (5, true, 0, 0, 3, 3, 0, 5),
    (6, false, 0, 0, 0, 0, 3, 17), (6, true, 0, 0, 0, 1, 3, 17), (7, false, 0, 0, 0, 2, 0, 16), (7, true, 0, 0, 0, 2, 0, 24),
    (8, false, 0, 0, 0, 2, 0, 1), (8, true, 0, 0, 0, 2, 0, 16)]
def laneCaseOk (c : Nat × Bool × BitVec 4 × BitVec 4 × BitVec 2 × Nat × Nat × Nat) : Bool :=
  laneChecks (laneSet c.2.2.2.2.2.1 c.2.2.2.2.2.2.1 c.2.2.2.2.2.2.2) 0 2
    (goWord (goSpace c.2.2.1 c.2.2.2.1 c.2.2.2.2.1) c.1 c.2.1) c.2.2.2.2.2.2.2 (laneOctets c.2.2.2.2.2.2.1)
theorem witness_lane_starts : laneCases.all laneCaseOk = true := by decide +kernel
theorem witness_lane_permits :
    (laneSet 0 0 16).permits 0 0x2005 true 0 ∧ (laneSet 0 0 16).permits 0 0x2007 true 0 :=
  by unfold State.permits; decide
/-- Lane 2 in the midst of an ECB encryption of 16 octets for Hand 0, and of a GCM decryption whose tag does not hold. -/
def laneRun (mode : Nat) (dec : Bool) (len : Nat) : State := { laneSet 0 0 16 with
  lanes := [(2, { (laneSet 0 0 16).lane 2 with
    regs := { ((laneSet 0 0 16).lane 2).regs with
      op := some {
        go := goWord (goSpace 0 0 0) mode dec, src := 0, dst := 512, len := len, aad := 0, iv := List.replicate 16 0
        key := laneOctets 0, hand := 0, errand := some 3 } } })] }
theorem witness_lane_busy :
    (laneRun 0 false 16).permits 0 0x2005 true 0 ∧ (laneRun 0 false 16).permits 0 0x2007 true 0 ∧
      ((laneRun 0 false 16).lane 2).regs.op ≠ none ∧
      goFieldsOk (goWord (goSpace 0 0 3) 0 false) ((laneSet 0 0 16).lane 2).regs.key = false :=
  by unfold State.permits; decide
def laneEndOk (s : State) (status : Nat) : Bool :=
  match (s.lane 2).regs.op with
  | some o => !o.stopped && !o.keyDue && !(s.hand o.hand).laneReleasing
      && s.laneMapped o && s.laneResident o && !o.through && decide (goSrc o.go = 0)
      && (laneCompute o (padTo (goInput o.go o.len o.aad) (s.laneSource o []))).status == status && decide (goDst o.go = 0) && !s.laneSpoilt o
  | none => false
theorem witness_lane_ends : laneEndOk (laneRun 0 false 16) 0 = true ∧ laneEndOk (laneRun 3 true 0) 0x60 = true := by
  decide +kernel

/-! ### PK slices -/

/-- A key of a type, purpose and material, for both worlds. -/
def pkKey (type purpose n : Nat) : KeyObj :=
  { attr := attrWord type purpose 3 false false false false, material := List.replicate n 1, pub := List.replicate n 2 }
/-- Hand 0 holds slice 1 in a mode, PK_KEYH naming Vault slot `keyh`, its Verb declaring 100 of one PSET and OP. -/
def sliceSet (seq : Bool) (pset op keyh : Nat) : State := { holding with
  hands := [(0, { holding.hand 0 with sliceMac := !seq })]
  slices := [(1, { holder := some 0, seqMode := seq, regs := { keyh := wd keyh, outp := 100, a := 3, acc := 5 } })]
  ucode := { state := if seq then 1 else 0 }
  vault := { dev.vault with
    mode := .opened, slots := [(1, pkKey 1 5 32), (5, pkKey 5 7 32), (9, pkKey 9 7 64)] }
  steward := { holding.steward with
    almanacs := [(1, { almanac with verbs := [{ verb with pk5 := (pset, op, 100) }] })] } }
def pkFlags (pset : Byte) (ksrc : Bool) : PkFlags :=
  { pset := pset, outv := false, ksrc := ksrc, purp := false, scheme := false, dlen := 0 }
/-- The checks of R404 all pass. -/
def pkChecks (pset op keyh : Nat) (ksrc : Bool) : Bool :=
  let s := sliceSet true pset op keyh
  let w := pkWord (pkFlags (BitVec.ofNat 8 pset) ksrc) op
  (s.hand 0).sliceHeld && decide ((s.hand 0).slice = some 1) && (s.slice 1).regs.op.isNone && (s.slice 1).seqMode
    && s.ucode.state == 1 && cmdOk w && s.cmdRangeOk 1 w && cmdPset w == pset && cmdOp w == op
    && decide (s.pkRoom 0 pset op = some (100, 0)) && (s.cmdKey 0 1 w).toBool && (s.hand 0).drbg.isSome
    && (!cmdMakesKey w || (s.newSlot false).isSome)
theorem witness_slice_starts : pkChecks 1 1 0 false = true ∧ pkChecks 1 2 1 true = true ∧ pkChecks 1 3 0 false = true ∧
    pkChecks 5 4 5 true = true ∧ pkChecks 9 5 0 false = true ∧ pkChecks 9 6 9 true = true := by decide +kernel
theorem witness_slice_permits :
    (sliceSet true 1 1 0).permits 0 0x3000 true 0 ∧ (sliceSet false 1 1 0).permits 0 0x3000 true 0 ∧
      (sliceSet false 0x7F 0 0).permits 0 0x3009 true 0 ∧ (sliceSet true 1 1 0).permits 0 0x3009 true 0 ∧
      (sliceSet false 0x7F 0 0).permits 0 0x3008 true 0 ∧ (sliceSet true 1 1 0).permits 0 0x3007 true 0 ∧
      (sliceSet true 1 1 0).permits 0 0x3007 false 0 ∧ (sliceSet false 0x7F 0 0).permits 0 0x300A true 3 :=
  by unfold State.permits; and_intros <;> decide
theorem witness_slice_mac :
    ((sliceSet false 0x7F 0 0).slice 1).seqMode = false ∧ mgoOk (mgoWord 1 1 8191) = true ∧
      mgoIdx (mgoWord 1 1 8191) + mgoLen (mgoWord 1 1 8191) ≤ 8192 ∧ mgoOk (mgoWord 2 48 0) = true ∧
      mgoOk (mgoWord 3 48 0) = true ∧ mgoOk (mgoWord 4 0 0) = true ∧
      (sliceSet false 0x7F 0 0).pkRoom 0 0x7F 0 = some (100000, 0) ∧ mctlLen 0x00BFFE000#36 = 1 ∧
      mctlIdx 0x00BFFE000#36 = 8191 ∧ mctlLen 0x083FE0000#36 = 16 ∧ mctlIdx 0x083FE0000#36 = 8176 ∧
      wfield 0x083FE0000#36 33 32 = 0 ∧ (sliceSet false 0x7F 0 0).ucode.state = 0 := by decide
/-- Slice 1 in the midst of a MAC command, and of an X25519 agreement. -/
def macRun (w : Word) : State := { sliceSet false 0x7F 0 0 with
  slices := [(1, { (sliceSet false 0x7F 0 0).slice 1 with
    regs := { ((sliceSet false 0x7F 0 0).slice 1).regs with
      acc := 2 ^ 1728 - 1, opmem := [(0, 1)]
      op := some {
        cmd := 0, keyh := 0, inIdx := 0, outIdx := 0, random := [], mgo := some w, hand := 0, errand := some 3 } } })] }
def pkRun (pset op : Nat) (opmem : Memory) : State := { sliceSet true pset op 0 with
  slices := [(1, { (sliceSet true pset op 0).slice 1 with
    regs := { ((sliceSet true pset op 0).slice 1).regs with
      opmem := opmem
      op := some {
        cmd := pkWord (pkFlags (BitVec.ofNat 8 pset) true) op, keyh := 5, key := some (pkKey 5 7 32), inIdx := 0
        outIdx := 100, random := [], hand := 0, errand := some 3 } } })] }
/-- The status of the operation the slice runs. -/
def pkRunStatus (s : State) : Option Nat :=
  (s.slice 1).regs.op.map fun o =>
    let r := (s.slice 1).regs
    let len := if hasLen o.cmd then wfield (aget 0 r.opmem o.inIdx) 10 0 else 0
    let fields := inFields o.cmd (min len 1024)
    (pkCompute o.cmd o.key o.random len (splitFields fields (agetRun 0 r.opmem o.inIdx (blockWords fields)))).status
theorem witness_slice_op_ends :
    (((macRun 0x204000000#36).slice 1).regs.op.map fun o => (o.stopped, o.mgo)) = some (false, some 0x204000000#36) ∧ mgoOp 0x204000000#36 = 1 ∧ ((macRun 0x204000000#36).hand 0).sliceReleasing = false ∧ (((pkRun 4 3 [(0, 2000)]).slice 1).regs.op.map fun o => (o.ucode, o.randomDue)) = some (false, 0) ∧ pkRunStatus (pkRun 4 3 [(0, 2000)]) = some 0x88 := by decide
theorem witness_slice_op_succeeds : pkRunStatus (pkRun 1 1 []) = some 0 := by decide +kernel

/-! ### The Key Vault -/

/-- Keys: an exportable AES-128 bulk key, a derivation root, a custody key, a wrap key, a signing key and a public key. -/
def bulkKey : KeyObj := { attr := attrWord 0x10 0 3 true false true false, material := List.replicate 16 7 }
def rootKey : KeyObj := { attr := attrWord 0x20 4 3 false false false false, material := List.replicate 32 8 }
def custodyKey : KeyObj := { attr := custodyAttr ||| 0x100000#36, material := List.replicate 32 9 }
def wrapKey : KeyObj := { attr := attrWord 0x10 2 3 false false false false, material := List.replicate 16 6 }
/-- Hand 0 at WS with a Vault whose slots 0 to 4 hold them, words of its Workspace and VLT_ARG0 to VLT_ARG3. -/
def vaultSet (a0 a1 a2 a3 : Word) (at_ : Nat) (ws : List Word) : State := { holding with
  hands := [(0, { holding.hand 0 with
    sliceMac := false, vault := { (holding.hand 0).vault with arg0 := a0, arg1 := a1, arg2 := a2, arg3 := a3 } })]
  cores := [(0, { holding.core 0 with workspace := List.zipWith (fun i w => (at_ + i, w)) (List.range ws.length) ws })]
  vault := { dev.vault with
    mode := .opened, ckek := some (List.replicate 16 5), dak := some (pkKey 2 5 48)
    recordKey := some (List.replicate 32 4), lwks := [(0, List.replicate 32 3)]
    slots := [(0, bulkKey), (1, rootKey), (2, custodyKey), (3, wrapKey), (4, pkKey 1 5 32)] }
  store := { dev.store with treeKey := some (List.replicate 32 1), epochKeys := [(1, List.replicate 32 2)] }
  steward := { holding.steward with
    almanacs := [(1, { almanac with verbs := [{ verb with pk5 := (2, 2, 100) }] })] } }
def sealedVault : State := { vaultSet 0 0 0 0 0 [] with vault := { dev.vault with mode := .sealed } }
def heldVault : State := { vaultSet 0 0 0 0 0 [] with vault := { (vaultSet 0 0 0 0 0 []).vault with mode := .hold } }

theorem witness_vault_permits :
    (vaultSet 0 0 0 0 0 []).permits 0 0x400C true 0 ∧ sealedVault.permits 0 0x400C true 0 ∧
      heldVault.permits 0 0x400C true 0 ∧ (vaultSet 0 0 0 0 0 []).permits 0 0x4003 true 0 :=
  by unfold State.permits; and_intros <;> decide
theorem witness_vault_keys :
    ((vaultSet 0 0 0 0 0 []).hand 0).vault.running = none ∧ sealedVault.noKek = true ∧
      (vaultSet 0 0 0 0 0 []).noKek = false ∧ (vaultSet 0 0 0 0 0 []).vault.lookup 5 = none ∧
      ((vaultSet 0 0 0 0 0 []).vaultKey 0 0).toOption = some (0, bulkKey) ∧ attrBulk bulkKey.attr = true ∧
      afind (vaultSet 0 0 0 0 0 []).vault.lwks (vaultSet 0 0 0 0 0 []).vault.lwkCur = some (List.replicate 32 3) ∧ attrFieldsOk bulkKey.attr = true ∧ attrType bulkKey.attr = 0x10 ∧ typeAllows bulkKey.attr = true ∧ mayCreate bulkKey.attr 3 = true ∧ ((vaultSet 0 0 0 0 0 []).hand 0).level = 3 ∧ ((vaultSet 0 0 0 0 0 []).hand 0).drbg ≠ none ∧ heldVault.vault.mode = .hold ∧ heldVault.noKek = false := by decide
theorem witness_vault_new_slot :
    (vaultSet 0 0 0 0 0 []).newSlot false = some 5 ∧ (vaultSet 0 0 0 0 0 []).newSlot true = some 5 :=
  by decide +kernel
/-- VLT_DSPEC asks for a resident key, or for a blob in staging slot 0. -/
def deriving_ (resident : Bool) : State := { vaultSet 0 0 0 0 0 [] with
  hands := [(0, { (vaultSet 0 0 0 0 0 []).hand 0 with vault := {
    ((vaultSet 0 0 0 0 0 []).hand 0).vault with dspec := if resident then 0x121408000#36 else 0x121400000#36 } })] }
theorem witness_vault_derive :
    ((deriving_ true).hand 0).vault.dspec.getLsbD 15 = true ∧
      ((deriving_ false).hand 0).vault.dspec.getLsbD 15 = false ∧ typeKnown (attrType 0x121408000#36) = true ∧
      attrWorld 0x121408000#36 ≠ 0 ∧ ((deriving_ true).vaultKey 0 1).toOption = some (1, rootKey) ∧
      deriveOk rootKey.attr 0x121408000#36 3 = true ∧ deriveOk rootKey.attr 0x121400000#36 3 = true ∧
      attrCommon (withOrigin (dspecAttr 0x121408000#36) (attrImported rootKey.attr)) = true := by decide

/-- A run of Hand 0's D-space is in range and resident. -/
def runHere (s : State) (addr words : Nat) : Bool :=
  decide (s.vaultRange 0 [(addr, words, false)] = (true, s)) && (s.runMissing 0 addr words).isNone
def runRoom (s : State) (addr words : Nat) : Bool := decide (s.vaultRange 0 [(addr, words, true)] = (true, s))
theorem witness_vault_save : (vaultSet 0 100 0 0 0 []).vault.lookup 0 = some (0, bulkKey) ∧
    runRoom (vaultSet 0 100 0 0 0 []) 100 (objectWords bulkKey) = true ∧ worldAllows bulkKey.attr true = true := by decide +kernel
/-- Words in Hand 0's Workspace: they pass the range check, are resident and read back, whatever they hold. -/
theorem vault_view (a0 a1 : Word) (b n : Nat) (ws : List Word)
    (ok : ∀ i < n, wordPasses (vaultSet a0 a1 0 0 0 []) ((vaultSet 0 0 0 0 0 []).acuView 0).1 0 3 b false (b + i) = true) :
    ∀ i < n, wordPasses (vaultSet a0 a1 0 0 b ws) ((vaultSet a0 a1 0 0 b ws).acuView 0).1 0
      ((vaultSet a0 a1 0 0 b ws).hand 0).level b false (b + i) = true := by
  intro i hi
  have e2 : ((vaultSet a0 a1 0 0 b ws).acuView 0).1 = ((vaultSet 0 0 0 0 0 []).acuView 0).1 := rfl
  have e3 : ((vaultSet a0 a1 0 0 b ws).hand 0).level = 3 :=
    (show _ = ((vaultSet 0 0 0 0 0 []).hand 0).level from rfl).trans (by decide +kernel)
  rw [e2, e3]
  exact (wordPasses_congr (vaultSet a0 a1 0 0 b ws) (vaultSet a0 a1 0 0 0 []) _ 0 3 b false (b + i) rfl).trans (ok i hi)
theorem vault_run (a0 a1 : Word) (b : Nat) (ws : List Word) (n : Nat) (hn : n ≤ 0x28001)
    (ok : ∀ i < n, wordPasses (vaultSet a0 a1 0 0 0 []) ((vaultSet 0 0 0 0 0 []).acuView 0).1 0 3 b false (b + i) = true) :
    (vaultSet a0 a1 0 0 b ws).vaultRange 0 [(b, n, false)] = (true, vaultSet a0 a1 0 0 b ws) :=
  vaultRange_passes _ 0 b n false rfl hn (vault_view a0 a1 b n ws ok)
theorem vault_place (a0 a1 : Word) (b i : Nat) (ws : List Word) (h : b + i < 0x8000) :
    (vaultSet a0 a1 0 0 b ws).place 0 (b + i) = .workspace (coreOf 0) (b + i) := by
  have hw : ((vaultSet a0 a1 0 0 b ws).hand 0).wsBase = 0 := rfl
  simp only [State.place, hw, if_pos h, Nat.zero_add]
theorem vault_resident (a0 a1 : Word) (b n : Nat) (ws : List Word) (hb : b + n ≤ 0x8000) :
    (vaultSet a0 a1 0 0 b ws).runMissing 0 b n = none := by
  simp only [State.runMissing, List.findSome?_eq_none_iff, List.mem_range]
  intro i hi
  rw [vault_place a0 a1 b i ws (by omega)]
  rfl
theorem vault_reads (a0 a1 : Word) (b : Nat) (ws : List Word) (hb : b + ws.length ≤ 0x8000) :
    (vaultSet a0 a1 0 0 b ws).readRun 0 b ws.length = ws := by
  have hc : ((vaultSet a0 a1 0 0 b ws).core (coreOf 0)).workspace =
    List.zipWith (fun i w => (b + i, w)) (List.range ws.length) ws := rfl
  have e := agetRun_cells (0 : Word) ws b
  rw [agetRun, ← hc] at e
  refine Eq.trans (List.map_congr_left fun i hi => ?_) e
  have := List.mem_range.mp hi
  rw [vault_place a0 a1 b i ws (by omega)]
  rfl
/-- The Vault's keys and free slots are the same with any words in the Workspace. -/
theorem vault_slot (a0 a1 : Word) (b : Nat) (ws : List Word) :
    (vaultSet a0 a1 0 0 b ws).loadSlot 0 (attrCommon bulkKey.attr) = some 5 ∧
    (vaultSet a0 a1 0 0 b ws).newSlot false = some 5 ∧
    (vaultSet a0 a1 0 0 b ws).vault.kekOf (wd (2 * 2 ^ 32 + 40)) = some (List.replicate 16 5) := by
  have e : (vaultSet a0 a1 0 0 b ws).loadSlot 0 = (vaultSet 0 0 0 0 0 []).loadSlot 0 := rfl
  have e2 : (vaultSet a0 a1 0 0 b ws).newSlot = (vaultSet 0 0 0 0 0 []).newSlot := rfl
  have e3 : (vaultSet a0 a1 0 0 b ws).vault = (vaultSet 0 0 0 0 0 []).vault := rfl
  rw [e, e2, e3]
  decide +kernel
/-- A backing object of the bulk key, of KCV 0, with its ciphertext's ten words. -/
def objectOf (ws : List Word) : List Word := [wd (2 * 2 ^ 32 + 40), bulkKey.attr, 0, 0] ++ ws
theorem opens_objectOf (kek : List Byte) (ws : List Word) (p : List Byte) (k : KeyObj)
    (ho : kwpOpen kek (packOut .loose ws 40) = some p) (hp : p.take 10 = words40 [bulkKey.attr, 0])
    (hk : makeKey bulkKey.attr (p.drop 10) = some k) : openObject kek (objectOf ws) = some k := by
  have h0 : (objectOf ws).getD 0 0 = wd (2 * 2 ^ 32 + 40) := rfl
  have h1 : (objectOf ws).getD 1 0 = bulkKey.attr := rfl
  have h2 : (objectOf ws).getD 2 0 = 0 := rfl
  have h3 : (objectOf ws).getD 3 0 = 0 := rfl
  have h4 : (objectOf ws).drop 4 = ws := rfl
  have h5 : wfield (wd (2 * 2 ^ 32 + 40)) 11 0 = 40 := by decide +kernel
  have h6 : ¬ (wfield (wd (2 * 2 ^ 32 + 40)) 35 32 ≠ 2 ∨ wfield (wd (2 * 2 ^ 32 + 40)) 30 12 ≠ 0 ∨ (0 : Word) ≠ 0
    ∨ 40 < 24 ∨ 3192 < 40) := by decide +kernel
  simp only [openObject, h0, h1, h2, h3, h4, h5, if_neg h6, ho, hp, hk, if_true]
/-- A sealed object opens: its ciphertext stays unevaluated here, the cipher's own laws say what it opens to. -/
theorem witness_vault_load : ∃ object, let s := vaultSet 0 0 0 0 0 object
    s.vaultRange 0 [(0, 4, false)] = (true, s) ∧ s.runMissing 0 0 4 = none ∧ s.readRun 0 0 14 = object ∧
    4 + (wfield ((s.readRun 0 0 1).getD 0 0) 11 0 + 3) / 4 = 14 ∧
    s.vaultRange 0 [(0, 14, false)] = (true, s) ∧ s.runMissing 0 0 14 = none ∧
    s.vault.kekOf (object.getD 0 0) = some (List.replicate 16 5) ∧
    s.loadSlot 0 (attrCommon (object.getD 1 0)) = some 5 ∧
    openObject (List.replicate 16 5) object = some { attr := bulkKey.attr, material := List.replicate 16 7 } := by
  have hk : aesKeyOk (List.replicate 16 5) := by unfold aesKeyOk; decide +kernel
  obtain ⟨ho, hl⟩ := kwpOpen_kwpSeal _ hk (words40 [bulkKey.attr, 0] ++ List.replicate 16 7) 4 (by decide)
    (by decide +kernel) (by decide +kernel) (by decide +kernel)
  generalize kwpSeal _ _ = c at ho hl
  obtain ⟨hp, hn⟩ := packOut_packIn_loose 10 c hl
  generalize packIn .loose c = ws at hp hn
  have hlen : (objectOf ws).length = 14 := by simp [objectOf, hn]
  have hr := vault_reads 0 0 0 (objectOf ws) (by omega)
  rw [hlen] at hr
  have h1 : (vaultSet 0 0 0 0 0 (objectOf ws)).readRun 0 0 1 = (objectOf ws).take 1 := by
    have := readRun_take (vaultSet 0 0 0 0 0 (objectOf ws)) 0 0 14 1 (by decide)
    rw [← this, hr]
  refine ⟨objectOf ws, ?_⟩
  intro s
  refine ⟨vault_run 0 0 0 _ 4 (by decide) (by decide +kernel), vault_resident 0 0 0 4 _ (by decide), hr, ?_,
    vault_run 0 0 0 _ 14 (by decide) (by decide +kernel), vault_resident 0 0 0 14 _ (by decide),
    (vault_slot 0 0 0 _).2.2, (vault_slot 0 0 0 _).1, ?_⟩
  · rw [h1, show ((objectOf ws).take 1).getD 0 0 = wd (2 * 2 ^ 32 + 40) from rfl]
    decide +kernel
  · exact opens_objectOf _ ws _ _ ((congrArg _ hp).trans ho) (by decide +kernel) (by decide +kernel)
theorem witness_vault_export : let s := vaultSet 0 3 100 0 0 []
    s.vault.lookup 0 = some (0, bulkKey) ∧ s.vault.lookup 3 = some (3, wrapKey) ∧
    runRoom s 100 (kwpLen bulkKey.stored.length / 4) = true ∧ worldAllows wrapKey.attr true = true ∧
    isWrapKey wrapKey.attr = true ∧ attrExportable bulkKey.attr = true := by decide +kernel
/-- The attributes of an Ed25519 public key. -/
def publicAttr : Word := attrWord 4 6 3 false false false false
theorem witness_vault_import : let s := vaultSet 0 0 publicAttr 32 0 []
    attrFieldsOk publicAttr = true ∧ attrPurpose publicAttr = 6 ∧ runHere s 0 8 = true ∧ typeAllows publicAttr = true ∧
    mayCreate publicAttr 3 = true ∧ s.newSlot (attrCommon publicAttr) = some 5 ∧
    (makeKey (withOrigin publicAttr true) (packOut .loose (s.readRun 0 0 8) 32)).isSome = true := by decide +kernel
theorem witness_vault_attest : let s := vaultSet 4 0 100 0 0 []
    s.vault.dak ≠ none ∧ s.vaultRange 0 [(0, 8, false), (100, (0x74 + (pkKey 1 5 32).pub.length + 99) / 4, true)] = (true, s) ∧
    s.runMissing 0 0 8 = none ∧ (s.vaultKey 0 4).toOption = some (4, pkKey 1 5 32) ∧ (s.hand 0).sliceHeld = true ∧
    (s.hand 0).sliceMac = false ∧ (s.hand 0).drbg ≠ none ∧ s.pkRoom 0 2 2 = some (100, 0) := by decide +kernel
theorem witness_vault_spdm : let s := vaultSet 0 100 0 0 0 []
    s.vaultRange 0 [(0, 12, false), (100, 24, true)] = (true, s) ∧ s.runMissing 0 0 12 = none := by decide +kernel
theorem witness_vault_split : let s := vaultSet 2 0x82 100 0 0 []
    wfield (0x82#36) 35 8 = 0 ∧ wfield (0x82#36) 3 0 = 2 ∧ wfield (0x82#36) 7 4 = 8 ∧ runRoom s 100 80 = true ∧
    (s.vaultKey 0 2).toOption = some (2, custodyKey) ∧ isCustody custodyKey.attr = true ∧ attrType custodyKey.attr = 0x12 ∧
    attrExportable custodyKey.attr = true := by decide +kernel
/-- Two shares of the key of nines, as a constant polynomial gives them, whatever their KCV octets are. -/
theorem rebuilds_nines (v : List Byte) (s1 s2 : List Word) (hv : v.length = 5) (n1 : s1.length = 10) (n2 : s2.length = 10)
    (p1 : packOut .loose s1 40 = 1 :: v ++ List.replicate 34 9) (p2 : packOut .loose s2 40 = 2 :: v ++ List.replicate 34 9)
    (k : KeyObj) (hk : makeKey custodyAttr (List.replicate 32 9) = some k) (hkcv : word40 k.kcv = v) :
    rebuildKey 2 (s1 ++ s2) = some k := by
  match v, hv with
  | [v0, v1, v2, v3, v4], _ =>
    have t1 : packOut .loose s1 38 = [1, v0, v1, v2, v3, v4] ++ List.replicate 32 9 := by
      have : packOut .loose s1 38 = (packOut .loose s1 40).take 38 := by simp [packOut, List.take_take]
      rw [this, p1]
      rfl
    have t2 : packOut .loose s2 38 = [2, v0, v1, v2, v3, v4] ++ List.replicate 32 9 := by
      have : packOut .loose s2 38 = (packOut .loose s2 40).take 38 := by simp [packOut, List.take_take]
      rw [this, p2]
      rfl
    have d1 : (s1 ++ s2).take 10 = s1 := List.take_left' n1
    have d2 : ((s1 ++ s2).drop (10 * 1)).take 10 = s2 := by
      rw [List.drop_left' n1]; exact List.take_of_length_le (by omega)
    have c : combineShares [(1, List.replicate 32 9), (2, List.replicate 32 9)] = List.replicate 32 9 := by decide +kernel
    simp only [rebuildKey, List.range, List.range.loop, List.map, d1, d2, t1, t2,
      List.cons_append, List.nil_append,
      List.headD, List.drop, List.take]
    rw [if_neg (by simp), c, hk]
    simp only [hkcv, if_true]
theorem witness_vault_combine : ∃ shares k, let s := vaultSet 0 2 0 0 0 shares
    s.vaultRange 0 [(0, 20, false)] = (true, s) ∧ s.runMissing 0 0 20 = none ∧ s.readRun 0 0 20 = shares ∧
    rebuildKey 2 shares = some k ∧ s.newSlot (attrCommon k.attr) = some 5 := by
  obtain ⟨k, hk, ha⟩ : ∃ k, makeKey custodyAttr (List.replicate 32 9) = some k ∧ attrCommon k.attr = false :=
    ⟨{ attr := custodyAttr, material := List.replicate 32 9 }, by decide +kernel, by decide +kernel⟩
  obtain ⟨v, hv⟩ : ∃ v, word40 k.kcv = v := ⟨_, rfl⟩
  have hl : v.length = 5 := hv ▸ length_beOctets 5 _
  obtain ⟨p1, n1⟩ := packOut_packIn_loose 10 (1 :: v ++ List.replicate 34 9) (by simp [hl])
  obtain ⟨p2, n2⟩ := packOut_packIn_loose 10 (2 :: v ++ List.replicate 34 9) (by simp [hl])
  generalize packIn .loose (1 :: v ++ List.replicate 34 9) = s1 at *
  generalize packIn .loose (2 :: v ++ List.replicate 34 9) = s2 at *
  have hlen : (s1 ++ s2).length = 20 := by simp [n1, n2]
  have hr := vault_reads 0 2 0 (s1 ++ s2) (by omega)
  rw [hlen] at hr
  refine ⟨s1 ++ s2, k, ?_⟩
  intro s
  refine ⟨vault_run 0 2 0 _ 20 (by decide) (by decide +kernel), vault_resident 0 2 0 20 _ (by decide), hr,
    rebuilds_nines v s1 s2 hl n1 n2 p1 p2 k hk hv, ?_⟩
  rw [ha]
  exact (vault_slot 0 2 0 _).2.1
theorem witness_vault_escrow : let s := vaultSet 2 100 0 0 0 []
    s.store.treeKey ≠ none ∧ s.vault.recordKey ≠ none ∧ (s.vaultKey 0 2).toOption = some (2, custodyKey) ∧
    runRoom s 100 28 = true ∧ (escrowOctets (List.replicate 32 1) (List.replicate 32 4) s.store.epochKeys).length = 100 ∧
    kwpLen 100 / 4 = 28 := by decide +kernel
/-- The Store's keys under the custody key, the ciphertext unevaluated. -/
theorem witness_vault_restore : ∃ escrow bs, let s := vaultSet 2 996 0 0 996 escrow
    s.store.state = .closed ∧ s.vaultRange 0 [(996, 28, false)] = (true, s) ∧ s.runMissing 0 996 28 = none ∧
    (s.vaultRange 0 [(996, 36, false)]).1 = false ∧ s.readRun 0 996 28 = escrow ∧
    kwpOpen custodyKey.material (packOut .loose escrow 112) = some bs ∧ bs.length = 100 := by
  have hk : aesKeyOk custodyKey.material := by unfold aesKeyOk; decide +kernel
  obtain ⟨ho, hl⟩ := kwpOpen_kwpSeal _ hk (List.replicate 100 1) 13 (by decide) (by decide) (by decide) (by decide)
  generalize kwpSeal _ _ = c at ho hl
  obtain ⟨hp, hn⟩ := packOut_packIn_loose 28 c hl
  generalize packIn .loose c = ws at hp hn
  have hr := vault_reads 2 996 996 ws (by omega)
  rw [hn] at hr
  refine ⟨ws, List.replicate 100 1, ?_⟩
  intro s
  have hv := vaultRange_leaves s 0 996 28 7 false rfl (by decide) ?_ (vault_view 2 996 996 28 ws (by decide +kernel))
  · exact ⟨rfl, vault_run 2 996 996 ws 28 (by decide) (by decide +kernel), vault_resident 2 996 996 28 ws (by decide),
      congrArg Prod.fst hv, hr, (congrArg _ hp).trans ho, by decide⟩
  · have e : dRegion (s.hand 0) 1024 false = dRegion ((vaultSet 0 0 0 0 0 []).hand 0) 1024 false := rfl
    rw [e]
    decide +kernel

/-- A command of the Vault about to end, with a seed in the pool or none. -/
def vaultEnd (op : Nat) (pool : List (List Byte)) : State := { heldVault with
  hands := [(0, { heldVault.hand 0 with vault := { (heldVault.hand 0).vault with
    running := some { op := op, value := 5, info := if op = 1 then some (9, 8) else none } } })]
  entropy := { heldVault.entropy with pool := pool, sources := [(0, { state := .healthy })] }
  watch := { dev.watch with tampered := true } }
theorem witness_vault_ends :
    ((vaultEnd 1 []).hand 0).vault.running = some { op := 1, value := 5, info := some (9, 8) } ∧
      (1 : Nat) ∉ [2, 10, 11, 12, 14, 15] ∧
      (vaultEnd 14 [List.replicate 48 1]).entropy.pool = List.replicate 48 1 :: [] ∧
      ((vaultEnd 15 [List.replicate 48 1]).hand 0).vault.running = some { op := 15, value := 5 } ∧
      (vaultEnd 15 []).entropy.pool = [] ∧ (vaultEnd 15 []).mayWait = true := by decide

/-! ### Entropy -/

def entropySet (st : SourceState) : State := { granting with
  hands := [(0, { granting.hand 0 with drbg := some 7, drbgBuf := List.replicate 8 3 })]
  entropy := { dev.entropy with sources := [(0, { state := st, fails := 2 })], drbgs := [(7, { live := true, calls := 2 ^ 32 })] } }
def drbgFresh : State := { entropySet .healthy with
  hands := [(0, { granting.hand 0 with drbg := some 7 })]
  entropy := { (entropySet .healthy).entropy with
    drbgs := [(7, { live := true, key := List.replicate 32 1, v := List.replicate 16 2 })] } }
def testingSelf : State := { entropySet .healthy with entropy := { (entropySet .healthy).entropy with selftest := true } }
def factory : State := { entropySet .off with life := { dev.life with fuse := 1 } }
def patterned : State := { factory with
  entropy := { factory.entropy with pattern := 1, sources := [(0, { state := .testPattern })] } }
theorem witness_entropy :
    ((entropySet .off).source 0).state = .off ∧ (entropySet .off).startup.inReset = false ∧
      ((entropySet .healthy).source 0).state = .healthy ∧ (entropySet .failed).permits 0 0x5009 true 3 ∧
      testingSelf.entropy.selftest = true ∧ (testingSelf.source 0).state = .healthy ∧
      (entropySet .healthy).anyHealthy = true ∧ (entropySet .healthy).entropy.selftest = false ∧
      (entropySet .healthy).entropy.pool.length < 64 ∧ (entropySet .healthy).store.draw = .none ∧
      (entropySet .healthy).nextConsumer = none ∧ ((entropySet .healthy).drbg 7).live = true ∧
      2 ^ 32 ≤ ((entropySet .healthy).drbg 7).calls ∧ ((entropySet .healthy).drbg 7).stalled = false :=
  by unfold State.permits; decide +kernel
theorem witness_entropy_reads :
    (entropySet .healthy).permits 0 0x5000 false 0 ∧
      ((entropySet .healthy).hand 0).drbg = some (7 : Fin 1024).val ∧
      ((entropySet .healthy).hand 0).drbgBuf ≠ [] ∧ drbgFresh.permits 0 0x5000 false 0 ∧
      (drbgFresh.hand 0).drbgBuf = [] ∧ (drbgFresh.drbg 7).live = true ∧ (drbgFresh.drbg 7).stalled = false ∧
      (drbgFresh.drbg 7).calls + 1 < 2 ^ 32 ∧ (entropySet .healthy).permits 0 0x5018 false 3 ∧
      (entropySet .healthy).life.rawOk = false ∧ factory.permits 0 0x5018 false 3 ∧ factory.life.rawOk = true ∧
      (factory.source factory.entropy.rawsel).state ≠ .testPattern ∧ factory.permits 0 0x5019 true 3 ∧
      factory.life.factory = true ∧ patterned.permits 0 0x5019 true 3 ∧ patterned.life.factory = true ∧
      patterned.entropy.pattern.getLsbD 0 = true ∧ factory.entropy.pattern.getLsbD 0 = false :=
  by unfold State.permits; and_intros <;> decide +kernel


/-! ### Flash and the Parish Register -/

/-- Hand 0 at WS over a flash controller: sector 16 (flash address 65,536) unprotected, FL_ADDR in it. -/
def flashSet (addr : Nat) : State := { ws with
  flash := { dev.flash with addr := addr, unprotected := [16], buf := (List.range 16).map fun i => (i, BitVec.ofNat 36 (i + 1)) } }
def flashRuns (op : Nat) : State := { flashSet 65536 with
  flash := { (flashSet 65536).flash with
    words := [(65540, 9)]
    bank0 := { op := some { op := op, addr := 65536, words := (List.range 16).map fun i => BitVec.ofNat 36 (i + 1) } } } }
def flashSuspended : State := { ws with
  flash := { dev.flash with bank0 := { op := some { op := 2, addr := 65536 }, susp := true } } }
def innerOp (op : Nat) : FlashOp := { op := op, addr := 16384, words := [1, 2, 3] }
def innerRuns (op : Nat) : State := { ws with flash := { dev.flash with inner := [innerOp op] } }
theorem witness_flash_commands :
    (flashSet 65536).permits 0 32770 true 3 ∧ (flashSet 65536).flashRefusal 1 = none ∧
      (flashSet 65536).flashRefusal 2 = none ∧ (flashSet 65536).flashRefusal 3 = none ∧
      (flashSet 0).flashRefusal 1 = some 0xC1 ∧ (flashSet 65537).flashRefusal 1 = some 0xC3 ∧
      (flashRuns 2).flashRefusal 3 = some 0xC2 ∧
      ((flashRuns 1).flash.turn false).map (fun o => (o.1, o.2.op, o.2.words.length)) = some (false, 1, 16) ∧
      ((flashRuns 2).flash.turn false).map (fun o => (o.1, o.2.op)) = some (false, 2) ∧
      ((flashRuns 2).flash.bank false).susp = false ∧
      ((flashRuns 2).flash.turn false).map (fun o => (flashRuns 2).eraseBegun false o.2) = some true ∧
      (innerRuns 1).flash.turn false = some (true, innerOp 1) ∧ (innerOp 1).op = 1 ∧
      sectorOf (innerOp 1).addr < 8 ∧ (innerRuns 2).flash.turn false = some (true, innerOp 2) ∧
      ((innerRuns 2).flash.bank false).susp = false ∧ (innerRuns 2).eraseBegun false (innerOp 2) = true ∧
      (flashSet 65536).permits 0 32769 false 3 ∧ (flashSet 65536).flash.programming (bankOf 65536) = false ∧
      (flashRuns 1).flash.programming (bankOf 65536) = true ∧ (flashSuspended.flash.bank false).susp = true ∧
      flashSuspended.startup.pfw = false ∧ (flashSet 65536).permits 0 32808 true 3 := by
  unfold State.permits
  and_intros <;> decide

/-- The register before and after SNAPSHOT mode; code 80h out of tokens; a line of the archive buffer. -/
def parishHand : State := { ws with parish := { dev.parish with snapshot := false, count := 4, hptr := 16383 } }
def parishDry : State := { parishHand with
  parish := { parishHand.parish with rates := [(0x80, { rateReset 0x80 with fill := 0 })] } }
def parishLine : State := { parishHand with parish := { parishHand.parish with line := [1, 2, 3], archLine := 1 } }
theorem witness_parish_states :
    parishHand.permits 0 28679 true 3 ∧ (parishHand.parish.rateOf 0x80).archive = false ∧
      10 ^ 8 ≤ (parishHand.parish.rateOf 0x80).fillNow parishHand.parish.now ∧ parishHand.parish.next < 16384 ∧
      (parishDry.parish.rateOf 0x80).rate ≠ 0 ∧
      (parishDry.parish.rateOf 0x80).fillNow parishDry.parish.now < 10 ^ 8 ∧ parishHand.parish.snapshot = false ∧
      ws.permits 0 28680 true 3 ∧ ws.parish.snapshot = true ∧ parishHand.permits 0 28675 false 3 ∧
      parishHand.hostOk ∧ parishHand.permits 0 28673 true 3 ∧ parishLine.parish.line ≠ [] ∧
      (parishLine.parish.archLine + 1) % 256 ≠ 1 ∧ parishLine.flash.marked = [] := by
  unfold State.permits State.hostOk
  and_intros <;> decide

/-! ### Baton -/

/-- The path of the device below port 1 of the master. -/
def below : Word := 0x240001000#36
def goodFlit : FlitHead := { seq := 0, ack := 0, crcOk := true, tagOk := true }
/-- The master with device 1 PRESENT below its KEYED port 1, owner of pages 50 to 99, a forwarded errand on it and a
remote access under way. -/
def holdingOfTwo : State := { dev with
  cascade := { dev.cascade with
    ports := [(1, { state := .keyed })], rop := some 1
    entries := [(1, { state := .present, path := below, serial := 9 })] }
  store := { storeOpen with
    ckOwners := [below], map := [(0, { valid := true, count := 50, state := .opened, path := 0x1000 }),
      (1, { valid := true, first := 50, count := 50, state := .opened, path := below })] }
  steward := { placing.steward with errands := [(3, { waitingCall with phase := .forwarded 1 1 })] } }
/-- A member at that place, JOINED, with its upstream port KEYED and the Store OPEN. -/
def member : State := { dev with
  cascade := { dev.cascade with
    master := false, joined := true, path := below, devnum := 1, portEn := 0xFF, ports := [(0, { state := .keyed })] }
  store := { settled with own := some 1 }
  link := { dev.link with tally := 30 } }
def errandBelow : ErrandMsg := { target := below, htag := 5, descriptor := call, deadline := some 7, sq := 3 }
def doneBelow : CompletionMsg := { device := below, htag := 3, status := 0, result := 9, execPath := below, detail := 0 }
def pageBelow (data : Option (List Byte)) : TunnelMsg :=
  { device := below, htag := 0, address := holdingOfTwo.store.pageAddress 50, length := 64, data := data }
def noDma : State := { holdingOfTwo with link := { holdingOfTwo.link with busMaster := false } }
theorem witness_baton_master :
    (holdingOfTwo.port 1).state = .keyed ∧ goodFlit.seq.toNat = (holdingOfTwo.port 1).rxSeq ∧
      holdingOfTwo.cascade.master = true ∧ holdingOfTwo.memberPresent below = true ∧
      (holdingOfTwo.forwardedBy 3).map (·.1) = some 3 ∧ holdingOfTwo.link.dmaOk = true ∧
      holdingOfTwo.tunnelOk (pageBelow none) 64 false = true ∧
      holdingOfTwo.tunnelOk (pageBelow (some [1, 2])) 2 true = true ∧ holdingOfTwo.cascade.rop = some 1 ∧
      holdingOfTwo.cascade.held = [] ∧ (0#8) ≠ 0xEA ∧ noDma.link.dmaOk = false ∧
      noDma.memberPresent below = true ∧ (noDma.port 1).state = .keyed ∧ noDma.cascade.master = true ∧
      goodFlit.seq.toNat = (noDma.port 1).rxSeq := by decide
theorem witness_baton_member :
    (member.port 0).state = .keyed ∧ goodFlit.seq.toNat = (member.port 0).rxSeq ∧ member.cascade.master = false ∧
      member.store.live = true ∧ member.store.ckPhase = .idle ∧
      hopsOf errandBelow.target = hopsOf member.devicePath ∧ member.cascade.joined = true ∧ (1 : Fin 8) ≠ 0 ∧
      holdingOfTwo.portLive 1 = true ∧ (holdingOfTwo.port 1).waiting = [] ∧ (holdingOfTwo.port 1).mid = [] ∧
      holdingOfTwo.cascade.relaying < 9 ∧ (holdingOfTwo.port 1).unacked.length < 512 := by decide
theorem witness_completion_code :
    completionStatus (0#8).toNat = true ∧ (0#8) ≠ 0xE0 ∧ completionStatus (0x11#8).toNat = false := by decide

/-- Port 2 of the master in a link state, with a flit outstanding. -/
def linkAt (st : LinkState) (times : Nat) : State := { dev with
  cascade := { dev.cascade with
    ports := [(2, {
      state := st, sent := 2 ^ 36, unacked := [{ flit := { type := 4 }, times := times }, { flit := { type := 4, seq := 1 }, times := 1 }] })] } }
theorem witness_links :
    ((linkAt .down 1).port 2).state = .down ∧ (linkAt .down 1).cascade.portEn.getLsbD 2 = true ∧
      (linkAt .down 1).portsDark = false ∧ ((linkAt .training 1).port 2).state = .training ∧
      ((linkAt .failed 1).port 2).state = .failed ∧ ((linkAt .keyed 1).port 2).state = .keyed ∧
      2 ^ 36 * (((linkAt .keyed 1).port 2).keyEpoch + 1) ≤ ((linkAt .keyed 1).port 2).sent ∧
      ((linkAt .keyed 1).port 2).unacked ≠ [] ∧
      (((linkAt .keyed 16).port 2).unacked.any fun x => decide (16 ≤ x.times)) = true ∧
      (((linkAt .keyed 15).port 2).unacked.any fun x => decide (16 ≤ x.times)) = false ∧ (2 : Fin 8) ≠ 0 ∧
      ((linkAt .opened 1).port 2).state = .opened := by decide

/-- The master with JOIN_EN, a device in OPEN below port 1; and a JOIN of it at a step. -/
def joinable : State := { ws with
  cascade := { dev.cascade with ports := [(1, { state := .opened })], joinEn := true } }
def joinOf (step : Nat) : Join := { path := below, serial := 9, devnum := 1, step := step }
def joiningAt (step : Nat) : State := { joinable with
  cascade := { joinable.cascade with
    joins := [joinOf step], entries := [(1, { state := .joining, path := below, serial := 9 })] } }
def joinFailed : State := { joiningAt 4 with
  cascade := { (joiningAt 4).cascade with joins := [{ joinOf 4 with failed := some 2 }] } }
def newDevice : JoinOffer := { path := below, serial := 9 }
def joinSession (signatures : Bool) : JoinSession :=
  { signaturesOk := signatures, chainsOk := true, lc := 3, mode := 1, meas := List.replicate 48 1, secret := List.replicate 32 5 }
theorem witness_joins :
    joinable.childPort newDevice.path = some 1 ∧ joinable.offerHeard newDevice = true ∧
      joinable.numberAt newDevice.path = none ∧ joinable.freeNumber = some 1 ∧ hopsOf newDevice.path ≤ 6 ∧
      joinable.liveEntries < 4095 ∧ (joiningAt 1).cascade.master = true ∧
      ((joiningAt 1).cascade.joins.find? fun k => k.path == below && k.step == 1) = some (joinOf 1) ∧
      (joiningAt 2).cascade.awaiting = some (joinOf 2) ∧ (joiningAt 2).permits 0 0xD020 true 3 ∧
      ((joiningAt 4).cascade.joins.find? fun k => k.path == below && k.ends none) = some (joinOf 4) ∧
      (joinFailed.cascade.joins.find? fun k => k.path == below && k.ends (some 2)) = some { joinOf 4 with failed := some 2 } ∧ joinable.permits 0 0xD002 true 3 := by
  unfold State.permits
  decide +kernel
/-- The master with a remote device to reach, and one that waits for HC_REOPEN. -/
def remoteSet : State := { ws with
  cascade := { holdingOfTwo.cascade with rop := none, rpath := below ||| 0x3000#36 } }
def reopening : State := { holdingOfTwo with
  cascade := { holdingOfTwo.cascade with entries := [(1, { state := .present, wait := true, path := below })] } }
theorem witness_remote :
    remoteSet.permits 0 0xD02B true 3 ∧ remoteSet.cascade.master = true ∧ remoteSet.cascade.rop = none ∧
      remoteSet.ownDevice remoteSet.cascade.rpath = false ∧ remoteSet.cascade.rwait = none ∧
      remoteSet.memberPresent remoteSet.cascade.rpath = true ∧
      (remoteSet.port (remoteSet.portTo remoteSet.cascade.rpath)).state = .keyed ∧ reopening.hostOk ∧
      (reopening.hcEntry (1#12).toNat).state = .present ∧ (reopening.hcEntry (1#12).toNat).wait = true ∧
      reopening.shareIndex (reopening.hcEntry (1#12).toNat).path = some 1 := by
  unfold State.permits State.hostOk
  decide

/-! ### Power -/

/-- No Hand READY or RUNNING; the Reeve's first Hand in WAIT with the host's tolerance long. -/
def quiet : State := { dev with
  hands := [(0, { wsHand with state := .blocked (.wait .timer 1) })]
  cores := [(0, { iram := [(0, 5)], workspace := [(0, 6)] })], power := { dev.power with ltGlobal := 3000000, ltForce := 3000000 } }
def suspended : State := { quiet with link := { quiet.link with d3hot := true } }
def governed (g : GovLevel) : State := { dev with power := { dev.power with gov := g, sprintLock := true } }
def asleep : State := { quiet with power := { quiet.power with state := .slumber } }
theorem witness_power :
    quiet.power.state = .run ∧ 3000000 ≤ quiet.tolerance ∧ quiet.dozeIdle = true ∧ quiet.napIdle = true ∧
      quiet.power.gov ≠ .trip ∧ quiet.link.d3hot = false ∧ quiet.portsDown = true ∧
      quiet.store.restClean = true ∧ quiet.life.session = .closed ∧ quiet.life.scanOpen = false ∧
      quiet.power.state ≠ .dormant ∧ suspended.link.d3hot = true ∧ suspended.portsDown = true ∧
      suspended.linkAwake = true ∧ asleep.power.state = .slumber ∧ asleep.store.atRest = true ∧
      asleep.power.gov ≠ .trip ∧ (governed .stride).power.state ≠ .dormant ∧ suspended.life.session = .closed ∧
      suspended.life.scanOpen = false ∧ dev.hostOk ∧ ws.permits 0 0xC001 true 3 := by
  unfold State.permits State.hostOk
  decide
theorem witness_governor :
    govTarget (governed .stride).power 90 false = none ∧
      govTarget (governed .stride).power 105 false = some (.limp, false) ∧
      govTarget (governed .sprint).power 98 false = some (.stride, true) ∧
      govTarget (governed .limp).power 97 true = some (.stride, true) ∧
      govTarget (governed .stride).power 115 false = some (.trip, false) ∧
      (governed .stride).life.scanOpen = false ∧ (governed .limp).power.rest ≠ 0 := by decide


/-! ### Life cycle and debug -/

/-- Fuse state 2 (IN_SERVICE) with its three copies and a HEALTHY source; and a session open with all rights. -/
def inService : State := { dev with
  life := { dev.life with fuse := 2, copy0 := 0x33333333, copy1 := 0x33333333, copy2 := 0x33333333 }
  entropy := (entropySet .healthy).entropy }
def sessionOf (s : State) (rights : BitVec 10) (scan : Bool) : State := { s with
  life := { s.life with session := .opened, rights := rights, scanUsed := scan, powerHold := true, notAfter := some 100 } }
def challenged : State := { inService with
  life := { inService.life with nonce := some (List.replicate 32 1), session := .challenged } }
/-- Hand 0 at WS with that session. -/
def sessionHand : State := { sessionOf ws 0x3FF false with watch := { dev.watch with rtcSec := 100 } }
def seedHeld : State := { inService with entropy := { inService.entropy with pool := [List.replicate 48 1] } }
theorem witness_debug_sessions :
    seedHeld.seedsOwed < seedHeld.entropy.pool.length ∧ inService.entropy.pool.length ≤ inService.seedsOwed ∧
      seedHeld.mailboxLive = true ∧ seedHeld.life.inService = true ∧ seedHeld.anyHealthy = true ∧
      inService.mailboxLive = true ∧ inService.life.inService = true ∧ inService.life.session ≠ .opened ∧
      inService.power.state ≠ .slumber ∧ inService.anyHealthy = true ∧ freeRights dev.life.effective ≠ 0 ∧
      dev.life.deny = false ∧ dev.mailboxLive = true ∧ dev.life.session ≠ .opened ∧
      challenged.certRefusal [] ≠ none ∧ (sessionOf inService 1 false).life.session = .opened ∧
      (sessionOf inService 1 false).life.scanUsed = false ∧ (sessionOf inService 1 true).life.scanUsed = true ∧
      challenged.life.nonce ≠ none ∧ sessionHand.life.notAfter = some 100 ∧ 100 ≤ sessionHand.watch.rtcSec ∧
      sessionHand.permits 0 0xE009 true 3 ∧ (1#36).getLsbD 0 = true ∧ (0#36).getLsbD 0 = false := by
  unfold State.permits
  decide
/-- A certificate that the key in ROM signed passes once its other fields do: the constants of a part are opaque here. -/
theorem witness_certificate_passes (c : List Byte) (s : State) (nonce : List Byte) (h1 : s.life.effective ≠ 5)
    (h2 : s.power.state ≠ .slumber) (h3 : s.life.deny = false) (h4 : s.life.nonce = some nonce)
    (h5 : ¬(certField c 0 4 ≠ 0x42584443 ∨ certField c 4 1 ≠ 1 ∨ 8 ≤ certField c 5 1 ∨ 1024 ≤ certField c 6 2
      ∨ certField c 0x3C 4 ≠ 0)) (h6 : sha384 ((c.drop 0x40).take 96) = Config.debugKeyHash)
    (h7 : p384.verify (certField c 0x40 48, certField c 0x70 48) (sha384 (c.take 160)) (certField c 0xA0 48)
      (certField c 0xD0 48) = true)
    (h8 : certField c 8 8 = Config.serial.toNat) (h9 : (c.drop 0x10).take 32 = nonce)
    (h10 : lcMaskHas (certField c 5 1) s.life.fuse.toNat = true) (h11 : s.watch.rtcValid = true)
    (h12 : certField c 0x30 6 ≤ s.watch.rtcSec) (h13 : s.watch.rtcSec < certField c 0x36 6) :
    s.certRefusal c = none := by
  unfold State.certRefusal
  simp_all
  rw [if_neg (by omega), if_neg (by omega), if_neg (by omega)]

/-- Hand 0 at WS in fuse state 2; an advance to 3 under way; one to TERMINATED; the debug window in FACTORY. -/
def lifeHand : State := { ws with life := inService.life }
def advancing (target : Byte) : State := { inService with
  life := { inService.life with blowing := some target }, vault := (vaultSet 0 0 0 0 0 []).vault }
def window : State := { dev with life := { dev.life with fuse := 1, window := true } }
def blankOpen : State := { dev with life := { (sessionOf dev 0xFF false).life with fuse := 0 } }
theorem witness_advances :
    lifeHand.permits 0 0xE001 true 3 ∧ (252#8).toNat = 255 - (3#8).toNat ∧
      lifeHand.advanceRefusal false (3#8).toNat = none ∧ lifeHand.advanceRefusal false (1#8).toNat = some 1 ∧
      blankOpen.mailboxLive = true ∧ blankOpen.life.session = .opened ∧ blankOpen.life.effective < 2 ∧
      blankOpen.advanceRefusal true (5#8).toNat = none ∧ (advancing 3).life.blowing = some 3 ∧
      (advancing 5).life.blowing = some 5 ∧ window.mailboxLive = true ∧ window.trialRefusal 0 0x11 [] = none ∧
      window.trialRefusal 0 0x14 [] ≠ none := by
  unfold State.permits
  decide

/-- An open session over Hand 0, with a device ACU that allows everything, and one without rights. -/
def debugging (rights : BitVec 10) : State := { sessionOf ws rights false with
  devAcu := { rules := { ctrl := 0x1023FF#36 }, old := { ctrl := 0x1023FF#36 } }, cores := [(0, { iram := [(4, 9)] })] }
def debugHalted : State := { debugging 0x3FF with hands := [(0, { (debugging 0x3FF).hand 0 with halted := true })] }
def debugProg : State := { debugging 0x3FF with
  flash := { (debugging 0x3FF).flash with bank1 := { op := some { op := 1, addr := 0x800000 } } } }
theorem witness_debug_idle_banks :
    ∀ b, (debugging 0x3FF).flash.programming b = false :=
  by decide
theorem witness_debug_waits :
    debugProg.mailboxLive = true ∧ debugProg.life.has 6 = true ∧ (3 : Nat) ≠ 0 ∧
      debugProg.flash.programming (bankOf (0x800000 % 2 ^ 24)) = true ∧
      ((debugging 0x3FF).source 0).state ≠ .testPattern := by decide
theorem witness_debug_commands :
    (debugging 0x3FF).mailboxLive = true ∧ (debugging 0x3FF).mayHaltHand 0 = true ∧
      (debugHalted.hand 0).halted = true ∧ debugHalted.mayHaltHand 0 = true ∧
      (debugging 0).mayHaltHand 0 = false ∧ (debugging 0x3FF).life.session = .opened ∧
      (debugging 0x3FF).power.state = .run ∧ (debugging 0x3FF).power.wakeOwed = false ∧
      (debugging 0x3FF).deviceView.2 = debugging 0x3FF ∧
      (debugging 0x3FF).debugRefusal (debugging 0x3FF).deviceView.1 4 1 false = none ∧
      (debugging 0x3FF).debugRefusal (debugging 0x3FF).deviceView.1 4 1 true = none ∧
      (debugging 0).debugRefusal (debugging 0).deviceView.1 4 2 false ≠ none ∧
      (debugging 0).debugRefusal (debugging 0).deviceView.1 4 1 true ≠ none ∧
      (debugging 0x3FF).life.has 9 = true ∧ (debugging 0x3FF).life.has 4 = true ∧
      (debugging 0x3FF).life.has 6 = true ∧ (debugging 0x3FF).life.has 7 = true ∧
      (debugging 0x3FF).life.has 8 = true ∧ (debugging 0).life.has 6 = false ∧ (debugging 0).life.has 7 = false ∧
      (debugging 0).life.has 8 = false ∧ (debugging 0x3FF).life.has 5 = true ∧ (debugging 0).life.has 5 = false ∧
      (debugging 0).life.has 9 = false := by decide
theorem witness_test_port : dev.tapLive = true ∧ dev.startup.inReset = false := by decide

/-! ### The Watch domain -/

/-- Monitor 20 with a response written, BBKR present. -/
def monitored (resp : Nat) : State := { dev with
  watch := { dev.watch with mons := [(20, { en := true, resp := resp, n := 0, w := 0 })], bbkr := some [1] }
  vault := (vaultSet 0 0 0 0 0 []).vault, store := storeOpen }
def darkened : State := { dev with
  watch := { dev.watch with mainDark := true, mons := [(0, { en := true, resp := 1, n := 0, w := 0 })], bbkr := some [1] } }
def selfTesting : State := { dev with watch := { dev.watch with testRun := some 20 } }
theorem witness_watch_alarms :
    dev.liveAlarms ((([0] : List (Fin 28)).map (·.val)).eraseDups) = [] ∧
      (monitored 1).liveAlarms ((([20] : List (Fin 28)).map (·.val)).eraseDups) = [20] ∧
      (monitored 1).watch.mainDark = false ∧ (monitored 1).power.state ≠ .dormant ∧
      (monitored 1).life.scanOpen = false ∧ (monitored 1).monResp 20 = 1 ∧ (monitored 2).monResp 20 = 2 ∧
      (monitored 3).monResp 20 = 3 ∧ (monitored 4).monResp 20 = 4 ∧ (monitored 5).monResp 20 = 5 ∧
      (monitored 2).liveAlarms [20] = [20] ∧ (monitored 3).liveAlarms [20] = [20] ∧
      (monitored 4).liveAlarms [20] = [20] ∧ (monitored 5).liveAlarms [20] = [20] ∧
      darkened.liveAlarms [0] = [0] ∧ darkened.watch.mainDark = true ∧ ws.permits 0 0xB003 true 3 ∧
      selfTesting.watch.testRun = some 20 := by
  unfold State.permits
  decide +kernel
/-- Hand 0 at WS: the battery gone; the monitors locked; an alarm latched. -/
def noBattery : State := { dev with watch := { dev.watch with noVbat := true, tampered := true, wlock := true } }
def monLocked : State := { ws with watch := { (monitored 3).watch with mlock := true } }
def haltedWatch : State := { ws with
  watch := { dev.watch with halted := true, latch := 8, strongLatch := 8, log := [{ sec := 0, mon := 3, resp := 2, main := true }] } }
theorem witness_watch_registers :
    dev.watch.noVbat = false ∧ noBattery.watch.noVbat = true ∧ haltedWatch.permits 0 0xB002 true 3 ∧
      monLocked.permits 0 (0xB008 + (20 : Fin 28).val) true 3 ∧ monLocked.watch.mlock = true ∧
      ws.watch.mlock = false ∧ ws.permits 0 (0xB008 + (27 : Fin 28).val) true 3 ∧ ws.permits 0 0xB005 true 3 ∧
      ws.permits 0 0xB005 false 3 := by
  unfold State.permits
  and_intros <;> decide

/-! ### Cards -/

/-- Hand 0 at WS with gate A in a mode and state, claimed by a Hand or by none. -/
def gateSet (mode state : Nat) (owner : Option Nat) (op : Option Word) (seat : Nat) : State := { ws with
  gateA := { dev.gateA with mode := mode, state := state, owner := owner, op := op, seats := [(1, { state := seat })] } }
theorem witness_card_commands :
    (gateSet 1 3 (some 0) none 0).permits 0 (gateBase false + 3) true 3 ∧
      (gateSet 1 0 none none 0).gateA.owner ≠ some 0 ∧ (gateSet 1 3 (some 0) (some 9) 0).gateA.op ≠ none ∧
      (gateSet 1 0 (some 0) none 0).cardRefusal false (cardWord 1 0 0 0) = none ∧
      (gateSet 1 3 (some 0) none 0).cardRefusal false (cardWord 2 0 0 0) = none ∧
      (gateSet 1 3 (some 0) none 0).cardRefusal false (cardWord 3 261 0 0) = none ∧
      (gateSet 2 0 (some 0) none 0).cardRefusal false (cardWord 4 0 0 0) = none ∧
      (gateSet 2 3 (some 0) none 1).cardRefusal false (cardWord 5 0 1 127) = none ∧
      (gateSet 2 3 (some 0) none 1).cardRefusal false (cardWord 6 0 1 1) = none ∧
      (gateSet 2 3 (some 0) none 1).cardRefusal false (cardWord 7 0 1 0) = none ∧
      (gateSet 2 3 (some 0) none 2).cardRefusal false (cardWord 8 0 1 0) = none ∧
      (gateSet 2 3 (some 0) none 1).cardRefusal false (cardWord 9 8 1 0) = none ∧
      (gateSet 0 0 (some 0) none 0).cardRefusal false (cardWord 1 0 0 0) = some 0xD4 ∧
      (gateSet 2 3 (some 0) none 0).cardRefusal false (cardWord 7 0 1 0) = some 0xD6 := by
  unfold State.permits
  decide
/-- A READ and a WRITE under way at seat 1, an ISO card in use, and one whose clock may stop. -/
def anIntent : Intent :=
  { gate := false, seat := 1, block := 1, serial := 0, oldCount := 0, crc := 0, jseq := 0 }
def reading : State := gateSet 2 4 (some 0) (some (cardWord 5 0 1 1)) 1
def writing : State := { gateSet 2 4 (some 0) (some (cardWord 6 0 1 1)) 1 with
  gateA := { (gateSet 2 4 (some 0) (some (cardWord 6 0 1 1)) 1).gateA with intent := some anIntent, freeOwed := true }
  journal := { dev.journal with pending := [anIntent] } }
def cardIn : State := { gateSet 1 3 (some 0) (some (cardWord 3 5 0 0)) 0 with
  gateA := { (gateSet 1 3 (some 0) (some (cardWord 3 5 0 0)) 0).gateA with pres := true, clockStop := some true } }
theorem witness_card_gates :
    reading.gateA.op = some (cardWord 5 0 1 1) ∧ cgOp (cardWord 5 0 1 1) = 5 ∧
      (List.replicate 64 (1 : Byte)).length = 64 ∧ writing.gateA.op = some (cardWord 6 0 1 1) ∧
      cgOp (cardWord 6 0 1 1) = 6 ∧ writing.gateA.intent ≠ none ∧ cardIn.gateA.pres ≠ false ∧
      dev.gateA.pres ≠ true ∧ cardIn.gateA.mode = 1 ∧ (gateSet 1 3 none none 0).gateA.pres ≠ true ∧
      2 ≤ cardIn.gateA.state ∧ cardIn.gateA.clockStop = some true ∧ cardIn.gateA.state = 3 ∧
      cardIn.gateA.clkStopped = none ∧ ws.permits 0 (gateBase false + 2) true 3 ∧
      (gateSet 1 3 (some 0) none 0).permits 0 (gateBase false + 6) true 3 ∧
      (gateSet 1 3 (some 0) none 0).permits 0 (gateBase false + 6) false 3 ∧
      (gateSet 1 3 (some 0) none 0).gateA.owner = some (0 : HandId).val ∧
      (gateSet 1 3 (some 0) none 0).permits 0 (gateBase false) true 3 ∧
      (gateSet 1 3 (some 0) none 0).gateA.op = none ∧ wfield (2#36) 1 0 ≤ 2 := by
  unfold State.permits
  and_intros <;> decide

/-! ### The Custody Tag -/

/-- The cells of a page in its first slot; a tag in a field state with one system page written: 60 with the password and
K, 61 with eight failures, 62 with page 2 writable in SECURED_PWD. -/
def pageCells (page : Nat) (d : List Byte) : List (Nat × Byte) :=
  List.zipWith (fun i o => (tagSlotAt page false + i, o)) (List.range 128) (padTo 120 d ++ tagMarker page 1 (padTo 120 d))
def cells60 : List (Nat × Byte) := pageCells 60 (tagSecrets (some (List.replicate 8 1)) (some (List.replicate 16 2)))
def cells61 : List (Nat × Byte) := pageCells 61 [8, 0, 0]
def cells62 : List (Nat × Byte) := pageCells 62 (beOctets 4 0x911)
def tagWith (nv : List (Nat × Byte)) (f : FieldState) : State := { dev with tag := { nv := nv, field := f, uid := 0x08000005 } }
def tagIn (f : FieldState) : State := tagWith [] f
def tagAuth : State := { tagWith cells60 .opened with
  tag := { (tagWith cells60 .opened).tag with rndT := some (List.replicate 16 3) } }
def tagLocked : State := tagWith cells61 .opened
def tagDelayed : State := { tagIn .opened with tag := { (tagIn .opened).tag with delay := true } }
def tagBare : State := { dev with tag := { field := .opened, rndT := some (List.replicate 16 3) } }
def tagStrong : State := { dev with tag := { field := .securedAes, sk := some (List.replicate 16 4) } }
def tagWriting : State := { tagIn .none with tag := { fieldWrite := some (5, List.replicate 120 7) } }
/-- A page put into a tag's first slot is the current one: the marker's CRC is compared, not evaluated. -/
theorem slot_cells (g : Tag) (page : Nat) (d m : List Byte) (hd : d.length = 120) (hm : m.length = 8)
    (h : g.nv = List.zipWith (fun i o => (tagSlotAt page false + i, o)) (List.range 128) (d ++ m)) :
    g.slot page false = d ++ m ∧ g.slot page true = List.replicate 128 0xFF#8 := by
  have hl : (d ++ m).length = 128 := by simp [hd, hm]
  rw [← hl] at h
  constructor
  · rw [Tag.slot, h, ← hl]
    exact agetRun_cells _ _ _
  · rw [Tag.slot, h, agetRun, ← hl]
    apply List.ext_getElem (by simp)
    intro i h1 h2
    simp only [List.getElem_map, List.getElem_range, List.getElem_replicate]
    exact aget_cells_past _ _ _ _ (by rw [hl]; simp [tagSlotAt])
theorem page_60 : tagAuth.tag.readPage 60 = padTo 120 (tagSecrets (some (List.replicate 8 1)) (some (List.replicate 16 2))) :=
  have h := slot_cells tagAuth.tag 60 _ _ (by decide) (length_tagMarker 60 1 _) rfl
  readPage_first _ 60 _ (by decide) h.1 h.2
theorem page_61 : tagLocked.tag.readPage 61 = padTo 120 [8, 0, 0] :=
  have h := slot_cells tagLocked.tag 61 _ _ (by decide) (length_tagMarker 61 1 _) rfl
  readPage_first _ 61 _ (by decide) h.1 h.2
theorem page_62 : (tagWith cells62 .securedPwd).tag.readPage 62 = padTo 120 (beOctets 4 0x911) :=
  have h := slot_cells (tagWith cells62 .securedPwd).tag 62 _ _ (by decide) (length_tagMarker 62 1 _) rfl
  readPage_first _ 62 _ (by decide) h.1 h.2
theorem witness_tag_states :
    (tagIn .none).tag.field = .none ∧ (tagIn .idle).tag.field ≠ .none ∧ (tagIn .idle).watch.mainDark = false ∧
      (tagIn .ready).tag.cascadeBits.take 3 = [false, false, false] ∧ (tagIn .ready).tag.uid = 0x08000005 ∧
      FieldState.opened.held = true ∧ (1 : BitVec 2) ≠ 3 := by decide +kernel
theorem witness_tag_commands :
    (tagIn .opened).tag.fieldWrite = none ∧ (tagIn .opened).tag.fieldWait = none ∧
      meets (tagIn .opened).tag.field.level ((tagIn .opened).tag.rd 0) = true ∧
      meets (tagIn .opened).tag.field.level ((tagIn .opened).tag.rd 36) = false ∧
      (List.replicate 120 (7 : Byte)).length = 120 ∧ (tagWith cells62 .securedPwd).tag.wiredOwns 2 = false ∧
      meets (tagIn .opened).tag.field.level ((tagIn .opened).tag.wr 36) = false ∧
      (tagIn .opened).tag.pwdFails < 8 ∧ tagAuth.tag.pwdFails < 8 ∧
      (tagIn .opened).tag.pwd? ≠ some (List.replicate 8 2) ∧ (tagIn .opened).tag.delay = false ∧
      tagDelayed.tag.delay = true ∧ tagAuth.tag.rndT = some (List.replicate 16 3) ∧ tagBare.tag.keySet = false ∧
      (tagIn .opened).tag.rndT = none ∧ tagStrong.tag.sk = some (List.replicate 16 4) ∧
      tagStrong.tag.cnt + 1 < 2 ^ 32 ∧
      tagWriting.tag.fieldWrite = some (5, List.replicate 120 7) := by decide +kernel
theorem witness_tag_password : tagAuth.tag.pwd? = some (List.replicate 8 1) ∧ tagAuth.tag.keySet = true := by
  obtain ⟨h1, h2, h3, _⟩ := key_page _ _ page_60
  rw [Tag.pwd?, h1, h2, h3]
  decide
theorem witness_tag_locked : 8 ≤ tagLocked.tag.pwdFails := by
  rw [pwdFails_page _ _ page_61]
  decide
theorem witness_tag_writable : meets (tagWith cells62 .securedPwd).tag.field.level
    ((tagWith cells62 .securedPwd).tag.wr 2) = true := by
  have h := slot_cells (tagWith cells62 .securedPwd).tag 62 _ _ (by decide) (length_tagMarker 62 1 _) rfl
  have hc := current_first _ 62 _ (by decide) h.1 h.2
  rw [Tag.wr, Tag.level, storedAcl_page _ _ _ _ hc page_62]
  decide
/-- The proof of a reader that holds K is of 16 octets, and no MAC is empty. -/
theorem witness_tag_proof : (tagAuth.tag.proof 0x52 (List.replicate 16 3) (List.replicate 16 0)).length = 16 ∧
    tagMac (List.replicate 16 4) 1 0 [1] ≠ [] := by
  constructor
  · refine length_aesCmac _ _ ?_
    rw [(key_page _ _ page_60).2.2.2]
    unfold aesKeyOk
    decide +kernel
  · intro h
    have hk : aesKeyOk (List.replicate 16 4) := by unfold aesKeyOk; decide +kernel
    have := length_aesCmac (List.replicate 16 4) (beOctets 1 1 ++ beOctets 4 0 ++ [1]) hk
    have e := congrArg List.length h
    simp only [tagMac, List.length_take, this] at e
    cases e

/-- Hand 0 at WS over the tag's wired side, idle and running a command. -/
def wired : State := { ws with
  tag := { field := .idle, summaryOwed := true }
  vault := { dev.vault with mode := .opened, slots := [(0, { attr := attrWord 0x10 0 1 false false true false, material := List.replicate 16 7 })] } }
def wiredRuns (pages : List (Nat × List Byte)) : State := { wired with
  tag := { wired.tag with cmd := some (wd (3 * 2 ^ 32)), writes := pages } }
theorem witness_tag_wired :
    wired.permits 0 0xA002 true 3 ∧ wired.tagWired = true ∧ wired.tag.cmd = none ∧
      wired.wiredRefusal (wd (1 * 2 ^ 32 + 59)) = none ∧ wired.wiredRefusal (wd (2 * 2 ^ 32 + 2)) = none ∧
      wired.wiredRefusal (wd (3 * 2 ^ 32)) = none ∧ wired.wiredRefusal (wd (4 * 2 ^ 32)) = none ∧
      wired.wiredRefusal (wd (5 * 2 ^ 32)) = none ∧ wired.wiredRefusal (wd (6 * 2 ^ 32)) = none ∧
      wired.wiredRefusal (wd (7 * 2 ^ 32)) = none ∧ wired.wiredRefusal (wd (2 * 2 ^ 32 + 60)) = some 0xDA ∧
      (wiredRuns []).tag.cmd = some (wd (3 * 2 ^ 32)) ∧ (wiredRuns []).tag.writes = [] ∧
      (wiredRuns [(0, []), (1, [])]).tag.writes = (0, []) :: [(1, [])] ∧
      (wiredRuns [(1, [])]).tag.writes = (1, []) :: [] ∧ wired.tag.summaryOwed = true ∧
      wired.startup.pfw = false ∧ wired.permits 0 0xA001 true 3 := by
  unfold State.permits
  decide +kernel

/-! ### Start-up -/

/-- Held in reset with the rails good; likewise in TERMINATED, and warned of a power failure. -/
def held : State := { dev with startup := { dev.startup with inReset := true }, link := { dev.link with perst := true } }
def heldEnd : State := { held with
  life := { dev.life with copy0 := 0xFFFFFFFF, copy1 := 0xFFFFFFFF, copy2 := 0xFFFFFFFF } }
def heldWarned : State := { held with startup := { held.startup with pfw := true } }
def windowOpen : State := { window with startup := { window.startup with pfw := false } }
/-- Hand 0 at WS before STEWARD_GO, and in MODE RECOVERY; a Recovery image under way. -/
def beforeGo : State := { ws with steward := { ws.steward with started := false } }
def recovery : State := { dev with link := { dev.link with mode := 3 } }
def recovering : State := { recovery with startup := { recovery.startup with rcvState := 1, rcvWords := 53 } }
theorem witness_start_up :
    held.startup.inReset = true ∧ held.startup.rails = true ∧ held.watch.mainDark = false ∧
      held.startup.pfw = false ∧ held.life.vote.effective ≠ 5 ∧ heldEnd.life.vote.effective = 5 ∧
      heldWarned.startup.pfw = true ∧ windowOpen.life.window = true ∧ windowOpen.startup.pfw = false ∧
      windowOpen.life.effective ≠ 0 ∧ dev.watch.mainDark = false ∧ ws.permits 0 0xE041 true 3 ∧
      beforeGo.permits 0 0xE041 true 3 ∧ beforeGo.steward.started = false ∧ ws.steward.started = true ∧
      ws.permits 0 0xE042 true 3 ∧ ws.startup.wdPeriod < 65536 ∧ ws.permits 0 0xE043 true 3 ∧ dev.hostOk ∧
      dev.link.mode ≠ 3 ∧ recovery.hostOk ∧ recovery.link.mode = 3 ∧ recovery.startup.rcvState ≠ 1 ∧
      recovery.link.dmaOk = true ∧ recovering.startup.rcvState = 1 ∧ recovering.startup.pfw = false ∧
      (packIn .raw36 (([] : List Byte).take (recovering.startup.rcvWords * 8))).length ≠ recovering.startup.rcvWords := by
  unfold State.permits State.hostOk
  and_intros <;> decide +kernel
/-- A Recovery image whose key and signature hold is good: the hash of the boot key is opaque here. -/
theorem witness_good_image (img : List Word) (n entry resident : Nat) (h0 : img.getD 0 0 = wd 0o167141162144)
    (h2 : wfield (img.getD 2 0) 35 20 = 0) (hn : wfield (img.getD 2 0) 19 0 = n) (n1 : 1 ≤ n) (n2 : n ≤ 1048508)
    (h4 : wfield (img.getD 4 0) 35 32 = 0) (he : wfield (img.getD 4 0) 31 16 = entry)
    (hr : wfield (img.getD 4 0) 15 0 = resident) (r1 : 1 ≤ resident) (r2 : resident ≤ 32768) (e1 : entry < resident)
    (hk : sha384 (packOut .loose ((img.drop (n + 4)).take 24) 96) = Config.bootKeyHash)
    (hs : p384.verify (beNat ((packOut .loose ((img.drop (n + 4)).take 24) 96).take 48),
        beNat ((packOut .loose ((img.drop (n + 4)).take 24) 96).drop 48)) (sha384 (words40 (img.take (n + 4))))
      (beNat ((packOut .loose ((img.drop (n + 28)).take 24) 96).take 48))
      (beNat ((packOut .loose ((img.drop (n + 28)).take 24) 96).drop 48)) = true) : imageOk img = true := by
  unfold imageOk
  simp_all
def bootTests (kat : Bool) : BootTests := { katOk := kat, badLanes := [], badSlices := [], badMonitors := [] }


/-! ### The invariants -/

/-- A device with blown bits, a spent token and a Watch Log entry; with a command waiting it steps. -/
def stepping : State := { inService with
  life := { inService.life with spent := [7] }
  watch := { dev.watch with mons := [(0, { en := true, resp := 1, n := 0, w := 0 })]
                            log := [{ sec := 0, mon := 3, resp := 2, main := true }] } }
/-- An advance under way from IN_SERVICE to FAILURE_ANALYSIS. -/
def cutting : LifeCycle := { inService.life with copy0 := codeword 2, copy1 := codeword 2, copy2 := codeword 2, blowing := some 3 }
theorem witness_invariants : (∃ t, step { stepping with pending := [.monitorAlarm [0]] } = .next t) ∧ stepping.life.copy0 &&& 0x33333333 = 0x33333333 ∧
    stepping.life.copy1 &&& 0x33333333 = 0x33333333 ∧ stepping.life.copy2 &&& 0x33333333 = 0x33333333 ∧
    7 ∈ stepping.life.spent ∧ stepping.watch.bounded := by
  refine ⟨⟨_, rfl⟩, by decide, by decide, by decide, by decide, ?_⟩
  unfold Watch.bounded
  decide
theorem witness_cut_advances :
    isAdvance 2 3 = true ∧ cutting.fuse = BitVec.ofNat 8 2 ∧ cutting.copy0 = codeword 2 ∧
      cutting.copy1 = codeword 2 ∧ cutting.copy2 = codeword 2 ∧ cutting.blowing = some (BitVec.ofNat 8 3) ∧
      (cutting.blowFirst 10).vote.fuse = 2 ∧ (cutting.blowFirst 11).vote.fuse = 3 := by decide


/-! ### Small tests of single commands, from the spec's own words -/

/-- A next state that a test accepts. -/
def answers (o : Host.Outcome State Fault Refusal) (p : State → Bool) : Bool :=
  match o with
  | .next t => p t
  | _ => false
theorem test_and_bits :
    answers (exec (.and 0 3 1 2) ws) (fun t => decide (t = ws.result 0 3 5)) = true := by decide +kernel
theorem test_clz_of_zero_is_36 :
    answers (exec (.clz 0 3 0) ws) (fun t => decide (t = ws.result 0 3 36)) = true := by decide +kernel
theorem test_ror_takes_count_mod_36 :
    answers (exec (.ror 0 3 1 4) wsEnds)
      (fun t => decide (t = wsEnds.result 0 3 ((0x7FFFFFFFF#36).rotateRight (0xFFFFFFFFF)))) = true := by decide +kernel
theorem test_sll_past_width :
    answers (exec (.sll 0 3 1 4) wsEnds) (fun t => decide (t = wsEnds.result 0 3 0)) = true := by decide +kernel
theorem test_sra_past_width :
    answers (exec (.sra 0 5 3 4) wsEnds)
      (fun t => decide (t = wsEnds.result 0 5 0xFFFFFFFFF#36)) = true := by decide +kernel
theorem test_lui :
    answers (exec (.lui 0 3 0x3FFFF) ws)
      (fun t => decide (t = ws.result 0 3 0xFFFFC0000#36)) = true := by decide +kernel
theorem test_slti_sign_extends :
    answers (exec (.slti 0 3 1 0x3FFFF) ws) (fun t => decide (t = ws.result 0 3 0)) = true := by decide +kernel
theorem test_sltiu_compares_unsigned :
    answers (exec (.sltiu 0 3 1 0x3FFFF) ws) (fun t => decide (t = ws.result 0 3 1)) = true := by decide +kernel
theorem test_add_sets_carry :
    answers (exec (.add 0 3 1 4) wsEnds)
      (fun t => decide (t = wsEnds.resultSt 0 3 0x7FFFFFFFE#36 (setCy (wsEnds.status 0) true))) = true := by decide +kernel
theorem test_sub_sets_borrow :
    answers (exec (.sub 0 3 2 1) wsEnds)
      (fun t => decide (t = wsEnds.resultSt 0 3 (1 - 0x7FFFFFFFF#36) (setCy (wsEnds.status 0) true))) = true := by decide +kernel
theorem test_mulh_signed :
    answers (exec (.mulh 0 5 3 2) wsEnds)
      (fun t => decide (t = wsEnds.result 0 5 0xFFFFFFFFF#36)) = true := by decide +kernel
theorem test_mulhu_unsigned :
    answers (exec (.mulhu 0 5 3 4) wsEnds)
      (fun t => decide (t = wsEnds.result 0 5 0x7FFFFFFFF#36)) = true := by decide +kernel
theorem test_addv_precise_trap :
    answers (exec (.addv 0 3 1 2) wsPrecise)
      (fun t => decide (t = wsPrecise.takeException 0 8 100 false 100)) = true := by decide +kernel
theorem test_addv_imprecise :
    answers (exec (.addv 0 3 1 2) wsEnds)
      (fun t => decide (t = (wsEnds.resultSt 0 3 0x800000000#36 (setCy (wsEnds.status 0) false)).pendImprecise 0 8 100)) = true := by decide +kernel
theorem test_div_by_zero :
    answers (exec (.div 0 4 1 3) ws)
      (fun t => decide (t = (ws.result 0 4 0xFFFFFFFFF#36).pendImprecise 0 9 100)) = true := by decide +kernel
theorem test_rem_by_zero :
    answers (exec (.rem 0 4 1 3) ws)
      (fun t => decide (t = (ws.result 0 4 5).pendImprecise 0 9 100)) = true := by decide +kernel
theorem test_div_overflow :
    answers (exec (.div 0 5 3 4) wsEnds)
      (fun t => decide (t = wsEnds.result 0 5 0x800000000#36)) = true := by decide +kernel
theorem test_dadd :
    answers (exec (.dadd 0 3 1 2) ws)
      (fun t => decide (t = ws.resultSt 0 3 0x12#36 (ws.status 0))) = true := by decide +kernel
theorem test_dsub_borrows :
    answers (exec (.dsub 0 3 1 2) ws)
      (fun t => decide (t = ws.resultSt 0 3 0x999999998#36 (setCy (ws.status 0) true))) = true := by decide +kernel
theorem test_ext_bit_35 :
    answers (exec (.ext 0 3 3 35 0) wsEnds) (fun t => decide (t = wsEnds.result 0 3 1)) = true := by decide +kernel
theorem test_ins_bit_35 :
    answers (exec (.ins 0 5 2 35 0) wsEnds)
      (fun t => decide (t = wsEnds.result 0 5 0x800000000#36)) = true := by decide +kernel
theorem test_slli_36_illegal :
    answers (exec (.slli 0 1 1 36) ws)
      (fun t => decide (t = ws.takeException 0 2 100 false (t.hand 0).faa)) = true := by decide +kernel
theorem test_reserved_opcode :
    answers (exec (.reservedOpcode 0 0xFFFFFFFFF#36) ws)
      (fun t => decide (t = ws.takeException 0 2 100 false 0xFFFFFFFFF#36)) = true := by decide +kernel
theorem test_ld_arrives_late :
    answers (exec (.ld 0 9 1 0) mem)
      (fun t => decide (t = mem.retire 0 none (some (9, 3)) 101)) = true := by decide +kernel
theorem test_lwr_reserves :
    answers (exec (.lwr 0 9 1 0) mem)
      (fun t => decide ((t.hand 0).resv = some { ea := 8, loc := .workspace 0 1032 } ∧
      (t.hand 0).delay = some (9, 3))) = true := by decide +kernel
theorem test_swc_fails_without_reservation :
    answers (exec (.swc 0 2 1 0) mem)
      (fun t => decide (t = ((mem.setHand 0 { mem.hand 0 with resv := none }).retire 0 (some (2, 0)) none 101))) = true := by decide +kernel
theorem test_swc_stores_with_reservation :
    answers (exec (.swc 0 2 1 0) memResv) (fun t => decide (t.readLoc (.workspace 0 1032) = 7 ∧ t.rg 0 2 = 1 ∧
      (t.hand 4).resv = none ∧ (t.hand 0).resv = none)) = true := by decide +kernel
theorem test_ld_outside_space :
    answers (exec (.ld 0 9 5 0) mem)
      (fun t => decide (t = mem.takeException 0 4 100 false 0x1000000)) = true := by decide +kernel
theorem test_st_at_the_edge :
    answers (exec (.st 0 9 7 0) mem)
      (fun t => decide (t = mem.takeException 0 5 100 false 0x7FFF)) = true := by decide +kernel
theorem test_wfill :
    answers (exec (.wfill 0 1 2 3 none) mem) (fun t => decide (t.readLoc (.workspace 0 1032) = 7 ∧
      t.readLoc (.workspace 0 1033) = 7 ∧ t.rg 0 1 = 10 ∧ t.rg 0 3 = 0 ∧ (t.hand 0).pc = 101 ∧
      t.readLoc (.workspace 0 1034) = 0 ∧ t.rg 0 2 = 7)) = true := by decide +kernel
theorem test_wmov :
    answers (exec (.wmov 0 4 1 3 none) mem) (fun t => decide (t.readLoc (.workspace 0 1040) = 3 ∧
      t.readLoc (.workspace 0 1041) = 0xFFFFFFFFF#36 ∧ t.rg 0 4 = 18 ∧ t.rg 0 1 = 10 ∧ t.rg 0 3 = 0 ∧
      (t.hand 0).pc = 101)) = true := by decide +kernel
theorem test_jmp :
    answers (exec (.jmp 0 7) ws) (fun t => decide (t = ws.retire 0 none none 7)) = true := by decide +kernel
theorem test_blt_signed :
    answers (exec (.blt 0 3 1 7) wsEnds)
      (fun t => decide (t = wsEnds.retire 0 none none 7)) = true := by decide +kernel
theorem test_bltu_unsigned :
    answers (exec (.bltu 0 3 1 7) wsEnds)
      (fun t => decide (t = wsEnds.retire 0 none none 101)) = true := by decide +kernel
theorem test_call_trap :
    answers (exec (.call 0 7) stackTrap)
      (fun t => decide (t = stackTrap.takeException 0 6 100 false 101)) = true := by decide +kernel
theorem test_ret_trap :
    answers (exec (.ret 0) stackEmptyTrap)
      (fun t => decide (t = stackEmptyTrap.takeException 0 7 100 false 0)) = true := by decide +kernel
theorem test_eret_from_ws :
    answers (exec (.eret 0) wsSaved) (fun t => decide ((t.hand 0).pc = 44 ∧
      (t.hand 0).st = wsetBit 0x540000001#36 30 false ∧ (t.hand 0).gw = false ∧
      (t.hand 0).gc = true)) = true := by decide +kernel
theorem test_eret_from_cs :
    answers (exec (.eret 0) csSaved) (fun t => decide ((t.hand 0).pc = 44 ∧ (t.hand 0).st = 0x100000001#36 ∧
      (t.hand 0).gc = false ∧ (t.hand 0).gw = true)) = true := by decide +kernel
theorem test_syscall_saves_next_pc :
    answers (exec (.syscall 0 2) ws)
      (fun t => decide (t = ws.takeException 0 10 101 false 7)) = true := by decide +kernel
theorem test_brk_saves_own_pc :
    answers (exec (.brk 0) ws) (fun t => decide (t = ws.takeException 0 11 100 false 0)) = true := by decide +kernel
theorem test_interrupt_entry :
    answers (exec (.interrupt 0) interrupted)
      (fun t => decide (t = interrupted.takeException 0 37 100 false 0)) = true := by decide +kernel
theorem test_imprecise_first :
    answers (exec (.interrupt 0) impreciseNow)
      (fun t => decide (t = (impreciseNow.setHand 0 { impreciseNow.hand 0 with imp := none }).takeException 0 8 100 true 50)) = true := by decide +kernel
theorem test_timer_count_saturates :
    answers (exec (.handTimerExpiry 0) (one { wsHand with htRun := true, htCount := 1, htReload := 6, timerEvents := 0xFFFF })) (fun t => decide ((t.hand 0).htCount = 6 ∧ (t.hand 0).htRun ∧ (t.hand 0).timerEvents = 0xFFFF)) = true := by decide +kernel
theorem test_vec_c_width :
    answers (exec (.registerWrite (.io 0 8 0x1FFFF)) ws)
      (fun t => decide ((t.core 0).vecC = 0xFFFF)) = true := by decide +kernel
theorem test_swi :
    answers (exec (.icSwi 0 9) ws) (fun t => decide ((t.core 0).icPend.getLsbD 4 ∧ (t.core 0).icPend.getLsbD 7 ∧
      !(t.core 0).icPend.getLsbD 5)) = true := by decide +kernel
theorem test_privileged_register_faults :
    answers (exec (.gcCtrlReset 0) csOpen)
      (fun t => decide (t = csOpen.takeException 0 5 100 false 0xE041)) = true := by decide +kernel
theorem test_ptm_steps_ahead :
    answers (exec (.ptmResponse 100) ptm) (fun t => decide (t.link.tally = 10 ∧ t.link.slew = 0 ∧
      t.link.ptmLock)) = true := by decide +kernel
theorem test_ptm_slews_back :
    answers (exec (.ptmResponse 100) ptmLater) (fun t => decide (t.link.tally = 5 ∧ t.link.slew = -5 ∧
      t.link.ptmLock)) = true := by decide +kernel
theorem test_doe_too_long :
    answers (exec (.doeRequest (List.replicate 16385 0)) dev) (fun t => decide (t.link.doeError ∧
      t.link.doeObjects = [])) = true := by decide +kernel
theorem test_tail_at_depth :
    answers (exec (.doorbellSqTail 1 16) ringOn) (fun t => decide ((t.ring 1).sqState = .error ∧
      (t.ring 1).errIndex = 16)) = true := by decide +kernel
theorem test_bar_access_size :
    answers (exec (.registerWrite (.write .bar0 7 3 77 false)) ringOff)
      (fun t => decide (t = { ringOff with link := { ringOff.link with accessSize := true } })) = true := by decide +kernel
theorem test_descriptor_read_poisoned :
    answers (exec (.descriptorArrival 1 4 none) ringRead) (fun t => decide ((t.ring 1).sqState = .error ∧
      (t.ring 1).reads = [] ∧ t.link.aer.uncor.getLsbD 12)) = true := by decide +kernel
theorem test_grant_twice :
    answers (exec (.grantLane 0) holding)
      (fun t => decide ((t.hand 0).grantEv = some (grantWord 2 1 0))) = true := by decide +kernel
theorem test_contract_out_of_range :
    answers (exec (.set 255) dev)
      (fun t => decide (t.steward.ctResult = BitVec.ofNat 64 (0x25 * 2 ^ 48 + 255 * 2 ^ 40) ∧
      t.contract 255 = dev.contract 255)) = true := by decide +kernel
theorem test_sopen_refused :
    answers (exec (.sopen 0 false 3 2) (granary 7))
      (fun t => decide ((t.hand 0).grResult = 131)) = true := by decide +kernel
theorem test_pin_reports_page_limit :
    answers (exec (.pin 0 100) (granary 7)) (fun t => decide ((t.hand 0).grResult = 4 ∧
      t.store.pins = [])) = true := by decide +kernel
theorem test_pin_last_page :
    answers (exec (.pin 0 99) (granary 7)) (fun t => decide ((t.hand 0).grResult = 1 ∧
      t.store.pins = [99])) = true := by decide +kernel
theorem test_source_test_fails_on_zeros :
    answers (exec (.sourceStartupTest 0 0) (entropySet .off))
      (fun t => decide ((t.source 0).state = .failed)) = true := by decide +kernel
theorem test_program_of_protected_flash :
    answers (exec (.program 0) (flashSet 0)) (fun t => decide ((t.flash.bank false).done ∧
      (t.flash.bank false).status = 0xC1 ∧ t.flash.words = [])) = true := by decide +kernel
theorem test_debug_open_blank :
    answers (exec (.dbgOpen none) dev) (fun t => decide (t.life.session = .opened ∧
      t.life.rights = 0xFF)) = true := by decide +kernel
theorem test_session_end_code :
    answers (exec .dbgClose (sessionOf inService 1 false)) (fun t => decide (t.life.session = .closed ∧
      t.life.ending = 1 ∧ t.life.rights = 0 ∧ t.life.powerHold = false)) = true := by decide +kernel
theorem test_advance_refused :
    answers (exec (.lcAdvance (.hand 0 254) 1) lifeHand) (fun t => decide (t.life.blowing = none ∧
      t.life.status = 0xF0 ∧ t.life.detail = 1)) = true := by decide +kernel
theorem test_alarm_halts :
    answers (exec (.monitorAlarm [20]) (monitored 2)) (fun t => decide (t.watch.latch.getLsbD 20 ∧
      t.watch.halted ∧ t.startup.inReset = false)) = true := by decide +kernel
theorem test_alarm_resets :
    answers (exec (.monitorAlarm [20]) (monitored 3))
      (fun t => decide (t.startup.inReset)) = true := by decide +kernel
theorem test_alarm_in_the_dark_erases :
    answers (exec (.monitorAlarm [0]) darkened) (fun t => decide (t.watch.bbkr = none ∧ t.watch.tampered ∧
      t.watch.latch.getLsbD 0)) = true := by decide +kernel
theorem test_locked_monitor_strengthens :
    answers (exec (.wtMon 0 20 0x000005000#36) monLocked)
      (fun t => decide (t.monResp 20 = 5)) = true := by decide +kernel
theorem test_rtc_load :
    answers (exec (.rtcLoad 0 77) { ws with watch := { ws.watch with rtcHi := 2 } })
      (fun t => decide (t.watch.rtcSec = 2 * 2 ^ 36 + 77 ∧ t.watch.rtcFrac = 0 ∧
      t.watch.rtcValid)) = true := by decide +kernel
theorem test_card_mode_refused :
    answers (exec (.activate 0 false) (gateSet 0 0 (some 0) none 0)) (fun t => decide (t.gateA.op = none ∧
      t.gateA.status = 0xD4 ∧ t.journal = ws.journal)) = true := by decide +kernel
theorem test_tag_info :
    answers (exec (.getInfo []) (tagIn .opened))
      (fun t => decide (t.out.getLast? = some (.tagAnswer [0, 1, 4, 1, 64, 0]))) = true := by decide +kernel
theorem test_tag_answers_ats :
    answers (exec .rats (tagIn .active)) (fun t => decide (t.tag.field = .opened ∧
      t.out.getLast? = some (.tagAnswer [0x05, 0x78, 0x33, 0x80, 0x00]))) = true := by decide +kernel
theorem test_tag_page_out_of_range :
    answers (exec (.readPage 64 []) (tagIn .opened))
      (fun t => decide (t.out.getLast? = some (.tagAnswer [4]))) = true := by decide +kernel
theorem test_tag_select :
    answers (exec (.select 0x08000005) (tagIn .ready)) (fun t => decide (t.tag.field = .active ∧
      t.out.getLast? = some (.tagAnswer [0x20]))) = true := by decide +kernel
theorem test_stage_code_ff_ignored :
    answers (exec (.gcStage 0 0xFF) ws) (fun t => decide (t = ws)) = true := by decide +kernel
theorem test_recovery_too_short :
    answers (exec (.recoveryGo 52) recovery) (fun t => decide (t.startup.rcvState = 3 ∧
      t.out = recovery.out)) = true := by decide +kernel
theorem test_crc32c : crc32c [0x31, 0x32, 0x33, 0x34, 0x35, 0x36, 0x37, 0x38, 0x39] = 0xE3069283#32 := by decide +kernel
/-- WellFormed refuses a command whose operand has a length or value the spec does not give it, and takes the right one. -/
theorem test_ill_formed : (Instr.fastStatusRead 0 0).wellFormed = false ∧ (Instr.fastStatusRead 0 4097).wellFormed = false ∧
    (Instr.descriptorArrival 0 0 (some [List.replicate 63 0])).wellFormed = false ∧
    (Instr.descriptorArrival 0 0 (some (List.replicate 9 (List.replicate 64 0)))).wellFormed = false ∧
    (Instr.pageInComplete 0 none [some []]).wellFormed = false ∧ (Instr.sweepPage (some []) []).wellFormed = false ∧
    (Instr.tjReading [] false).wellFormed = false ∧ (Instr.dbgOpen (some [])).wellFormed = false ∧
    (Instr.trialEnter 0 0 []).wellFormed = false ∧ (Instr.dbgRead 0 257).wellFormed = false ∧
    (Instr.dbgRead 0 0).wellFormed = false ∧ (Instr.dbgWrite 0 []).wellFormed = false ∧
    (Instr.flashRead 0 0).wellFormed = false ∧ (Instr.flashRead 0 4097).wellFormed = false ∧
    (Instr.reservedOpcode 0 0).wellFormed = false ∧ (Instr.writeBack (.node 0 0) [some []]).wellFormed = false ∧
    (Instr.joinAuthenticated 0 { signaturesOk := true, chainsOk := true, lc := 2, mode := 1, meas := [], secret := [] }).wellFormed = false ∧
    (Instr.auth2 [] (List.replicate 16 0) []).wellFormed = false ∧
    (Instr.auth2 (List.replicate 16 0) [] []).wellFormed = false := by decide +kernel
theorem test_well_formed : (Instr.fastStatusRead 0 4096).wellFormed = true ∧ (Instr.dbgRead 0 256).wellFormed = true ∧
    (Instr.descriptorArrival 0 0 (some [List.replicate 64 0])).wellFormed = true ∧ (Instr.dbgOpen none).wellFormed = true ∧
    (Instr.auth2 (List.replicate 16 0) (List.replicate 16 0) []).wellFormed = true := by decide +kernel
/-- Words written out from R109 and R111: an ADDI of w7 into itself, a NOP, and a word of an unassigned opcode. -/
theorem test_words : decodeWord 0 (0o020347000001#36) = .addi 0 7 7 1 ∧ decodeWord 3 0 = .nop 3 ∧
    decodeWord 0 (0o777000000000#36) = .reservedOpcode 0 (0o777000000000#36) := by decide +kernel
/-- No row of the table has bits: no word spells a command. -/
theorem test_no_word_spells_a_command : decodeTableWord 36 0 = none := rfl
theorem witness_forms_complete :
    io.permits 0 64 false 0 ∧ io.permits 0 64 true 0 ∧ (io.rg 0 1 + (0#18).zeroExtend 36).toNat = 64 ∧
      (coreLocalReg io 0 64).map IoReg.writeLv = some 0 ∧ sweepBad.quarantined 99 = true ∧
      sweepBad.mayWriteBack = true ∧ sweepBad.sweepMayRun = true := by
  unfold State.permits
  decide

end Sys2Proof.Tests
end

section
/-!
PROOFS. One equation for each way an instruction that issues can end (R82, R162, R164, R165).
-/
namespace Sys2Proof.Machine

section
variable {s : State} {h : Nat} {drain : Bool} {body : State → Hand → Act} (hi : s.issues h = true)
include hi

theorem issueOn_eq_result {r : BitVec 5} {v : Word} (hb : body s (s.hand h) = .set s (s.hand h) r v) :
    issueOn h drain body s = .next (s.result h r v) := by
  rw [issueOn_of_issues hi, hb]; rfl

theorem issueOn_eq_resultSt {r : BitVec 5} {v st : Word} (hb : body s (s.hand h) = .setSt s h (s.hand h) r v st) :
    issueOn h drain body s = .next (s.resultSt h r v st) := by
  rw [issueOn_of_issues hi, hb]; rfl

theorem issueOn_eq_goto {t : State} {pc : BitVec 16} (hb : body s (s.hand h) = .goto t pc) :
    issueOn h drain body s = .next (t.retire h none none pc) := by
  rw [issueOn_of_issues hi, hb]; rfl

theorem issueOn_eq_exception {code : Nat} {faa : Word} (hb : body s (s.hand h) = .raise s code faa false) :
    issueOn h drain body s = .next (s.takeException h code (s.hand h).pc false faa) := by
  rw [issueOn_of_issues hi, hb]
  simp only [State.perform, imp_of_issues hi, Option.isSome_none, Bool.false_eq_true, if_false]

theorem issueOn_eq_imprecise {t : State} {dst : Option (BitVec 5 × Word)} {code : Nat}
    (hb : body s (s.hand h) = .imprecise t dst code) :
    issueOn h drain body s =
      .next ((t.retire h dst none ((s.hand h).pc + 1)).pendImprecise h code (s.hand h).pc) := by
  rw [issueOn_of_issues hi, hb]; rfl

end

end Sys2Proof.Machine
end

section
/-!
PROOFS. Checked arithmetic (R117, R119 to R121, R164, R165).
-/
namespace Sys2Proof.Machine

/-! ### Sums, differences and the signed range -/

theorem addCarry_false (x y : Word) : addCarry x y false = (x + y, decide (2 ^ 36 ≤ x.toNat + y.toNat)) := by
  simp only [addCarry, b2n, Bool.false_eq_true, if_false, Nat.add_zero, Prod.mk.injEq, and_true]
  exact BitVec.eq_of_toNat_eq (by rw [wd, BitVec.toNat_ofNat, BitVec.toNat_add])

theorem subBorrow_false (x y : Word) : subBorrow x y false = (x - y, decide (x.toNat < y.toNat)) := by
  rw [subBorrow, show wd (b2n false) = 0#36 from rfl, BitVec.sub_zero]
  rfl

theorem outOfRange_eq_true {n : Int} (hn : n < -2 ^ 35 ∨ 2 ^ 35 ≤ n) : outOfRange n = true := by
  simp only [outOfRange, Bool.or_eq_true, decide_eq_true_eq]
  exact hn

theorem outOfRange_eq_false {n : Int} (hn : -2 ^ 35 ≤ n ∧ n < 2 ^ 35) : outOfRange n = false := by
  simp only [outOfRange, Bool.or_eq_false_iff, decide_eq_false_iff_not, Int.not_lt, Int.not_le]
  exact hn

/-! ### The two traps of arithmetic: PRECISE 1 and PRECISE 0 -/

/-- What an arithmetic trap leaves: with PRECISE 1 the exception at the instruction and nothing written, with PRECISE 0
the instruction's completed state with the exception pending (R164, R165). -/
def State.arithTrap (s : State) (h code : Nat) (done : State) : State :=
  if preciseOf (s.status h) then s.takeException h code (s.hand h).pc false (wd (s.hand h).pc.toNat)
  else done.pendImprecise h code (s.hand h).pc

section
variable {s : State} {h : Nat} (hi : s.issues h = true)
include hi

theorem issueOn_overflowAct_of_fits {r : BitVec 5} {f : Hand → Word × Bool} {beyond : Hand → Bool}
    (hf : beyond (s.hand h) = false) :
    issueOn h false (overflowAct h r f beyond) s = issueOn h false (carryAct h r f) s := by
  rw [issueOn_of_issues hi, issueOn_of_issues hi]
  simp only [overflowAct, hf, Bool.not_false, if_true]

theorem issueOn_overflowAct_of_beyond {r : BitVec 5} {f : Hand → Word × Bool} {beyond : Hand → Bool} {v : Word}
    {carry : Bool} (hb : beyond (s.hand h) = true) (hf : f (s.hand h) = (v, carry)) :
    issueOn h false (overflowAct h r f beyond) s =
      .next (s.arithTrap h 8 (s.resultSt h r v (setCy (s.status h) carry))) := by
  unfold State.arithTrap
  by_cases hp : preciseOf (s.hand h).st = true
  · rw [issueOn_eq_exception hi (by simp only [overflowAct, hb, hp]; rfl), State.status, if_pos hp]
  · rw [issueOn_eq_imprecise hi (by simp only [overflowAct, hb, hp, hf]; rfl), State.status, if_neg hp]
    rfl

theorem issueOn_trapAct_of_good {r : BitVec 5} {code : Nat} {bad : Hand → Bool} {instead good : Hand → Word}
    (hg : bad (s.hand h) = false) :
    issueOn h false (trapAct r code bad instead good) s = .next (s.result h r (good (s.hand h))) :=
  issueOn_eq_result hi (by simp only [trapAct, hg, Bool.not_false, if_true])

theorem issueOn_trapAct_of_bad {r : BitVec 5} {code : Nat} {bad : Hand → Bool} {instead good : Hand → Word}
    (hb : bad (s.hand h) = true) :
    issueOn h false (trapAct r code bad instead good) s =
      .next (s.arithTrap h code (s.result h r (instead (s.hand h)))) := by
  unfold State.arithTrap
  by_cases hp : preciseOf (s.hand h).st = true
  · rw [issueOn_eq_exception hi (by simp only [trapAct, hb, hp]; rfl), State.status, if_pos hp]
  · rw [issueOn_eq_imprecise hi (by simp only [trapAct, hb, hp]; rfl), State.status, if_neg hp]
    rfl

end

/-! ### Overflow (R117) -/

section
variable {s : State} {h : HandId} (hi : s.issues h = true) (a b c : Reg) (imm : Imm18)
include hi

theorem exec_addv_of_fits (hr : outOfRange ((s.rg h b).toInt + (s.rg h c).toInt) = false) :
    exec (.addv h a b c) s = exec (.add h a b c) s :=
  issueOn_overflowAct_of_fits hi hr

theorem exec_addiv_of_fits (hr : outOfRange ((s.rg h b).toInt + (imm.signExtend 36).toInt) = false) :
    exec (.addiv h a b imm) s = exec (.addi h a b imm) s :=
  issueOn_overflowAct_of_fits hi hr

theorem exec_subv_of_fits (hr : outOfRange ((s.rg h b).toInt - (s.rg h c).toInt) = false) :
    exec (.subv h a b c) s = exec (.sub h a b c) s :=
  issueOn_overflowAct_of_fits hi hr

theorem exec_mulv_of_fits (hr : outOfRange ((s.rg h b).toInt * (s.rg h c).toInt) = false) :
    exec (.mulv h a b c) s = exec (.mul h a b c) s := by
  have hmul : exec (.mul h a b c) s = .next (s.result h a (s.rg h b * s.rg h c)) := issueOn_eq_result hi rfl
  rw [hmul]
  exact issueOn_trapAct_of_good hi hr

theorem exec_addv_of_beyond (hr : outOfRange ((s.rg h b).toInt + (s.rg h c).toInt) = true) :
    exec (.addv h a b c) s = .next (s.arithTrap h 8 (s.resultSt h a (s.rg h b + s.rg h c)
      (setCy (s.status h) (decide (2 ^ 36 ≤ (s.rg h b).toNat + (s.rg h c).toNat))))) :=
  issueOn_overflowAct_of_beyond hi hr (addCarry_false _ _)

theorem exec_addiv_of_beyond (hr : outOfRange ((s.rg h b).toInt + (imm.signExtend 36).toInt) = true) :
    exec (.addiv h a b imm) s = .next (s.arithTrap h 8 (s.resultSt h a (s.rg h b + imm.signExtend 36)
      (setCy (s.status h) (decide (2 ^ 36 ≤ (s.rg h b).toNat + (imm.signExtend 36).toNat))))) :=
  issueOn_overflowAct_of_beyond hi hr (addCarry_false _ _)

theorem exec_subv_of_beyond (hr : outOfRange ((s.rg h b).toInt - (s.rg h c).toInt) = true) :
    exec (.subv h a b c) s = .next (s.arithTrap h 8 (s.resultSt h a (s.rg h b - s.rg h c)
      (setCy (s.status h) (decide ((s.rg h b).toNat < (s.rg h c).toNat))))) :=
  issueOn_overflowAct_of_beyond hi hr (subBorrow_false _ _)

theorem exec_mulv_of_beyond (hr : outOfRange ((s.rg h b).toInt * (s.rg h c).toInt) = true) :
    exec (.mulv h a b c) s = .next (s.arithTrap h 8 (s.result h a (s.rg h b * s.rg h c))) :=
  issueOn_trapAct_of_bad hi hr

end

/-! ### Division (R119 to R121) -/

/-- The one signed division whose quotient no word holds (R120). -/
def OverflowingDivision (x y : Word) : Prop := x = 0x800000000#36 ∧ y = 0xFFFFFFFFF#36

theorem natAbs_toInt_word_le (x : Word) : x.toInt.natAbs ≤ 2 ^ 35 := by
  have := x.le_toInt
  have := x.toInt_lt
  omega

theorem toInt_word_eq_zero {y : Word} : y.toInt = 0 ↔ y = 0 := by
  rw [← BitVec.toInt_inj]; rfl

theorem natAbs_tmod_lt (x : Int) {y : Int} (hy : y ≠ 0) : (x.tmod y).natAbs < y.natAbs := by
  rw [Int.natAbs_tmod]
  exact Nat.mod_lt _ (Int.natAbs_pos.2 hy)

/-- A remainder that is not 0 has the dividend's sign. -/
theorem tmod_neg_iff {x y : Int} (hr : x.tmod y ≠ 0) : x.tmod y < 0 ↔ x < 0 := by
  have hs := Int.sign_tmod x y
  rw [if_neg (mt Int.tmod_eq_zero_of_dvd hr)] at hs
  rw [← Int.sign_eq_neg_one_iff_neg, hs, Int.sign_eq_neg_one_iff_neg]

theorem remWord_toInt (x : Word) {y : Word} (hy : y ≠ 0) : (remWord x y).toInt = x.toInt.tmod y.toInt := by
  have hlt := natAbs_tmod_lt x.toInt (mt toInt_word_eq_zero.1 hy)
  have hle := natAbs_toInt_word_le y
  exact BitVec.toInt_ofInt_eq_self (by decide) (by omega) (by omega)

/-- Only the pair of R120 has a quotient beyond the signed range. -/
theorem tdiv_lt_of_not_overflowing {x y : Word} (ho : ¬ OverflowingDivision x y) : x.toInt.tdiv y.toInt < 2 ^ 35 := by
  have hx := natAbs_toInt_word_le x
  have hq := Int.natAbs_tdiv x.toInt y.toInt
  refine Int.not_le.1 fun hge => ?_
  have hfull : 2 ^ 35 ≤ x.toInt.natAbs / y.toInt.natAbs := by
    have : x.toInt.natAbs.div y.toInt.natAbs = x.toInt.natAbs / y.toInt.natAbs := rfl
    omega
  have hy : y.toInt.natAbs = 1 := by
    have hpos : 0 < y.toInt.natAbs := by
      refine Nat.pos_of_ne_zero fun h0 => ?_
      rw [h0, Nat.div_zero] at hfull
      omega
    have := (Nat.le_div_iff_mul_le hpos).1 hfull
    omega
  have hxAbs : x.toInt.natAbs = 2 ^ 35 := by
    rw [hy, Nat.div_one] at hfull
    omega
  have hxMin : x.toInt = -2 ^ 35 := by
    have := x.toInt_lt
    omega
  rcases Int.natAbs_eq y.toInt with h1 | h1 <;> rw [hy] at h1
  · rw [h1, hxMin] at hge
    exact absurd hge (by decide)
  · exact ho ⟨BitVec.eq_of_toInt_eq hxMin, BitVec.eq_of_toInt_eq h1⟩

theorem quotWord_toInt {x y : Word} (ho : ¬ OverflowingDivision x y) :
    (quotWord x y).toInt = x.toInt.tdiv y.toInt := by
  have hlt := tdiv_lt_of_not_overflowing ho
  have hle := Nat.le_trans (Int.natAbs_tdiv_le_natAbs x.toInt y.toInt) (natAbs_toInt_word_le x)
  exact BitVec.toInt_ofInt_eq_self (by decide) (by omega) hlt

theorem quotWord_remWord_spec (x : Word) {y : Word} (hy : y ≠ 0) (ho : ¬ OverflowingDivision x y) :
    x.toInt = (quotWord x y).toInt * y.toInt + (remWord x y).toInt := by
  rw [quotWord_toInt ho, remWord_toInt x hy, Int.tdiv_mul_add_tmod]

section
variable {s : State} {h : HandId} (hi : s.issues h = true) (a b c : Reg)
include hi

/-- Each division by 0 traps with the result of R121 in place of its own. -/
theorem exec_divisions_by_zero (hc : s.rg h c = 0) :
    exec (.div h a b c) s = .next (s.arithTrap h 9 (s.result h a 0xFFFFFFFFF#36)) ∧
    exec (.divu h a b c) s = .next (s.arithTrap h 9 (s.result h a 0xFFFFFFFFF#36)) ∧
    exec (.rem h a b c) s = .next (s.arithTrap h 9 (s.result h a (s.rg h b))) ∧
    exec (.remu h a b c) s = .next (s.arithTrap h 9 (s.result h a (s.rg h b))) := by
  have hz : ((s.hand h).reg c == 0) = true := beq_iff_eq.2 hc
  exact ⟨issueOn_trapAct_of_bad hi hz, issueOn_trapAct_of_bad hi hz, issueOn_trapAct_of_bad hi hz,
    issueOn_trapAct_of_bad hi hz⟩

/-- Each division by another divisor writes its quotient or remainder. -/
theorem exec_divisions (hc : s.rg h c ≠ 0) :
    exec (.div h a b c) s = .next (s.result h a (quotWord (s.rg h b) (s.rg h c))) ∧
    exec (.rem h a b c) s = .next (s.result h a (remWord (s.rg h b) (s.rg h c))) ∧
    exec (.divu h a b c) s = .next (s.result h a (s.rg h b / s.rg h c)) ∧
    exec (.remu h a b c) s = .next (s.result h a (s.rg h b % s.rg h c)) := by
  have hz : ((s.hand h).reg c == 0) = false := beq_eq_false_iff_ne.2 hc
  exact ⟨issueOn_trapAct_of_good hi hz, issueOn_trapAct_of_good hi hz, issueOn_trapAct_of_good hi hz,
    issueOn_trapAct_of_good hi hz⟩

end

/-- Settles O5: each instruction ends by the rule for its trap, and the words are those of truncated division. -/
theorem checkedArithmetic : Obligations.CheckedArithmetic := by
  unfold Obligations.CheckedArithmetic
  refine ⟨fun s h a b c imm hi => ⟨?_, ?_, ?_, ?_⟩, fun s h a b c imm hi => ⟨?_, ?_, ?_, ?_, ?_⟩,
    fun s h a b c hi hy => ⟨?_, ?_⟩⟩
  · exact fun hr => exec_addv_of_fits hi a b c (outOfRange_eq_false hr)
  · exact fun hr => exec_subv_of_fits hi a b c (outOfRange_eq_false hr)
  · exact fun hr => exec_addiv_of_fits hi a b imm (outOfRange_eq_false hr)
  · exact fun hr => exec_mulv_of_fits hi a b c (outOfRange_eq_false hr)
  · exact fun hr => exec_addv_of_beyond hi a b c (outOfRange_eq_true hr)
  · exact fun hr => exec_addiv_of_beyond hi a b imm (outOfRange_eq_true hr)
  · exact fun hr => exec_subv_of_beyond hi a b c (outOfRange_eq_true hr)
  · exact fun hr => exec_mulv_of_beyond hi a b c (outOfRange_eq_true hr)
  · exact exec_divisions_by_zero hi a b c
  · obtain ⟨hdiv, hrem, -, -⟩ := exec_divisions hi a b c hy
    refine ⟨_, _, hdiv, hrem, fun hne => ?_, ?_, ?_, ?_⟩
    · exact quotWord_remWord_spec _ hy fun ⟨hx, hy⟩ => hne.elim (· hx) (· hy)
    · rw [remWord_toInt _ hy]
      exact natAbs_tmod_lt _ (mt toInt_word_eq_zero.1 hy)
    · rw [remWord_toInt _ hy]
      exact tmod_neg_iff
    · intro hx hy
      rw [hx, hy]
      decide
  · obtain ⟨-, -, hdivu, hremu⟩ := exec_divisions hi a b c hy
    have hpos : 0 < (s.rg h c).toNat := Nat.pos_of_ne_zero fun h0 => hy (BitVec.eq_of_toNat_eq h0)
    refine ⟨_, _, hdivu, hremu, ?_, ?_⟩
    · rw [BitVec.toNat_udiv, BitVec.toNat_umod, Nat.mul_comm, Nat.div_add_mod]
    · rw [BitVec.toNat_umod]
      exact Nat.mod_lt _ hpos

end Sys2Proof.Machine
end

section
/-!
PROOFS. Decimal arithmetic and conversion (R122 to R124): a word packed of nine digits, and the digit-by-digit sums
and differences of the model as sums and differences of numbers.
-/
namespace Sys2Proof.Machine

/-! ### Numbers as sums of digits -/

/-- The number that the digits d 0 to d (n - 1) write in base b. -/
def digitSum (b : Nat) (d : Nat → Nat) : Nat → Nat
  | 0 => 0
  | n + 1 => digitSum b d n + d n * b ^ n

theorem foldl_range_digits (b : Nat) (d : Nat → Nat) (n : Nat) :
    (List.range n).foldl (fun acc k => acc + d k * b ^ k) 0 = digitSum b d n := by
  induction n with
  | zero => rfl
  | succ n ih => rw [List.range_succ, List.foldl_append, ih]; rfl

theorem digitSum_congr {b n : Nat} {d e : Nat → Nat} (h : ∀ k, k < n → d k = e k) : digitSum b d n = digitSum b e n := by
  induction n with
  | zero => rfl
  | succ n ih => rw [digitSum, digitSum, ih fun k hk => h k (Nat.lt_succ_of_lt hk), h n (Nat.lt_succ_self n)]

/-- Digits below the base stay below its power. -/
theorem digitSum_lt {b : Nat} {d : Nat → Nat} (hd : ∀ k, d k < b) (n : Nat) : digitSum b d n < b ^ n := by
  induction n with
  | zero => exact Nat.zero_lt_one
  | succ n ih =>
    have hn : (d n + 1) * b ^ n ≤ b * b ^ n := Nat.mul_le_mul_right _ (hd n)
    rw [digitSum, Nat.pow_succ']
    rw [Nat.add_one_mul] at hn
    omega

/-- The lowest digit, and the number that the others write. -/
theorem digitSum_succ_left (b : Nat) (d : Nat → Nat) (n : Nat) :
    digitSum b d (n + 1) = d 0 + b * digitSum b (fun k => d (k + 1)) n := by
  induction n with
  | zero => simp only [digitSum, Nat.pow_zero, Nat.mul_one, Nat.zero_add, Nat.mul_zero, Nat.add_zero]
  | succ n ih =>
    rw [digitSum, ih, digitSum, Nat.mul_add, Nat.pow_succ', Nat.mul_left_comm b, Nat.add_assoc]

/-- Dividing by a power of the base shifts its digits out, and the last digit left is the one asked for. -/
theorem digitSum_div_mod {b : Nat} {d : Nat → Nat} (hd : ∀ k, d k < b) {n j : Nat} (hj : j < n) :
    digitSum b d n / b ^ j % b = d j := by
  have hb : 0 < b := Nat.zero_lt_of_lt (hd 0)
  induction j generalizing n d with
  | zero =>
    obtain ⟨n, rfl⟩ := Nat.exists_eq_add_one.2 hj
    rw [digitSum_succ_left, Nat.pow_zero, Nat.div_one, Nat.add_mul_mod_self_left, Nat.mod_eq_of_lt (hd 0)]
  | succ j ih =>
    obtain ⟨n, rfl⟩ := Nat.exists_eq_add_one.2 (Nat.zero_lt_of_lt hj)
    rw [digitSum_succ_left, Nat.pow_succ', ← Nat.div_div_eq_div_mul, Nat.add_mul_div_left _ _ hb,
      Nat.div_eq_of_lt (hd 0), Nat.zero_add]
    exact ih (fun k => hd (k + 1)) (Nat.lt_of_succ_lt_succ hj)

/-- The low n digits of a number are the number modulo the n-th power. -/
theorem digitSum_digits (b m n : Nat) : digitSum b (fun k => m / b ^ k % b) n = m % b ^ n := by
  induction n with
  | zero => rw [Nat.pow_zero, Nat.mod_one]; rfl
  | succ n ih => rw [digitSum, ih, Nat.mod_pow_succ, Nat.mul_comm]

/-! ### BCD words -/

/-- The word that holds the decimal digits d 0 to d 8. -/
def packDigits (d : Nat → Nat) : Word := wd (digitSum 16 d 9)

theorem two_pow_four_mul (k : Nat) : 2 ^ (4 * k) = 16 ^ k := Nat.pow_mul 2 4 k

theorem two_pow_digit_width (k : Nat) : 2 ^ (4 * k + 3 + 1 - 4 * k) = 16 :=
  congrArg (2 ^ ·) (show 4 * k + 3 + 1 - 4 * k = 4 by omega)

theorem wfield_digit (x : Word) (k : Nat) : wfield x (4 * k + 3) (4 * k) = x.toNat / 16 ^ k % 16 := by
  rw [wfield, bitsOf, Nat.shiftRight_eq_div_pow, two_pow_four_mul, two_pow_digit_width]

theorem bcdDigit_le (x : Word) (k : Nat) : bcdDigit x k ≤ 9 := Nat.min_le_left _ _

theorem wfield_packDigits {d : Nat → Nat} (hd : ∀ k, d k ≤ 9) {k : Nat} (hk : k < 9) :
    wfield (packDigits d) (4 * k + 3) (4 * k) = d k := by
  have hlt : ∀ k, d k < 16 := fun k => Nat.lt_of_le_of_lt (hd k) (by decide)
  have hsum : digitSum 16 d 9 < 2 ^ 36 := digitSum_lt hlt 9
  rw [wfield_digit, packDigits, wd, BitVec.toNat_ofNat, Nat.mod_eq_of_lt hsum, digitSum_div_mod hlt hk]

theorem bcdInvalid_packDigits {d : Nat → Nat} (hd : ∀ k, d k ≤ 9) : bcdInvalid (packDigits d) = false := by
  simp only [bcdInvalid, List.any_eq_false, List.mem_range, bcdBad, decide_eq_true_eq, Nat.not_lt]
  intro k hk
  rw [wfield_packDigits hd hk]
  exact hd k

/-- The value of a BCD word, invalid digits read as 9, fits the word that holds it (R123). -/
theorem toNat_fromBcd (x : Word) : (fromBcd x).toNat = digitSum 10 (bcdDigit x) 9 := by
  have hlt : digitSum 10 (bcdDigit x) 9 < 10 ^ 9 :=
    digitSum_lt (fun k => Nat.lt_succ_of_le (bcdDigit_le x k)) 9
  rw [fromBcd, foldl_range_digits, wd, BitVec.toNat_ofNat, Nat.mod_eq_of_lt (Nat.lt_trans hlt (by decide))]

theorem toNat_fromBcd_lt (x : Word) : (fromBcd x).toNat < 10 ^ 9 := by
  rw [toNat_fromBcd]
  exact digitSum_lt (fun k => Nat.lt_succ_of_le (bcdDigit_le x k)) 9

theorem toNat_fromBcd_packDigits {d : Nat → Nat} (hd : ∀ k, d k ≤ 9) :
    (fromBcd (packDigits d)).toNat = digitSum 10 d 9 := by
  rw [toNat_fromBcd]
  refine digitSum_congr fun k hk => ?_
  rw [bcdDigit, wfield_packDigits hd hk, Nat.min_eq_right (hd k)]

/-! ### Conversion (R123) -/

theorem toBcd_eq_packDigits (n : Nat) : toBcd n = packDigits fun k => n / 10 ^ k % 10 := by
  simp only [toBcd, packDigits, foldl_range_digits, two_pow_four_mul]

theorem bcdInvalid_toBcd (n : Nat) : bcdInvalid (toBcd n) = false := by
  rw [toBcd_eq_packDigits]
  exact bcdInvalid_packDigits fun k => Nat.le_of_lt_succ (Nat.mod_lt _ (by decide))

theorem toNat_fromBcd_toBcd (n : Nat) : (fromBcd (toBcd n)).toNat = n % 10 ^ 9 := by
  rw [toBcd_eq_packDigits, toNat_fromBcd_packDigits fun k => Nat.le_of_lt_succ (Nat.mod_lt _ (by decide)),
    digitSum_digits]

/-! ### Digit-by-digit sums and differences (R122) -/

@[simp] theorem b2n_true : b2n true = 1 := rfl
@[simp] theorem b2n_false : b2n false = 0 := rfl

theorem b2n_le_one (c : Bool) : b2n c ≤ 1 := by cases c <;> decide

/-- A decimal digit of a sum, with its carry. -/
theorem bcdStep_add {x y : Nat} (hx : x ≤ 9) (hy : y ≤ 9) (c : Bool) :
    (bcdStep false x y c).1 ≤ 9 ∧
    (bcdStep false x y c).1 + b2n (bcdStep false x y c).2 * 10 = x + y + b2n c := by
  have hc := b2n_le_one c
  simp only [bcdStep, Bool.false_eq_true, if_false]
  by_cases ht : 10 ≤ x + y + b2n c
  · rw [decide_eq_true ht, b2n_true]; omega
  · rw [decide_eq_false ht, b2n_false]; omega

/-- A decimal digit of a difference, with its borrow. -/
theorem bcdStep_sub {x y : Nat} (hx : x ≤ 9) (hy : y ≤ 9) (c : Bool) :
    (bcdStep true x y c).1 ≤ 9 ∧
    (bcdStep true x y c).1 + y + b2n c = x + b2n (bcdStep true x y c).2 * 10 := by
  have hc := b2n_le_one c
  simp only [bcdStep, if_true]
  split
  · rw [b2n_true]; omega
  · rw [b2n_false]; omega

/-- The carry into digit k of a decimal sum or difference. -/
def bcdCarry (sub : Bool) (x y : Word) (carry : Bool) : Nat → Bool
  | 0 => carry
  | k + 1 => (bcdStep sub (bcdDigit x k) (bcdDigit y k) (bcdCarry sub x y carry k)).2

/-- Digit k of a decimal sum or difference. -/
def bcdResult (sub : Bool) (x y : Word) (carry : Bool) (k : Nat) : Nat :=
  (bcdStep sub (bcdDigit x k) (bcdDigit y k) (bcdCarry sub x y carry k)).1

theorem bcdResult_le (sub : Bool) (x y : Word) (carry : Bool) (k : Nat) : bcdResult sub x y carry k ≤ 9 :=
  match sub with
  | false => (bcdStep_add (bcdDigit_le x k) (bcdDigit_le y k) _).1
  | true => (bcdStep_sub (bcdDigit_le x k) (bcdDigit_le y k) _).1

theorem bcdArith_eq (sub : Bool) (x y : Word) (carry : Bool) :
    bcdArith sub x y carry = (packDigits (bcdResult sub x y carry), bcdCarry sub x y carry 9) := by
  have hfold (n : Nat) : (List.range n).foldl (fun (acc : Nat × Bool) k =>
      let d := bcdStep sub (bcdDigit x k) (bcdDigit y k) acc.2
      (acc.1 + d.1 * 2 ^ (4 * k), d.2)) (0, carry) =
      (digitSum 16 (bcdResult sub x y carry) n, bcdCarry sub x y carry n) := by
    induction n with
    | zero => rfl
    | succ n ih =>
      rw [List.range_succ, List.foldl_append, ih, digitSum, ← two_pow_four_mul n]
      rfl
  rw [bcdArith, hfold 9, packDigits]

theorem digitSum_bcdResult_add (x y : Word) (carry : Bool) (n : Nat) :
    digitSum 10 (bcdResult false x y carry) n + b2n (bcdCarry false x y carry n) * 10 ^ n =
      digitSum 10 (bcdDigit x) n + digitSum 10 (bcdDigit y) n + b2n carry := by
  induction n with
  | zero => simp only [digitSum, bcdCarry, Nat.pow_zero, Nat.mul_one, Nat.zero_add]
  | succ n ih =>
    have hstep := congrArg (· * 10 ^ n) (bcdStep_add (bcdDigit_le x n) (bcdDigit_le y n) (bcdCarry false x y carry n)).2
    simp only [Nat.add_mul, Nat.mul_assoc] at hstep
    simp only [digitSum, bcdCarry, bcdResult, Nat.pow_succ']
    omega

theorem digitSum_bcdResult_sub (x y : Word) (carry : Bool) (n : Nat) :
    digitSum 10 (bcdResult true x y carry) n + digitSum 10 (bcdDigit y) n + b2n carry =
      digitSum 10 (bcdDigit x) n + b2n (bcdCarry true x y carry n) * 10 ^ n := by
  induction n with
  | zero => simp only [digitSum, bcdCarry, Nat.pow_zero, Nat.mul_one, Nat.zero_add]
  | succ n ih =>
    have hstep := congrArg (· * 10 ^ n) (bcdStep_sub (bcdDigit_le x n) (bcdDigit_le y n) (bcdCarry true x y carry n)).2
    simp only [Nat.add_mul, Nat.mul_assoc] at hstep
    simp only [digitSum, bcdCarry, bcdResult, Nat.pow_succ']
    omega

theorem bcdInvalid_bcdArith (sub : Bool) (x y : Word) (carry : Bool) : bcdInvalid (bcdArith sub x y carry).1 = false := by
  rw [bcdArith_eq]
  exact bcdInvalid_packDigits (bcdResult_le sub x y carry)

theorem toNat_fromBcd_bcdArith_add (x y : Word) (carry : Bool) :
    (fromBcd (bcdArith false x y carry).1).toNat + b2n (bcdArith false x y carry).2 * 10 ^ 9 =
      (fromBcd x).toNat + (fromBcd y).toNat + b2n carry := by
  rw [bcdArith_eq, toNat_fromBcd_packDigits (bcdResult_le false x y carry), toNat_fromBcd, toNat_fromBcd]
  dsimp only
  exact digitSum_bcdResult_add x y carry 9

theorem toNat_fromBcd_bcdArith_sub (x y : Word) (carry : Bool) :
    (fromBcd (bcdArith true x y carry).1).toNat + (fromBcd y).toNat + b2n carry =
      (fromBcd x).toNat + b2n (bcdArith true x y carry).2 * 10 ^ 9 := by
  rw [bcdArith_eq, toNat_fromBcd_packDigits (bcdResult_le true x y carry), toNat_fromBcd, toNat_fromBcd]
  dsimp only
  exact digitSum_bcdResult_sub x y carry 9

/-- The digits of a decimal sum write the sum n modulo 10^9, and its carry says whether n has more digits. -/
theorem bcdArith_add_value (x y : Word) (carry : Bool) {n : Nat} {p : Prop} [Decidable p]
    (hn : n = (fromBcd x).toNat + (fromBcd y).toNat + b2n carry) (hp : p ↔ 10 ^ 9 ≤ n) :
    (fromBcd (bcdArith false x y carry).1).toNat = n % 10 ^ 9 ∧ (bcdArith false x y carry).2 = decide p := by
  have hsum := toNat_fromBcd_bcdArith_add x y carry
  have hlt := toNat_fromBcd_lt (bcdArith false x y carry).1
  have hx := toNat_fromBcd_lt x
  have hy := toNat_fromBcd_lt y
  have hc := b2n_le_one carry
  generalize (bcdArith false x y carry).2 = out at hsum ⊢
  cases out
  · rw [b2n_false] at hsum
    exact ⟨by omega, (decide_eq_false (mt hp.1 (by omega))).symm⟩
  · rw [b2n_true] at hsum
    exact ⟨by omega, (decide_eq_true (hp.2 (by omega))).symm⟩

/-- The digits of a decimal difference write the difference, 10^9 added to it, modulo 10^9, and its borrow says whether
the difference is negative. -/
theorem bcdArith_sub_value (x y : Word) (carry : Bool) {n : Nat} {p : Prop} [Decidable p]
    (hn : n + ((fromBcd y).toNat + b2n carry) = (fromBcd x).toNat + 10 ^ 9)
    (hp : p ↔ (fromBcd x).toNat < (fromBcd y).toNat + b2n carry) :
    (fromBcd (bcdArith true x y carry).1).toNat = n % 10 ^ 9 ∧ (bcdArith true x y carry).2 = decide p := by
  have hdiff := toNat_fromBcd_bcdArith_sub x y carry
  have hlt := toNat_fromBcd_lt (bcdArith true x y carry).1
  have hx := toNat_fromBcd_lt x
  generalize (bcdArith true x y carry).2 = out at hdiff ⊢
  cases out
  · rw [b2n_false] at hdiff
    exact ⟨by omega, (decide_eq_false (mt hp.1 (by omega))).symm⟩
  · rw [b2n_true] at hdiff
    exact ⟨by omega, (decide_eq_true (hp.2 (by omega))).symm⟩

/-! ### The instructions -/

theorem toNat_and_one_eq_cyOf (st : Word) : (st &&& 1#36).toNat = b2n (cyOf st) := by
  rw [BitVec.toNat_and, cyOf, BitVec.getLsbD, show (1#36).toNat = 1 from rfl, Nat.and_one_is_mod, Nat.testBit_zero]
  rcases Nat.mod_two_eq_zero_or_one st.toNat with h0 | h1
  · rw [h0]; rfl
  · rw [h1]; rfl

/-- A decimal instruction's result, CY and BDI, from the value and carry of its digits (R122, R124). -/
theorem issueOn_decAct {s : State} {h : HandId} (hi : s.issues h = true) (a b c : Reg) {sub carry : Bool} {value : Nat}
    {out : Bool}
    (hv : (fromBcd (bcdArith sub (s.rg h b) (s.rg h c) (carry && cyOf (s.status h))).1).toNat = value ∧
      (bcdArith sub (s.rg h b) (s.rg h c) (carry && cyOf (s.status h))).2 = out) :
    ∃ v : Word, issueOn h false (decAct h a b c sub carry) s = .next (s.resultSt h a v
        (setCy (orBdi (s.status h) (bcdInvalid (s.rg h b) || bcdInvalid (s.rg h c))) out)) ∧
      bcdInvalid v = false ∧ (fromBcd v).toNat = value := by
  obtain ⟨hvalue, rfl⟩ := hv
  exact ⟨_, issueOn_eq_resultSt hi rfl, bcdInvalid_bcdArith _ _ _ _, hvalue⟩

theorem exec_dcvtBd_of_issues {s : State} {h : HandId} (hi : s.issues h = true) (a b : Reg) :
    exec (.dcvtBd h a b) s = .next (s.resultSt h a (toBcd ((s.rg h b).toNat % 10 ^ 9))
      (setCy (s.status h) (decide (10 ^ 9 ≤ (s.rg h b).toNat)))) := by
  rw [exec_dcvtBd, execDcvtBd]
  exact issueOn_eq_resultSt hi rfl

theorem exec_dcvtDb_of_issues {s : State} {h : HandId} (hi : s.issues h = true) (a b : Reg) :
    exec (.dcvtDb h a b) s = .next (s.resultSt h a (fromBcd (s.rg h b)) (orBdi (s.status h) (bcdInvalid (s.rg h b)))) := by
  rw [exec_dcvtDb, execDcvtDb]
  exact issueOn_eq_resultSt hi rfl

/-- Settles O6: the digit-by-digit sums and differences are those of the numbers, and the digits of a number name it. -/
theorem decimalArithmetic : Obligations.DecimalArithmetic := by
  unfold Obligations.DecimalArithmetic
  refine ⟨fun s h a b c hi => ?_, fun s h a b hi => ⟨?_, ?_⟩⟩
  · have hcy := toNat_and_one_eq_cyOf (s.status h)
    have hy := toNat_fromBcd_lt (s.rg h c)
    have hc := b2n_le_one (cyOf (s.status h))
    refine ⟨?_, ?_, ?_, ?_⟩
    · exact issueOn_decAct hi a b c (bcdArith_add_value _ _ false (by rw [b2n_false, Nat.add_zero]) Iff.rfl)
    · exact issueOn_decAct hi a b c (bcdArith_add_value _ _ (cyOf (s.status h)) (by rw [hcy]) Iff.rfl)
    · exact issueOn_decAct hi a b c (bcdArith_sub_value _ _ false (by rw [b2n_false]; omega)
        (by rw [b2n_false, Nat.add_zero]))
    · exact issueOn_decAct hi a b c (bcdArith_sub_value _ _ (cyOf (s.status h)) (by omega) (by rw [hcy]))
  · refine ⟨_, exec_dcvtBd_of_issues hi a b, bcdInvalid_toBcd _, ?_⟩
    rw [toNat_fromBcd_toBcd, Nat.mod_mod]
  · refine ⟨_, exec_dcvtDb_of_issues hi a b, ?_⟩
    simp only [two_pow_four_mul, foldl_range_digits, toNat_fromBcd]
    exact digitSum_congr fun k _ => by rw [bcdDigit, wfield_digit]

end Sys2Proof.Machine
end

section
/-!
PROOFS. Bit fields, immediate shifts and the words that are illegal (R110, R118, R125, R126).
-/
namespace Sys2Proof.Machine

/-! ### Fields, bit by bit (R125) -/

theorem getLsbD_extField (w : Word) (pos widthM1 : Nat) {i : Nat} (hi : i < 36) :
    (extField w pos (widthM1 + 1)).getLsbD i = (decide (i ≤ widthM1) && w.getLsbD (pos + i)) := by
  rw [extField, wd, BitVec.getLsbD_ofNat, Nat.testBit_mod_two_pow, Nat.testBit_div_two_pow, decide_eq_true hi,
    Bool.true_and, Nat.add_comm i pos, decide_eq_decide.2 (Nat.lt_succ_iff : i < widthM1 + 1 ↔ i ≤ widthM1)]
  rfl

/-- The mask of a field covers the field's bits and no other. -/
theorem getLsbD_fieldMask (pos widthM1 : Nat) {i : Nat} (hi : i < 36) :
    (wd ((2 ^ (widthM1 + 1) - 1) * 2 ^ pos)).getLsbD i = decide (pos ≤ i ∧ i ≤ pos + widthM1) := by
  rw [wd, BitVec.getLsbD_ofNat, Nat.testBit_mul_two_pow, Nat.testBit_two_pow_sub_one, decide_eq_true hi, Bool.true_and,
    ← Bool.decide_and, decide_eq_decide]
  omega

theorem getLsbD_wmask (mask old new : Word) {i : Nat} (hi : i < 36) :
    (wmask mask old new).getLsbD i = if mask.getLsbD i then new.getLsbD i else old.getLsbD i := by
  rw [wmask, BitVec.getLsbD_or, BitVec.getLsbD_and, BitVec.getLsbD_and, BitVec.getLsbD_not, decide_eq_true hi]
  cases mask.getLsbD i
  · rw [Bool.not_false, Bool.and_true, Bool.and_true, Bool.and_false, Bool.or_false, if_neg Bool.false_ne_true]
  · rw [Bool.not_true, Bool.and_false, Bool.and_false, Bool.and_true, Bool.false_or, if_pos rfl]

theorem getLsbD_insField (old new : Word) (pos widthM1 : Nat) {i : Nat} (hi : i < 36) :
    (insField old new pos (widthM1 + 1)).getLsbD i =
      if pos ≤ i ∧ i ≤ pos + widthM1 then new.getLsbD (i - pos) else old.getLsbD i := by
  rw [insField, getLsbD_wmask _ _ _ hi, getLsbD_fieldMask pos widthM1 hi]
  by_cases hf : pos ≤ i ∧ i ≤ pos + widthM1
  · rw [if_pos hf, decide_eq_true hf, if_pos rfl, BitVec.getLsbD_shiftLeft, decide_eq_true hi,
      decide_eq_false (Nat.not_lt.2 hf.1), Bool.not_false, Bool.true_and, Bool.true_and]
  · rw [if_neg hf, decide_eq_false hf, if_neg Bool.false_ne_true]

section
variable {s : State} {h : HandId} (hi : s.issues h = true) (a b : Reg)
include hi

theorem exec_ext_of_fits {pos widthM1 : BitVec 6} (hf : pos.toNat + (widthM1.toNat + 1) ≤ 36) :
    exec (.ext h a b pos widthM1) s = .next (s.result h a (extField (s.rg h b) pos.toNat (widthM1.toNat + 1))) := by
  rw [exec_ext, execExt]
  exact issueOn_eq_result hi (if_neg (Nat.not_lt.2 hf))

theorem exec_ins_of_fits {pos widthM1 : BitVec 6} (hf : pos.toNat + (widthM1.toNat + 1) ≤ 36) :
    exec (.ins h a b pos widthM1) s =
      .next (s.result h a (insField (s.rg h a) (s.rg h b) pos.toNat (widthM1.toNat + 1))) := by
  rw [exec_ins, execIns]
  exact issueOn_eq_result hi (if_neg (Nat.not_lt.2 hf))

/-- A shift count of 0 to 35 is carried out (R118). -/
theorem issueOn_shiftImmAct {imm : Imm18} (hn : imm.toNat < 36) (op : Nat) (f : Word → Nat → Word) :
    issueOn h false (shiftImmAct op a b imm f) s = .next (s.result h a (f (s.rg h b) imm.toNat)) :=
  issueOn_eq_result hi (if_neg (Nat.not_le.2 hn))

end

/-! ### Illegal words (R110, R118, R126) -/

/-- The outcome is ILLEGAL_INSTR (code 2) taken at the instruction (R126). -/
def State.TakesIllegal (s : State) (h : Nat) (o : Res) : Prop :=
  ∃ w, o = .next (s.takeException h 2 (s.hand h).pc false w)

section
variable {s : State} {h : HandId} (hi : s.issues h = true) (a b : Reg)
include hi

theorem issueOn_takesIllegal {drain : Bool} {body : State → Hand → Act} {w : Word}
    (hb : body s (s.hand h) = .illegal s w) : s.TakesIllegal h (issueOn h drain body s) :=
  ⟨w, issueOn_eq_exception hi hb⟩

theorem shiftImmAct_takesIllegal {imm : Imm18} (hn : 36 ≤ imm.toNat) (op : Nat) (f : Word → Nat → Word) :
    s.TakesIllegal h (issueOn h false (shiftImmAct op a b imm f) s) :=
  issueOn_takesIllegal hi (if_pos hn)

theorem exec_ext_takesIllegal {pos widthM1 : BitVec 6} (hf : 36 < pos.toNat + (widthM1.toNat + 1)) :
    s.TakesIllegal h (exec (.ext h a b pos widthM1) s) := by
  rw [exec_ext, execExt]
  exact issueOn_takesIllegal hi (if_pos hf)

theorem exec_ins_takesIllegal {pos widthM1 : BitVec 6} (hf : 36 < pos.toNat + (widthM1.toNat + 1)) :
    s.TakesIllegal h (exec (.ins h a b pos widthM1) s) := by
  rw [exec_ins, execIns]
  exact issueOn_takesIllegal hi (if_pos hf)

theorem exec_reservedOpcode_of_unassigned {word : Word} (hw : assignedWord word = false) :
    exec (.reservedOpcode h word) s = .next (s.takeException h 2 (s.hand h).pc false word) := by
  rw [exec_reservedOpcode, execReservedOpcode, if_neg (Bool.eq_false_iff.1 hw)]
  exact issueOn_eq_exception hi rfl

end

/-- Settles O7: a field or count in range acts bit by bit, and one out of range raises ILLEGAL_INSTR. -/
theorem fieldsAndShifts : Obligations.FieldsAndShifts := by
  unfold Obligations.FieldsAndShifts
  refine ⟨fun s h a b pos widthM1 hi hf => ⟨⟨_, exec_ext_of_fits hi a b hf, fun _ => getLsbD_extField _ _ _⟩,
      ⟨_, exec_ins_of_fits hi a b hf, fun _ => getLsbD_insField _ _ _ _⟩⟩,
    fun s h a b imm hi hn => ⟨?_, ?_, ?_, ?_⟩,
    fun s h a b imm pos widthM1 word hi => ⟨fun hn => ⟨?_, ?_, ?_, ?_⟩, fun hf => ⟨?_, ?_⟩, ?_⟩⟩
  · exact issueOn_shiftImmAct hi a b hn 16 _
  · exact issueOn_shiftImmAct hi a b hn 17 _
  · exact issueOn_shiftImmAct hi a b hn 18 _
  · exact issueOn_shiftImmAct hi a b hn 19 _
  · exact shiftImmAct_takesIllegal hi a b hn 16 _
  · exact shiftImmAct_takesIllegal hi a b hn 17 _
  · exact shiftImmAct_takesIllegal hi a b hn 18 _
  · exact shiftImmAct_takesIllegal hi a b hn 19 _
  · exact exec_ext_takesIllegal hi a b hf
  · exact exec_ins_takesIllegal hi a b hf
  · exact exec_reservedOpcode_of_unassigned hi

end Sys2Proof.Machine
end

section
/-!
PROOFS. Jumps, branches, CALL and RET, and the return stack (R87 to R90, R134, R135).
-/
namespace Sys2Proof.Machine

/-! ### The return stack bank of a Hand (R87 to R89) -/

@[simp] theorem Hand.bank_setBank (x : Hand) (r : RetStack) : (x.setBank r).bank = r := by
  by_cases hw : x.st.getLsbD 35 = true
  · rw [Hand.setBank, if_pos hw]
    exact if_pos hw
  · rw [Hand.setBank, if_neg hw]
    exact if_neg hw

@[simp] theorem RetStack.peek_push (r : RetStack) (addr : BitVec 16) : (r.push addr).peek = addr :=
  aget_aset_self _ _ _ _

@[simp] theorem RetStack.push_top (r : RetStack) (addr : BitVec 16) : (r.push addr).top = r.top + 1 := rfl
@[simp] theorem RetStack.push_depth (r : RetStack) (addr : BitVec 16) : (r.push addr).depth = min 16 (r.depth + 1) := rfl
@[simp] theorem RetStack.pop_top (r : RetStack) : r.pop.top = r.top - 1 := rfl
@[simp] theorem RetStack.pop_depth (r : RetStack) : r.pop.depth = r.depth - 1 := rfl

/-- Completing an instruction leaves the return stacks. -/
@[simp] theorem Hand.bank_retire (x : Hand) (dst load : Option (BitVec 5 × Word)) (pc : BitVec 16) :
    (x.retire dst load pc).bank = x.bank := by
  rw [Hand.retire_eq]; rfl

@[simp] theorem Hand.pc_retire (x : Hand) (dst load : Option (BitVec 5 × Word)) (pc : BitVec 16) :
    (x.retire dst load pc).pc = pc := by
  rw [Hand.retire_eq]

/-! ### The comparisons of BGE and BGEU -/

theorem not_slt_iff_toInt_le {x y : Word} : (!x.slt y) = true ↔ y.toInt ≤ x.toInt := by
  rw [Bool.not_eq_true', Bool.eq_false_iff, Ne, BitVec.slt_iff_toInt_lt, Int.not_lt]

theorem not_ult_iff_toNat_le {x y : Word} : (!x.ult y) = true ↔ y.toNat ≤ x.toNat := by
  rw [Bool.not_eq_true', Bool.eq_false_iff, Ne, BitVec.ult_iff_toNat_lt, Nat.not_lt]

/-! ### What each transfer does when it issues -/

/-- The state after a CALL or RET: the new return stack and the new PC. -/
def State.transferTo (s : State) (h : Nat) (r : RetStack) (pc : BitVec 16) : State :=
  (s.setHand h ((s.hand h).setBank r)).retire h none none pc

@[simp] theorem State.bank_transferTo (s : State) (h : Nat) (r : RetStack) (pc : BitVec 16) :
    ((s.transferTo h r pc).hand h).bank = r := by
  rw [State.transferTo, State.hand_retire, Hand.bank_retire, State.hand_setHand, if_pos rfl, Hand.bank_setBank]

@[simp] theorem State.pc_transferTo (s : State) (h : Nat) (r : RetStack) (pc : BitVec 16) :
    ((s.transferTo h r pc).hand h).pc = pc := by
  rw [State.transferTo, State.hand_retire, Hand.pc_retire]

section
variable {s : State} {h : HandId} (hi : s.issues h = true)
include hi

theorem exec_jmp_of_issues (target : BitVec 16) : exec (.jmp h target) s = .next (s.retire h none none target) := by
  rw [exec_jmp, execJmp]
  exact issueOn_eq_goto hi rfl

/-- JR takes the low 16 bits of its register (R135). -/
theorem exec_jr_of_issues (b : Reg) : exec (.jr h b) s = .next (s.retire h none none ((s.rg h b).setWidth 16)) := by
  rw [exec_jr, execJr]
  exact issueOn_eq_goto hi rfl

/-- A branch goes to its target where its comparison holds, and else to the next word (R134). -/
theorem issueOn_branchAct {taken : Hand → Bool} {p : Prop} [Decidable p] (target : BitVec 16)
    (hp : taken (s.hand h) = true ↔ p) :
    issueOn h false (branchAct taken target) s =
      .next (s.retire h none none (if p then target else (s.hand h).pc + 1)) := by
  refine issueOn_eq_goto hi ?_
  by_cases hb : p
  · rw [branchAct, if_pos (hp.2 hb), if_pos hb]
  · rw [branchAct, if_neg (mt hp.1 hb), if_neg hb]; rfl

theorem issueOn_callAct (target : BitVec 16) (hc : (s.hand h).trapStack = false ∨ (s.hand h).bank.depth < 16) :
    issueOn h false (callAct h target) s =
      .next (s.transferTo h ((s.hand h).bank.push ((s.hand h).pc + 1)) target) := by
  refine issueOn_eq_goto hi (if_neg ?_)
  rw [Bool.and_eq_true, decide_eq_true_eq]
  rintro ⟨ht, hd⟩
  exact hc.elim (Bool.eq_false_iff.1 · ht) (Nat.not_lt.2 hd)

theorem exec_call_of_full (target : BitVec 16) (hd : (s.hand h).bank.depth = 16) (ht : (s.hand h).trapStack = true) :
    exec (.call h target) s =
      .next (s.takeException h 6 (s.hand h).pc false (BitVec.ofNat 36 ((s.hand h).pc + 1).toNat)) :=
  issueOn_eq_exception hi (if_pos (by rw [ht, hd]; rfl))

theorem exec_ret_of_pops (hr : (s.hand h).trapStack = false ∨ (s.hand h).bank.depth ≠ 0) :
    exec (.ret h) s = .next (s.transferTo h (s.hand h).bank.pop (s.hand h).bank.peek) := by
  rw [exec_ret, execRet]
  refine issueOn_eq_goto hi (if_neg ?_)
  rw [Bool.and_eq_true, beq_iff_eq]
  rintro ⟨ht, hd⟩
  exact hr.elim (Bool.eq_false_iff.1 · ht) (· hd)

theorem exec_ret_of_empty (hd : (s.hand h).bank.depth = 0) (ht : (s.hand h).trapStack = true) :
    exec (.ret h) s = .next (s.takeException h 7 (s.hand h).pc false 0) := by
  rw [exec_ret, execRet]
  exact issueOn_eq_exception hi (if_pos (by rw [ht, hd]; rfl))

end

/-- A RET straight after a CALL below DEPTH 16 goes to the word after the CALL and gives back TOP and DEPTH (R88). -/
theorem exec_ret_after_push {s : State} {h : HandId} {addr pc : BitVec 16} (hd : (s.hand h).bank.depth < 16)
    (hi : (s.transferTo h ((s.hand h).bank.push addr) pc).issues h = true) :
    Answers (exec (.ret h) (s.transferTo h ((s.hand h).bank.push addr) pc)) fun u =>
      (u.hand h).pc = addr ∧ (u.hand h).bank.top = (s.hand h).bank.top ∧
      (u.hand h).bank.depth = (s.hand h).bank.depth := by
  have hdepth : min 16 ((s.hand h).bank.depth + 1) = (s.hand h).bank.depth + 1 := Nat.min_eq_right hd
  refine ⟨_, exec_ret_of_pops hi (.inr ?_), ?_, ?_, ?_⟩
  · rw [State.bank_transferTo, RetStack.push_depth, hdepth]
    exact Nat.succ_ne_zero _
  · rw [State.pc_transferTo, State.bank_transferTo, RetStack.peek_push]
  · rw [State.bank_transferTo, State.bank_transferTo, RetStack.pop_top, RetStack.push_top, BitVec.add_sub_cancel]
  · rw [State.bank_transferTo, State.bank_transferTo, RetStack.pop_depth, RetStack.push_depth, hdepth,
      Nat.add_sub_cancel]

/-- A CALL below DEPTH 16 pushes the address that follows, and a RET that issues next pops it. -/
theorem callAct_pushes {s : State} {h : HandId} (hi : s.issues h = true) (target : BitVec 16)
    (hd : (s.hand h).bank.depth < 16) :
    Answers (issueOn h false (callAct h target) s) fun t =>
      (t.hand h).pc = target ∧ (t.hand h).bank.peek = (s.hand h).pc + 1 ∧
      (t.hand h).bank.top = (s.hand h).bank.top + 1 ∧ (t.hand h).bank.depth = (s.hand h).bank.depth + 1 ∧
      (t.issues h = true → Answers (exec (.ret h) t) fun u =>
        (u.hand h).pc = (s.hand h).pc + 1 ∧ (u.hand h).bank.top = (s.hand h).bank.top ∧
        (u.hand h).bank.depth = (s.hand h).bank.depth) := by
  refine ⟨_, issueOn_callAct hi target (.inr hd), State.pc_transferTo .., ?_, ?_, ?_, exec_ret_after_push hd⟩
  · rw [State.bank_transferTo, RetStack.peek_push]
  · rw [State.bank_transferTo, RetStack.push_top]
  · rw [State.bank_transferTo, RetStack.push_depth]
    exact Nat.min_eq_right hd

/-- Settles O15: each transfer's next PC, the push and pop of a CALL and its RET, and the ends of the return stack. -/
theorem controlTransfers : Obligations.ControlTransfers := by
  unfold Obligations.ControlTransfers
  refine ⟨fun s h a b target hi => ⟨?_, ?_, ?_, ?_, ?_, ?_, ?_, ?_⟩,
    fun s h b target hi hd => ⟨callAct_pushes hi target hd, callAct_pushes hi _ hd⟩,
    fun s h target hi => ⟨exec_call_of_full hi target, exec_ret_of_empty hi, fun hd ht => ?_, fun hd ht => ?_⟩⟩
  · exact exec_jmp_of_issues hi target
  · exact exec_jr_of_issues hi b
  · exact issueOn_branchAct hi target beq_iff_eq
  · exact issueOn_branchAct hi target bne_iff_ne
  · exact issueOn_branchAct hi target BitVec.slt_iff_toInt_lt
  · exact issueOn_branchAct hi target not_slt_iff_toInt_le
  · exact issueOn_branchAct hi target BitVec.ult_iff_toNat_lt
  · exact issueOn_branchAct hi target not_ult_iff_toNat_le
  · refine ⟨_, issueOn_callAct hi target (.inl ht), ?_, State.pc_transferTo ..⟩
    rw [State.bank_transferTo, RetStack.push_depth, hd]
    decide
  · refine ⟨_, exec_ret_of_pops hi (.inl ht), ?_, State.pc_transferTo ..⟩
    rw [State.bank_transferTo, RetStack.pop_depth, hd]

end Sys2Proof.Machine
end

section
/-!
PROOFS. Writing a record (R626 to R637), sending a message (R512 to R519) and releasing a Hand (R139, R280): none of them
changes the Steward.
-/
namespace Sys2Proof.Machine

/-- What every step of a fold leaves of the Steward, the fold leaves. -/
theorem State.foldl_steward {α : Type} {f : State → α → State} (hf : ∀ s a, (f s a).steward = s.steward)
    (l : List α) (s : State) : (l.foldl f s).steward = s.steward :=
  List.foldlRecOn l f (motive := fun t => t.steward = s.steward) rfl fun t ht a _ => (hf t a).trans ht

theorem State.errand?_congr {s t : State} (ht : t.steward = s.steward) (e : Nat) : t.errand? e = s.errand? e := by
  rw [State.errand?, ht, State.errand?]

/-! ### Hands brought in line, and interrupts latched -/

@[simp] theorem State.settle_steward (s : State) : s.settle.steward = s.steward := by
  rw [(settled_settle s).1]

@[simp] theorem State.assertEvery_steward (s : State) (n : Nat) : (s.assertEvery n).steward = s.steward := rfl

@[simp] theorem State.owesWake_steward (s : State) : s.owesWake.steward = s.steward := by
  obtain e | e := owesWake_eq s <;> rw [e]

@[simp] theorem State.interruptAll_steward (s : State) (n : Nat) : (s.interruptAll n).steward = s.steward := by
  unfold State.interruptAll
  split <;> simp

/-! ### Records in the ring and the archive (R626 to R637) -/

@[simp] theorem State.toRing_steward (s : State) (ws : List Word) : (s.toRing ws).steward = s.steward := by
  unfold State.toRing
  simp only
  split
  · exact State.interruptAll_steward _ _
  · rfl

@[simp] theorem State.queueFlash_steward (s : State) (o : FlashOp) : (s.queueFlash o).steward = s.steward := rfl

@[simp] theorem State.programArchive_steward (s : State) : s.programArchive.steward = s.steward := by
  unfold State.programArchive
  split <;> rfl

@[simp] theorem toLines_steward (fuel : Nat) (ws : List Word) (s : State) :
    (toLines fuel ws s).steward = s.steward := by
  induction fuel generalizing ws s with
  | zero => rfl
  | succ fuel ih =>
    simp only [toLines]
    split
    · rfl
    · split <;> simp [ih]

@[simp] theorem State.toArchiveRaw_steward (s : State) (must : Bool) (ws : List Word) :
    (s.toArchiveRaw must ws).steward = s.steward := by
  unfold State.toArchiveRaw
  simp only
  split
  · rfl
  · split <;> simp

@[simp] theorem State.snapshotRecord_steward (s : State) (code detail : Nat) (path : Word) :
    (s.snapshotRecord code detail path).steward = s.steward := by
  unfold State.snapshotRecord
  simp only [State.toRing_steward]
  split <;> rfl

@[simp] theorem State.archiveOnly_steward (s : State) (code : Nat) (path : Word) (body : List Word) :
    (s.archiveOnly code path body).2.steward = s.steward := rfl

@[simp] theorem State.rawEvent_steward (s : State) (code detail : Nat) :
    (s.rawEvent code detail).steward = s.steward := by
  unfold State.rawEvent
  split <;> simp

@[simp] theorem State.internalErase_steward (s : State) (sector : Nat) :
    (s.internalErase sector).steward = s.steward := by
  unfold State.internalErase
  split <;> simp

@[simp] theorem State.archiveMarked_steward (s : State) : s.archiveMarked.steward = s.steward := by
  unfold State.archiveMarked State.eraseMarked
  split <;> simp

@[simp] theorem State.toArchive_steward (s : State) (must : Bool) (ws : List Word) :
    (s.toArchive must ws).steward = s.steward := by
  unfold State.toArchive
  simp only
  split <;> simp [State.enterSector]

@[simp] theorem State.recordHand_steward (s : State) (code detail h : Nat) :
    (s.recordHand code detail h).steward = s.steward := by
  unfold State.recordHand State.recordKind State.recordBody
  simp only
  split
  · split <;> simp
  · split
    · rfl
    · split <;> simp

/-! ### Messages through a port (R512 to R519) -/

@[simp] theorem State.sendNext_steward (s : State) (p : Nat) : (s.sendNext p).steward = s.steward := by
  unfold State.sendNext
  simp only
  split
  · rfl
  · split <;> rfl

@[simp] theorem State.sendControl_steward (s : State) (p : Nat) (content : List Nat) (data : List Byte) :
    (s.sendControl p content data).steward = s.steward := by
  unfold State.sendControl State.sendFlit
  split
  · exact State.foldl_steward (fun t _ => State.sendNext_steward t p) _ _
  · rfl

@[simp] theorem State.recall_steward (s : State) (e : Nat) (x : Errand) : (s.recall e x).steward = s.steward := by
  unfold State.recall
  exact State.foldl_steward (fun t p => State.sendControl_steward t p _ _) _ s

/-! ### Posted stores, and a Hand that stops (R97 to R100, R139, R280) -/

@[simp] theorem State.pokeLoc_steward (s : State) (l : Loc) (v : Word) : (s.pokeLoc l v).steward = s.steward := by
  cases l <;> rfl

@[simp] theorem State.land1_steward (s : State) (h : Nat) (p : Loc × Word) : (s.land1 h p).steward = s.steward := by
  unfold State.land1 State.storeLoc
  split
  · exact State.pokeLoc_steward _ _ _
  · rfl

@[simp] theorem State.drain_steward (s : State) (h : Nat) : (s.drain h).steward = s.steward := by
  unfold State.drain State.land
  simp only
  split
  · rfl
  · exact State.foldl_steward (fun t p => State.land1_steward t h p) _ _

@[simp] theorem State.releaseHand_steward (s : State) (h : Nat) (stopped : Bool) :
    (s.releaseHand h stopped).steward = s.steward := by
  unfold State.releaseHand
  cases stopped
  · simp only [Bool.false_eq_true, if_false]
    split <;> split <;> simp
  · simp only [if_true]
    split <;> split <;> simp

end Sys2Proof.Machine
end

section
/-!
PROOFS. Entries that meet a set guard: the exception at CS that goes to WS as NEST_FAULT, and the errand a set WS guard
stops (R155, R158, R159).
-/
namespace Sys2Proof.Machine

/-! ### The load in flight takes effect first (R82, R155) -/

/-- The load in its delay slot changes the registers and empties the slot, and nothing else. -/
theorem Hand.commitDelay_eq (x : Hand) : x.commitDelay = { x with regs := x.commitDelay.regs, delay := none } := by
  unfold Hand.commitDelay
  split
  · rw [Hand.setReg_eq]
  · next hd => rw [← hd]

theorem State.hand_commitDelay (s : State) (h : Nat) :
    (s.modHand h Hand.commitDelay).hand h = { s.hand h with regs := (s.hand h).commitDelay.regs, delay := none } := by
  rw [State.hand_modHand, if_pos rfl, Hand.commitDelay_eq]

/-- Where an exception goes does not depend on the load in flight. -/
@[simp] theorem State.goesToWs_commitDelay (s : State) (h cause : Nat) :
    (s.modHand h Hand.commitDelay).goesToWs h cause = s.goesToWs h cause := by
  simp only [State.goesToWs, State.timerToCs, State.errandWarden, State.almanacOf, State.errandOf, State.errand?,
    State.hand_commitDelay, State.core_modHand, State.modHand_steward]

/-! ### The entry for CS that meets its guard goes to WS (R158) -/

@[simp] theorem State.hand_traceTo (s : State) (h j : Nat) (a b : BitVec 16) : (s.traceTo h a b).hand j = s.hand j := by
  rw [State.traceTo_eq]
  rfl

theorem levelOfSt_entrySt_ws (st : Word) : levelOfSt (entrySt st true) = 3 := by
  have h35 : (entrySt st true).getLsbD 35 = true := by simp [entrySt, wsetBit]
  have h34 : (entrySt st true).getLsbD 34 = true := by simp [entrySt, wsetBit]
  rw [levelOfSt, h35, h34]
  rfl

theorem State.hand_settle (s : State) (h : Nat) : ∃ state, s.settle.hand h = { s.hand h with state := state } := by
  obtain ⟨_, hands, _⟩ := settled_settle s
  exact hands h

/-- The Hand after an exception for CS that finds GC set, the WS guard being clear: it is in WS at the vector of WS,
with CAUSE_W a NEST_FAULT that names the original cause, and the special registers of CS are as they were. -/
theorem State.hand_takeException_of_nested {s : State} {h cause : Nat} (era : BitVec 16) (imp : Bool) (faa : Word)
    (hcs : s.goesToWs h cause = false) (hgc : (s.hand h).gc = true) (hgw : (s.hand h).gw = false) :
    ∃ state, (s.takeException h cause era imp faa).hand h = { s.hand h with
      regs := (s.hand h).commitDelay.regs, delay := none, st := entrySt (s.hand h).st true
      pc := (s.core (coreOf h)).vecW, resv := none
      faa := if 32 ≤ cause then (s.hand h).faa else faa
      faaWs := if 32 ≤ cause then (s.hand h).faaWs else true
      eraW := era, estW := wsetBit (s.hand h).st 30 imp
      causeW := { orig := BitVec.ofNat 6 cause, code := 13 }, gw := true
      irqDepth := (s.hand h).nestIrq (32 ≤ cause), state := state } := by
  simp only [State.takeException, State.goesToWs_commitDelay, State.hand_commitDelay, hcs, hgc, hgw, Bool.not_false,
    Bool.and_self, Bool.or_true, Bool.and_false, Bool.false_eq_true, if_false, if_true]
  obtain ⟨state, hstate⟩ := State.hand_settle _ h
  refine ⟨state, hstate.trans ?_⟩
  simp only [State.hand_traceTo, State.hand_setHand, if_true, State.core_modHand, decide_eq_true_eq]
  rfl

/-! ### The entry to WS that meets its guard stops the errand (R159, R280) -/

/-- An entry to WS that finds the WS guard set is a Hand fault, once the load in flight has taken effect. -/
theorem State.takeException_of_guarded {s : State} {h cause : Nat} (era : BitVec 16) (imp : Bool) (faa : Word)
    (hws : s.goesToWs h cause = true) (hgw : (s.hand h).gw = true) :
    s.takeException h cause era imp faa = (s.modHand h Hand.commitDelay).handFault h cause := by
  simp only [State.takeException, State.goesToWs_commitDelay, State.hand_commitDelay, hws, hgw, Bool.not_true,
    Bool.false_and, Bool.true_or, Bool.and_self, Bool.false_eq_true, if_false, if_true]

@[simp] theorem State.errand?_setErrand (s : State) (e j : Nat) (x : Errand) :
    (s.setErrand e x).errand? j = if e = j then some x else s.errand? j := afind_aput _ _ _ _

@[simp] theorem State.errand?_modErrand (s : State) (e : Nat) (f : Errand → Errand) :
    (s.modErrand e f).errand? e = (s.errand? e).map f := by
  cases he : s.errand? e with
  | none => simp only [State.modErrand, he, Option.map_none]
  | some x => simp only [State.modErrand, he, State.errand?_setErrand, if_true, Option.map_some]

/-- An errand that ends on the Hand it is placed on waits there for its completion, with the status it ended with. -/
theorem State.errand?_endErrand_of_placed {s : State} {e h : Nat} {x : Errand} (he : s.errand? e = some x)
    (hp : x.phase = .placed h) (status : Nat) (result : Word) (detail : Nat) (done stopped : Bool) :
    (s.endErrand e status result detail done stopped).errand? e = some { x with
      phase := .ending (some h), status := BitVec.ofNat 8 status, result := result
      detail := BitVec.ofNat 32 detail, done := done, execPath := s.corePath (coreOf h) } := by
  simp only [State.endErrand, he, hp]
  refine (State.errand?_congr ((State.settle_steward _).trans (State.releaseHand_steward ..)) e).trans ?_
  rw [State.errand?_setErrand, if_pos rfl]

/-- An errand stopped on the Hand it is placed on ends there with the status and the detail of the stop. -/
theorem State.errand?_stopErrand_of_placed {s : State} {e h : Nat} {x : Errand} (he : s.errand? e = some x)
    (hp : x.phase = .placed h) (status detail : Nat) :
    ∃ y, (s.stopErrand e status detail).errand? e = some y ∧ y.status = BitVec.ofNat 8 status ∧
      y.detail = BitVec.ofNat 32 detail ∧ y.phase = .ending (some h) := by
  have hr : (s.recall e x).errand? e = some x := (State.errand?_congr (State.recall_steward s e x) e).trans he
  have hm (f : Errand → Errand) : ((s.recall e x).modErrand e f).errand? e = some (f x) := by
    rw [State.errand?_modErrand, hr, Option.map_some]
  simp only [State.stopErrand, he, hp]
  exact ⟨_, State.errand?_endErrand_of_placed (hm _) hp _ _ _ _ _, rfl, rfl, rfl⟩

/-- A Hand fault stops the errand of its Hand with HAND_FAULT and the cause as DETAIL. -/
theorem State.errand?_handFault_of_placed {s : State} {h e : Nat} {x : Errand} (hh : (s.hand h).errand = some e)
    (he : s.errand? e = some x) (hp : x.phase = .placed h) (cause : Nat) :
    ∃ y, (s.handFault h cause).errand? e = some y ∧ y.status = 0x09#8 ∧ y.detail = BitVec.ofNat 32 cause ∧
      y.phase = .ending (some h) := by
  simp only [State.handFault, State.hand_modHand, if_true, hh]
  rw [State.errand?_congr (State.recordHand_steward _ _ _ _)]
  refine State.errand?_stopErrand_of_placed ?_ hp _ _
  exact he

/-- Settles O20: a guarded entry for CS becomes a NEST_FAULT at WS, and one for WS stops the errand with HAND_FAULT. -/
theorem guardedEntries : Obligations.GuardedEntries := by
  unfold Obligations.GuardedEntries
  refine ⟨fun s h cause era imp faa => ?_, fun s h cause era imp faa e x hws hgw hh he hp => ?_⟩
  · intro x hcs hgc hgw y
    obtain ⟨state, hy⟩ := State.hand_takeException_of_nested era imp faa hcs hgc hgw
    rw [show y = _ from hy]
    exact ⟨rfl, levelOfSt_entrySt_ws _, rfl, rfl, rfl, rfl, rfl, rfl⟩
  · rw [State.takeException_of_guarded era imp faa hws hgw]
    have hh' : ((s.modHand h Hand.commitDelay).hand h).errand = some e := by rw [State.hand_commitDelay, hh]
    obtain ⟨y, hy, hstatus, hdetail, hphase⟩ := State.errand?_handFault_of_placed hh' he hp cause
    exact ⟨y, hy, hstatus, hdetail, _, hphase⟩

end Sys2Proof.Machine
end
